-- ==== Sys2Proof/Word.lean ====
section
/-! DEFINITION. The word types of the drive: 32-bit register words (R42), bytes, and the sparse tables in which
State keeps like things by number. -/

namespace Sys2Proof

/-- A register word: every register is 32 bits wide (R42). -/
abbrev Word := BitVec 32

/-- A byte of a frame, a capsule or an on-media structure. -/
abbrev Byte := BitVec 8

/-- Things kept by number, in rising order of the number; a number that is not listed holds its default. -/
abbrev Tab (α : Type) := List (Nat × α)

end Sys2Proof
end

