-- ==== Sys2Proof/Syntax.lean ====
section
/-! DEFINITION. The commands of the drive: one constructor of Instr per row of spec/opcode_table.json, with the
operands each carries, and the data types those operands and the state share. -/

namespace Sys2Proof

/-- The statuses of R495: the drive has exactly these. -/
inductive Status where
  | ok | okDeferredPending
  | range | reservedBits | readOnly | badOpcode | badLength | locked | tagInUse
  | state | busyActivating | stagingHeld | frozen
  | noSpace | mediaExhausted | tagsFull | tableFull | keyWorn
  | media | blockErasing | recordLost
  | integrity | cipherParity
  | auth | keyErased | keyLost | keyBusy | binding | rollback
  | abortedReset | abortedHost | abortTooLate
  | deferred | deferredOverflow
  | retry | throttled
  | condition | notFound
  deriving DecidableEq, Repr

/-- The two backplane ports (R15). -/
inductive Port where
  | a | b
  deriving DecidableEq, Repr

/-- The EtherType classes that check 3 of R93 tells apart. -/
inductive EtherType where
  | ipv6 | ipv4 | arp | other
  deriving DecidableEq, Repr

/-- The destination of a received IP datagram, as R85 sorts addresses: the port's own address, its link-local
address (IPv6 only), the harbour group of R432, or any other. -/
inductive DestAddr where
  | own | linkLocal | harbourGroup | other
  deriving DecidableEq, Repr

/-- A received UDP checksum: absent (zero), verifying, or not verifying (R87). -/
inductive UdpSum where
  | zero | good | bad
  deriving DecidableEq, Repr

/-- What the layers under a Flitar frame showed of one received frame (R83 to R88). -/
structure Rx where
  port : Port
  fcsOk : Bool
  /-- bytes from the destination address through the frame check sequence -/
  size : Nat
  /-- the VIDs of the tags the frame carried, outermost first -/
  vids : List Nat
  ether : EtherType
  /-- IPv6: the fixed header alone; IPv4: IHL 5 and a verifying header checksum -/
  ipHeaderOk : Bool
  /-- IPv4: MF set or a non-zero fragment offset -/
  fragment : Bool
  /-- Next Header or protocol number -/
  proto : Nat
  /-- the destination address -/
  ipDst : Nat
  ethSrc : Nat
  ipSrc : Nat
  ce : Bool
  srcUdpPort : Nat
  dstUdpPort : Nat
  udpSum : UdpSum
  udpLengthOk : Bool
  /-- FEC codewords that the port corrected, and that it could not correct, since it last delivered a frame (R81, R117) -/
  fecCorr : Nat
  fecUncorr : Nat
  deriving DecidableEq, Repr

/-- An ICMP or ICMPv6 echo request (R86): its frame, and what follows its checksum: identifier, sequence number and data. -/
structure EchoRequest where
  rx : Rx
  message : List Byte
  deriving DecidableEq, Repr

/-- The 32-byte header of a Flitar frame (R89). -/
structure Head where
  version : Nat
  /-- TYPE (R90); a frame of an unlisted TYPE comes in the place of any frame -/
  typ : Nat
  mooring : Nat
  berth : Nat
  seq : Nat
  ack : Nat
  sack : BitVec 32
  flags : BitVec 16
  length : Nat
  window : Nat
  reserved : Nat
  nonceCtr : Nat
  deriving DecidableEq, Repr

/-- The key under which the tag of a received frame verifies: the newest key of its direction (of a handshake frame, the
handshake key), the key that the newest one replaced, the next that a rekey derives from it, or none of them (R101). -/
inductive TagKey where
  | current | previous | next | none
  deriving DecidableEq, Repr

/-- A received mooring frame: its envelope, header, payload and the outcome of the tag check (check 9 of R93). -/
structure Frame where
  rx : Rx
  head : Head
  payload : List Byte
  tag : TagKey
  deriving DecidableEq, Repr

/-- A Flitar certificate (R94); keys are named by the SHA-384 of their 97 bytes. -/
structure Cert where
  format : Nat
  role : Nat
  depth : Nat
  reservedZero : Bool
  generation : Nat
  subject : Nat
  serial : Nat
  subjectKey : Nat
  issuerKey : Nat
  /-- SIG verifies under ISSUER_KEY -/
  sigOk : Bool
  /-- its 324 bytes -/
  bytes : List Byte
  deriving DecidableEq, Repr

/-- The payload of a HELLO frame (R97, step 1). -/
structure HelloBody where
  random : Nat
  ephemeral : Nat
  onCurve : Bool
  berths : Nat
  hflags : Nat
  maxPayload : Nat
  reserved : Nat
  deriving DecidableEq, Repr

/-- The payload of a HOST_AUTH frame (R97, step 3). -/
structure AuthBody where
  certCount : Nat
  reserved : Nat
  certs : List Cert
  hostSig : List Byte
  /-- HOST_SIG verifies under the leaf's SUBJECT_KEY -/
  hostSigOk : Bool
  deriving DecidableEq, Repr

/-- The payload of a WELCOME frame, as a towline's source receives it (R97, step 2; R437). -/
structure WelcomeBody where
  random : Nat
  ephemeral : Nat
  cert : Cert
  sig : List Byte
  deriving DecidableEq, Repr

/-- One end-to-end line: a mooring or a towline, by its ID. -/
inductive Line where
  | mooring (id : Nat)
  | towline (id : Nat)
  deriving DecidableEq, Repr

/-- An entry of the base configuration or of an overlay (R69). -/
structure Entry where
  page : Nat
  offset : Nat
  mask : Word
  value : Word
  deriving DecidableEq, Repr

/-- A copy of a base configuration: its bytes, laid out by R68, and the role counts of R18 that it assigns, for which R68 has
no field. -/
structure BaseImage where
  /-- the copy reads intact from flash -/
  readable : Bool
  bytes : List Byte
  /-- pilot, command, media and maintenance engines; none where the base leaves the default counts -/
  roles : Option (List Nat)
  deriving DecidableEq, Repr

/-- A sideband transfer's words: what an I3C private write carried (R56). -/
structure I3cWrite where
  address : Nat
  /-- bytes after the address: none, or one 4-byte data word -/
  data : Option Word
  /-- the transfer carried 3 address bytes, and 0 or 4 data bytes -/
  wellFormed : Bool
  /-- time in µs from START to STOP (R66), or to now where the STOP has not come -/
  tookUs : Nat
  /-- the STOP that ends the transfer has come -/
  stop : Bool
  deriving DecidableEq, Repr

/-- A part entry of a manifest (R409); digests are the SHA-384 values as numbers. -/
structure PartEntry where
  partId : Nat
  pflags : Nat
  version : Nat
  deltaOffset : Nat
  deltaLength : Nat
  baseDigest : Nat
  resultDigest : Nat
  deriving DecidableEq, Repr

/-- What stage two or Prepare finds on checking a staged set (R415): the outcome of each check that rests on bytes
or signatures outside State. -/
structure ApplyReport where
  readable : Bool
  /-- the status with which a new stage two fails R388, with its PART_ID -/
  imageFail : Option (Status × Nat)
  handoverOk : Bool
  programOk : Bool
  /-- the role counts that a new base assigns (R18), for which its layout has no field -/
  roles : Option (List Nat)
  /-- SCHEMA of the stage two that the new bank holds -/
  newSchema : Nat
  deriving DecidableEq, Repr

/-- The fields of a beacon (R434). -/
structure BeaconBody where
  bflags : Nat
  harbourId : Nat
  serial : Nat
  seq : Nat
  bootNumber : Nat
  fw : Nat
  mode : Nat
  space : Nat
  life : Nat
  towFree : Nat
  members : Nat
  pstate : Nat
  towPort : Nat
  deriving DecidableEq, Repr

/-- An entry of a TOW_DATA capsule (R440). -/
structure TowEntry where
  key : List Byte
  lost : Bool
  eflagsOk : Bool
  valueLen : Nat
  sourceVersion : Nat
  value : List Byte
  paddingZero : Bool
  deriving DecidableEq, Repr

/-- A TOW_DATA capsule as the destination assembles it (R440). -/
structure TowData where
  reservedZero : Bool
  quay : Nat
  msgSeq : Nat
  window : Nat
  declared : Nat
  /-- bytes of entries carried -/
  size : Nat
  entries : List TowEntry
  deriving DecidableEq, Repr

/-- How an internal handshake that was not acknowledged is resolved, and where it ran (R26). -/
inductive WatchUnit where
  | engine (n : Nat)
  | channel (n : Nat)
  | port (p : Port)
  | indexDie (n : Nat)
  | cipher (pipe : Nat)
  | other
  deriving DecidableEq, Repr

/-- A 128-bit word as it is read under the path code (R27): the word that was stored, and the 4-bit symbols of its codeword
that differ, each with the bits in error. -/
structure PathWord where
  data : BitVec 128
  errors : List (Nat × BitVec 4)
  deriving DecidableEq, Repr

/-- Where a word read under the path code lies (R28): in DRAM, in an engine's SRAM, on a fabric link of a unit, or in a flash
channel's transfer buffer; `again` tells that the link's second sending, or the page's second transfer, failed as well. -/
inductive ScrubPlace where
  | cleanLeaf (bucket : Nat)
  | dirtyLeaf (bucket : Nat)
  /-- a segment of a value staged for the read or write of this CSN -/
  | staging (csn seg : Nat)
  /-- the posted write buffer entry of this CSN -/
  | posted (csn : Nat)
  | elsewhere
  | engine (n : Nat)
  | link (u : WatchUnit) (again : Bool)
  | buffer (channel : Nat) (again : Bool)
  deriving DecidableEq, Repr

/-- A word read under the path code, with its place. -/
structure ScrubRead where
  place : ScrubPlace
  word : PathWord
  deriving DecidableEq, Repr

/-- A landing page whose program ended with good status: its number, and the flipped bits per codeword of its first-program
verify (R241), each margin read in turn. -/
structure Programmed where
  page : Nat
  flips : List Nat
  deriving DecidableEq, Repr

/-- A write-back of a leaf chain: its bucket, and whether the programs of its leaves end with good status (R240). -/
structure ChainWrite where
  bucket : Nat
  ok : Bool
  deriving DecidableEq, Repr

/-- The alarm detectors of R355. -/
inductive AlarmCause where
  | glitch | temperature | mesh | stall
  deriving DecidableEq, Repr

/-- The causes of a careen abort (R256), in the order of its table. -/
inductive AbortCause where
  | overTemp | sensorFailed | dieHot | withdrawn | dieFailed
  deriving DecidableEq, Repr

/-- Why a logbook word line failed (R379). -/
inductive LineFail where
  | oneCopy (die block : Nat)
  | bothCopies (block : Nat)
  | fallback (block : Nat)
  deriving DecidableEq, Repr

/-- Why power fail is declared (R462). -/
inductive FailCause where
  | lowInput | overVoltage | overCurrent | pwrdis
  deriving DecidableEq, Repr

/-- What the boot ROM finds (R387, R388): entropy start-up tests and the two stage-two copies. -/
structure RomReport where
  entropyOk : Bool
  /-- the security version in the header of each copy that reads intact and passes all of R388 but the rollback test -/
  primary : Option Nat
  mirror : Option Nat
  deriving DecidableEq, Repr

/-- What stage two finds (R390, R394): SCHEMA of its own image, the boot self-test's failures, and what it can read. -/
structure BootReport where
  schema : Nat
  apply : ApplyReport
  /-- units that fail their test twice -/
  badEngines : List Nat
  badPipes : List Nat
  badBanks : List Nat
  /-- the record with the highest boot number cannot be read -/
  chainBroken : Bool
  otpReadbackOk : Bool
  deriving DecidableEq, Repr

/-- Measurements of one tide window (R307, R316): energy, and the second-mean figures of CM and EN. -/
structure WindowReport where
  spentMj : Nat
  standingMj : Nat
  powerDw : Nat
  classMj : List Nat
  indexMw : Nat
  searches : Nat
  hitPermille : Nat
  engineBusy : Tab Nat
  /-- energy that each engine spent in the window, in mJ -/
  engineMj : Tab Nat
  /-- operations counted in the window, by 16 × region + op, and operations queued in each class -/
  counts : Tab Nat
  classQueued : List Nat
  deriving DecidableEq, Repr

/-- What one block's careen verify shows (R258): the flipped bits of each codeword in its margin reads (R241). -/
structure VerifyReport where
  /-- the careen erase margin of the codewords of both pages, first and, where needed, after one more erase -/
  first : List Nat
  second : List Nat
  /-- the careen program margin of the twelve codewords, at each of its two shifts -/
  low : List Nat
  high : List Nat
  /-- the erase verify of the erase that ends it -/
  erase : List Nat
  deriving DecidableEq, Repr

/-- What the decryption of a read meets: the segments whose stored ciphertext fails its tag (R348), and those at which a pipeline
meets a parity fault, each with the pipeline (R359). Of a TOW the numbers are RECORD_IDs. -/
structure ReadFaults where
  tags : List Nat
  parity : List (Nat × Nat)
  deriving DecidableEq, Repr

/-- The commands: one constructor per row of spec/opcode_table.json, in its order. -/
inductive Instr where
  -- frames from the host or a peer drive
  | hello (rx : Rx) (head : Head) (body : HelloBody)
  | hostAuth (f : Frame) (random : Nat) (body : AuthBody)
  | data (f : Frame)
  | ack (f : Frame)
  | close (f : Frame)
  | closed (l : Line)
  | arpRequest (rx : Rx) (target : Nat)
  | neighbourSolicitation (rx : Rx) (target : Nat)
  | echoRequest (echo : EchoRequest)
  -- timers of a mooring or towline
  | ackDelayExpiry (l : Line)
  | retransmissionTimeout (l : Line) (seq : Nat)
  | idleAck (l : Line)
  | idleTimeout (l : Line)
  | teardownComplete (mooring : Nat)
  | handshakeTimeout (ipSrc udpPort random : Nat)
  | oldEpochRelease (l : Line)
  | rekeyRefusalTimeout (l : Line)
  | driveRekey (l : Line)
  -- links
  | linkDetect (p : Port)
  | autonegotiation (p : Port) (peer : List Nat)
  | training (p : Port) (ok : Bool)
  | fecLock (p : Port) (ok : Bool)
  | linkLost (p : Port) (lane : Option Nat)
  | capsuleFrameGapTimeout (berth : Nat)
  -- capsules: the request of this berth that the sequencer presents next
  | get (berth : Nat) (faults : ReadFaults)
  | put (berth : Nat)
  | delete (berth : Nat)
  | existsKey (berth : Nat)
  | cas (berth : Nat)
  | batch (berth : Nat)
  | scan (berth : Nat)
  | exportValue (berth : Nat) (faults : ReadFaults)
  | tow (berth : Nat) (faults : ReadFaults)
  | quayCreate (berth : Nat)
  | quaySet (berth : Nat)
  | quayDestroy (berth : Nat)
  | rulePut (berth : Nat)
  | ruleDel (berth : Nat)
  | ruleRead (berth : Nat)
  | sealWrites (berth : Nat)
  | abort (berth : Nat)
  | berthReset (berth : Nat)
  | berthResetEnd (berth : Nat)
  | deferredRead (berth : Nat)
  | deferredAck (berth : Nat)
  | mgmtRead (berth : Nat)
  | mgmtWrite (berth : Nat)
  | capability (berth : Nat)
  | lbRead (berth : Nat)
  | lbClear (berth : Nat) (keyHash : Nat) (sigOk : Bool)
  | quote (berth : Nat)
  | unlock (berth : Nat) (verifierOk : Bool) (unwrapFails : List Nat)
  | otpRequest (berth : Nat)
  | upOpen (berth : Nat)
  | upWrite (berth : Nat)
  | upCommit (berth : Nat)
  | upAbandon (berth : Nat)
  | upArm (berth : Nat)
  | upDisarm (berth : Nat)
  | upTrigger (berth : Nat)
  | csnChunkReserve
  -- register writes, in-band, by a mooring
  | commit (mooring page : Nat)
  | abandon (mooring page : Nat)
  | clrErr (mooring page : Nat)
  | pgEvtStatusClear (mooring page : Nat) (mask : Word)
  | lock (mooring page : Nat)
  | syModeReq (mooring : Nat) (value : Word)
  | shutdown (mooring : Nat)
  | shutdownComplete
  | pstateLimit (mooring limit : Nat)
  | cfOvlMode (mooring : Nat) (value : Word)
  | cfDefaultsAccept (mooring : Nat)
  | retrain (mooring : Nat) (p : Port)
  | moKill (mooring : Nat) (value : Word)
  | moCertGenMin (mooring role : Nat) (value : Word)
  | cmTestStart (mooring : Nat)
  | fcCalStart (mooring channel die : Nat)
  | fcDiagStart (mooring channel mode : Nat)
  | enTestStart (mooring engine : Nat)
  | ckptNow (mooring : Nat)
  | ackVolatile (mooring : Nat)
  | newNonce (mooring : Nat)
  | freeze (mooring : Nat)
  | thaw (mooring : Nat)
  | rebuildStart (mooring : Nat)
  | rebuildEnd (mooring : Nat)
  | hbIdWrite (mooring : Nat) (value : Word)
  | writeExportKey (mooring : Nat)
  | rekeyQuaySlot (mooring : Nat)
  | eraseExportSlot (mooring : Nat)
  | registerWrite (mooring address : Nat) (value : Word)
  | shadowTimeout (page : Nat)
  -- the sideband
  | i3cPrivateWrite (w : I3cWrite)
  | lbSbNewest
  | lbSbOlder
  | i3cTransferTimeout
  | enec
  | disec
  | rstdaa
  | entdaa (address : Nat)
  | setnewda (address : Nat)
  | getmwl
  | getmrl
  | getpid
  | getbcr
  | getdcr
  | getstatus
  | quoteReq (nonce : List Byte)
  | sidebandQuoteReady
  -- the input stage and start-up
  | inputRise (mv : Nat)
  | detect
  | bulkCharge
  | rails
  | holdUpReady
  | holdUpTimeout
  | powerFail (cause : FailCause)
  | finish
  | park (inputMv : Nat)
  | pwrdis (high : Bool)
  | strapRead (a b c : Nat)
  | bootRom (r : RomReport)
  | stageTwo (r : BootReport)
  | mount
  | fullScan
  -- landing and flash
  | landingPageClose (page : Nat)
  | landingConfirmed (program : Programmed)
  | postedDurable
  | programFailed (page : Nat)
  | eraseSuspend (die : Nat)
  | eraseResume (die : Nat)
  | arrayReadDone (die block page step : Nat)
  | eraseDone (block : Nat) (flips : List Nat)
  | calibrationDue (channel package die : Nat)
  | calibrationDone (channel die : Nat) (offsets : Tab Word)
  | diagReadDone (channel step : Nat) (erased ok : Bool) (flips : Nat) (bytes : List Byte)
  | handshakeWatchdog (u : WatchUnit) (again : Bool)
  | dramScrub (channel : Nat) (word : ScrubRead)
  -- careening
  | campaignStart
  | dryDockGrant (die : Nat)
  | heaterCheck (die : Nat) (resistance : Nat)
  | ramp (die : Nat) (overrun : Bool)
  | pulseTrain (die : Nat)
  | cool (die : Nat) (overrun : Bool)
  | release (die : Nat)
  | careenAbort (die : Nat) (cause : AbortCause)
  | careenRetry (die : Nat)
  | blockVerify (die : Nat) (r : VerifyReport)
  | lifeRecompute
  | refresh (set : Nat)
  | patrolRead (set : Nat) (flips : List Nat)
  | retentionSurvey (cls : Nat) (set : Nat) (flips : List Nat)
  | surveyDeadlineEnd
  -- the index
  | leafFetch (bucket : Nat)
  | chainWriteback (write : ChainWrite)
  | indexScrub (bank : Nat) (offset : Nat) (flips : BitVec 160)
  | bankTest
  | bankTestEnd (pass : Bool)
  | engineTestEnd (engine : Nat) (pass : Bool)
  -- space
  | warehousing
  | dredging
  | recordCopy (csn entry set : Nat) (ok : Bool)
  | setDissolve (set : Nat)
  | lostPageSweep (set : Nat)
  | checkpointBegin
  | checkpointDone
  -- the harbourmaster
  | sensorSample (cls num : Nat) (raw : Int)
  | sensorFailed (cls num : Nat)
  | sensorReadmitted (cls num : Nat)
  | ringMeasurement (rings : List Nat) (railMv : Nat)
  | railLimit
  | tideWindowEnd (r : WindowReport)
  | stepDown
  | stepUp
  | emergencyPersist
  | lowTideReturn
  | thermalTrip (region : Nat)
  | pstateEntry
  | maintenanceExcursion
  | poweredTime
  -- the cipher
  | alarm (cause : AlarmCause) (zeroiseNs : Nat)
  | alarmSettle
  | entropyHealthFail
  | autoRekey (slot : Nat)
  | rekeySweepEnd
  | counterChunkReserve (slot : Nat)
  | cipherSuspend (pipe : Nat)
  | cipherResume (pipe : Nat)
  | pipeUncorrectable (pipe : Nat)
  | parityFault (pipe csn : Nat)
  -- the logbook
  | logFlush
  | coalesced
  | wrapped (ledger : Bool)
  | logMediaFailed (f : LineFail)
  | freezeTimeout
  -- updates
  | stagingLockTimeout
  | armingDeadline
  | prepare (r : ApplyReport)
  | switchTime
  | drain (otpOk : Bool)
  | drainBudget
  | restart (partFailed : Option Nat)
  | revert
  -- the harbour
  | beaconSend
  | beacon (rx : Rx) (payload : List Byte)
  | memberAge (id : Nat)
  | cohortTrigger (rx : Rx) (payload : List Byte)
  | towData (towline : Nat) (d : TowData)
  | towAck (towline : Nat) (status msgSeq destCsn nonces : Nat)
  | towlineIdle (towline : Nat)
  | i3cPrivateRead (words : Nat)
  | welcome (towline : Nat) (body : WelcomeBody) (sigOk : Bool)
  | moored (towline peerId window : Nat)
  | refuse (towline : Nat) (status : Nat)
  | refuseSealed (towline : Nat) (status : Nat)
  | gone (towline : Nat) (cause : Nat)
  | towlineClosed (towline : Nat)
  deriving DecidableEq, Repr

end Sys2Proof
end

