-- ==== Sys2Proof/Machine/Bits.lean ====
section
/-! DEFINITION. The small helpers the meanings share: sparse tables, bit fields of numbers and words, byte order (R7)
and CRC-32C (R68, R188, R228, R365). -/

namespace Sys2Proof.Machine

/-- The thing kept at `k`, if any. -/
def tabGet {α : Type} : Tab α → Nat → Option α
  | [], _ => none
  | (a, v) :: r, k => if a = k then some v else tabGet r k

/-- The thing kept at `k`, or the default. -/
def tabGetD {α : Type} (t : Tab α) (k : Nat) (d : α) : α := (tabGet t k).getD d

/-- Keep `v` at `k`, in rising order of keys. -/
def tabPut {α : Type} : Tab α → Nat → α → Tab α
  | [], k, v => [(k, v)]
  | (a, w) :: r, k, v =>
    if k < a then (k, v) :: (a, w) :: r else if k = a then (k, v) :: r else (a, w) :: tabPut r k v

/-- Keep nothing at `k`. -/
def tabErase {α : Type} (t : Tab α) (k : Nat) : Tab α := t.filter (fun p => p.1 != k)

/-- Change the thing kept at `k`, if any. -/
def tabUpd {α : Type} (t : Tab α) (k : Nat) (f : α → α) : Tab α := t.map (fun p => if p.1 = k then (p.1, f p.2) else p)

/-- The lowest number below `bound` that is not a key, searched from `k`. -/
def lowestFree {α : Type} (t : Tab α) : Nat → Nat → Option Nat
  | 0, _ => none
  | fuel + 1, k => match tabGet t k with
    | none => some k
    | some _ => lowestFree t fuel (k + 1)

/-- The lowest number not among the keys, below `bound`: at most one step past each key. -/
def freeKey {α : Type} (t : Tab α) (bound : Nat) : Option Nat :=
  match lowestFree t (t.length + 1) 0 with
  | some k => if k < bound then some k else none
  | none => none

/-- Bits [hi:lo] of a number. -/
def natBits (n hi lo : Nat) : Nat := (n >>> lo) % 2 ^ (hi - lo + 1)

/-- Bits [hi:lo] of a word, as a number. -/
def bits (w : Word) (hi lo : Nat) : Nat := natBits w.toNat hi lo

/-- Bit n of a word. -/
def bit (w : Word) (n : Nat) : Bool := w.getLsbD n

/-- A flag as a bit. -/
def flag (b : Bool) : Nat := if b then 1 else 0

/-- A word of its number. -/
def word (n : Nat) : Word := BitVec.ofNat 32 n

/-- A number that stops at the top of its field. -/
def sat (n width : Nat) : Nat := min n (2 ^ width - 1)

/-- An integer as a two's complement field of the width. -/
def twos (i : Int) (width : Nat) : Nat := (i % (2 ^ width : Int)).toNat

/-- A two's complement word as an integer. -/
def signed (w : Word) : Int := w.toInt

/-- The bytes of a number, most significant first (network order, R7). -/
def beBytes (n : Nat) : Nat → List Byte
  | 0 => []
  | k + 1 => BitVec.ofNat 8 (n / 256 ^ k) :: beBytes n k

/-- The bytes of a number, least significant first (on-media order, R7). -/
def leBytes (n : Nat) : Nat → List Byte
  | 0 => []
  | k + 1 => BitVec.ofNat 8 n :: leBytes (n / 256) k

/-- The number that bytes in network order spell. -/
def beNat (bs : List Byte) : Nat := bs.foldl (fun a b => a * 256 + b.toNat) 0

/-- The number that bytes in media order spell. -/
def leNat (bs : List Byte) : Nat := bs.foldr (fun b a => b.toNat + 256 * a) 0

/-- `k` zero bytes. -/
def zeroBytes (k : Nat) : List Byte := List.replicate k 0

/-- The field of `len` bytes at `off`, in network order. -/
def beAt (bs : List Byte) (off len : Nat) : Nat := beNat ((bs.drop off).take len)

/-- The field of `len` bytes at `off`, in media order. -/
def leAt (bs : List Byte) (off len : Nat) : Nat := leNat ((bs.drop off).take len)

/-- Bytes cut or zero-filled to exactly `k`. -/
def fit (bs : List Byte) (k : Nat) : List Byte := bs.take k ++ zeroBytes (k - bs.length)

/-- One bit step of the reflected CRC-32C polynomial. -/
def crcBit (c : BitVec 32) : BitVec 32 := if c.getLsbD 0 then (c >>> 1) ^^^ 0x82F63B78#32 else c >>> 1

/-- One byte of CRC-32C. -/
def crcByte (c : BitVec 32) (b : Byte) : BitVec 32 :=
  let x := c ^^^ b.zeroExtend 32
  crcBit (crcBit (crcBit (crcBit (crcBit (crcBit (crcBit (crcBit x)))))))

/-- The bytes of a string of seven-bit characters. -/
def ascii (t : String) : List Byte := t.toList.map (fun c => BitVec.ofNat 8 c.toNat)

/-- CRC-32C (Castagnoli) of bytes. -/
def crc32c (bs : List Byte) : Nat := ((bs.foldl crcByte 0xFFFFFFFF#32) ^^^ 0xFFFFFFFF#32).toNat

/-- `ceil (a / b)`. -/
def ceilDiv (a b : Nat) : Nat := (a + b - 1) / b

/-- Words cut from bytes, most significant byte first. -/
def beWords : Nat → List Byte → List Word
  | 0, _ => []
  | k + 1, bs => word (beNat (bs.take 4)) :: beWords k (bs.drop 4)

/-- Insert by rising key. -/
def insertBy {α : Type} (key : α → Nat) (x : α) : List α → List α
  | [] => [x]
  | y :: r => if key x < key y then x :: y :: r else y :: insertBy key x r

/-- Stable sort by rising key. -/
def sortBy {α : Type} (key : α → Nat) (xs : List α) : List α := xs.foldl (fun acc x => insertBy key x acc) []

/-- `a` precedes `b` modulo 2^32 (R102). -/
def seqLt (a b : Nat) : Bool :=
  let d := (b + 2 ^ 32 - a % 2 ^ 32) % 2 ^ 32
  decide (1 ≤ d) && decide (d < 2 ^ 31)

/-- The next sequence number modulo 2^32. -/
def seqAdd (a k : Nat) : Nat := (a + k) % 2 ^ 32

/-- How far `b` lies ahead of `a` modulo 2^32. -/
def seqDist (a b : Nat) : Nat := (b + 2 ^ 32 - a % 2 ^ 32) % 2 ^ 32

/-- The least of a list of numbers. -/
def listMin? (xs : List Nat) : Option Nat :=
  xs.foldl (fun m x => match m with | none => some x | some y => some (min x y)) none

/-- The greatest of a list of numbers, 0 for none. -/
def listMax (xs : List Nat) : Nat := xs.foldl max 0

/-- The sum of a list of numbers. -/
def listSum (xs : List Nat) : Nat := xs.foldl (· + ·) 0

/-- Replace entry `i` of a list. -/
def listSet {α : Type} (xs : List α) (i : Nat) (v : α) : List α := xs.set i v

end Sys2Proof.Machine
end

