-- ==== Sys2Proof/Machine/RegTable.lean ====
section
/-! DEFINITION. The field tables of every register page, row by row as the home chapters give them (R9 to R11, R45 to
R53, R61, R67, R80, R117 to R119, R151, R183, R223, R247, R268, R302, R333, R334, R361, R384, R404, R429, R449), and
the addresses of the page map (R492, R493). -/

namespace Sys2Proof.Machine

/-- The access codes of R9. -/
inductive Access where
  | rw | ro | w1c | wo | rwl
  deriving DecidableEq, Repr

/-- One row of a field table: bits, access, whether shadowed (R58), whether reserved (R10), and Reset. -/
structure Field where
  hi : Nat
  lo : Nat
  access : Access
  shadowed : Bool
  reserved : Bool
  reset : Nat
  deriving DecidableEq, Repr

/-- One register of a page: its offset, how many consecutive words carry it, and its fields. -/
structure Reg where
  offset : Nat
  count : Nat
  fields : List Field
  deriving DecidableEq, Repr

/-- A read-only field. -/
def ro (hi lo reset : Nat) : Field := ⟨hi, lo, .ro, false, false, reset⟩
/-- A writable field. -/
def rw (hi lo reset : Nat) : Field := ⟨hi, lo, .rw, false, false, reset⟩
/-- A shadowed writable field. -/
def rws (hi lo reset : Nat) : Field := ⟨hi, lo, .rw, true, false, reset⟩
/-- A lockable field. -/
def rwl (hi lo reset : Nat) : Field := ⟨hi, lo, .rwl, false, false, reset⟩
/-- A write-only field. -/
def wo (hi lo : Nat) : Field := ⟨hi, lo, .wo, false, false, 0⟩
/-- A shadowed write-only field. -/
def wos (hi lo : Nat) : Field := ⟨hi, lo, .wo, true, false, 0⟩
/-- A write-one-to-clear field. -/
def w1c (hi lo : Nat) : Field := ⟨hi, lo, .w1c, false, false, 0⟩
/-- A reserved field. -/
def rsv (hi lo : Nat) : Field := ⟨hi, lo, .ro, false, true, 0⟩

/-- Registers of the SY page. -/
def regsSY : List Reg :=
  [⟨0x040, 1, [rsv 31 16, ro 15 0 37462]⟩,
   ⟨0x044, 1, [ro 31 0 0]⟩,
   ⟨0x048, 1, [ro 31 0 0]⟩,
   ⟨0x04C, 1, [rsv 31 8, ro 7 0 66]⟩,
   ⟨0x050, 1, [rsv 31 24, ro 23 16 0, ro 15 8 0, ro 7 0 0]⟩,
   ⟨0x054, 1, [rsv 31 4, ro 3 0 0]⟩,
   ⟨0x058, 1, [ro 31 31 0, rsv 30 24, ro 23 16 0, rsv 15 11, ro 10 8 0, rsv 7 3, ro 2 0 0]⟩,
   ⟨0x05C, 1, [rsv 31 3, wo 2 0]⟩,
   ⟨0x060, 1, [ro 31 0 0]⟩,
   ⟨0x064, 1, [ro 31 0 0]⟩,
   ⟨0x068, 1, [rsv 31 9, wo 8 8, rsv 7 3, rw 2 0 4]⟩,
   ⟨0x06C, 1, [ro 31 30 0, rsv 29 16, ro 15 0 0]⟩,
   ⟨0x070, 1, [rsv 31 24, ro 23 0 0]⟩,
   ⟨0x074, 1, [rsv 31 16, ro 15 1 0, rsv 0 0]⟩,
   ⟨0x078, 1, [ro 31 0 0]⟩,
   ⟨0x07C, 1, [ro 31 0 0]⟩]

/-- Registers of the HM page, part 1. -/
def regsHM1 : List Reg :=
  [⟨0x040, 1, [rsv 31 30, rw 29 20 200, rw 19 10 180, rw 9 0 300]⟩,
   ⟨0x044, 1, [rsv 31 10, rw 9 0 150]⟩,
   ⟨0x048, 1, [rsv 31 26, ro 25 16 0, rsv 15 10, ro 9 0 0]⟩,
   ⟨0x04C, 1, [rsv 31 11, ro 10 0 0]⟩,
   ⟨0x050, 1, [rsv 31 24, ro 23 16 255, rsv 15 11, ro 10 10 0, ro 9 9 0, ro 8 8 0, rsv 7 3, ro 2 0 0]⟩,
   ⟨0x054, 1, [ro 31 31 0, rsv 30 18, ro 17 16 0, rw 15 0 500]⟩,
   ⟨0x058, 1, [rw 31 16 38000, rw 15 0 10000]⟩,
   ⟨0x05C, 1, [rsv 31 17, ro 16 0 0]⟩,
   ⟨0x060, 1, [rsv 31 14, ro 13 0 0]⟩,
   ⟨0x064, 1, [rsv 31 16, ro 15 0 0]⟩,
   ⟨0x068, 1, [ro 31 0 0]⟩,
   ⟨0x06C, 1, [rsv 31 26, rw 25 16 900, rsv 15 10, rw 9 0 600]⟩,
   ⟨0x070, 1, [rsv 31 26, ro 25 16 750, rsv 15 10, ro 9 0 0]⟩,
   ⟨0x074, 1, [rw 31 16 600, ro 15 0 0]⟩,
   ⟨0x078, 1, [rsv 31 22, ro 21 16 0, ro 15 0 0]⟩,
   ⟨0x07C, 1, [rsv 31 5, rw 4 0 0]⟩,
   ⟨0x080, 1, [ro 31 16 0, ro 15 0 0]⟩,
   ⟨0x084, 1, [rw 31 16 30, rw 15 0 100]⟩,
   ⟨0x088, 1, [ro 31 16 0, ro 15 0 0]⟩,
   ⟨0x08C, 1, [rsv 31 3, rw 2 0 0]⟩]

/-- Registers of the HM page, part 2. -/
def regsHM2 : List Reg :=
  [⟨0x090, 1, [rsv 31 24, rws 23 16 0, rsv 15 8, rws 7 0 0]⟩,
   ⟨0x094, 1, [rsv 31 26, ro 25 16 0, ro 15 0 0]⟩,
   ⟨0x098, 1, [rsv 31 21, rw 20 16 0, rsv 15 4, rw 3 0 0]⟩,
   ⟨0x09C, 1, [ro 31 0 0]⟩,
   ⟨0x0A0, 1, [rsv 31 11, ro 10 8 0, rsv 7 5, ro 4 4 0, rsv 3 3, ro 2 0 0]⟩,
   ⟨0x0A4, 4, [rws 31 0 0]⟩,
   ⟨0x0B4, 1, [rsv 31 23, ro 22 16 0, rsv 15 7, ro 6 0 0]⟩,
   ⟨0x0B8, 1, [ro 31 0 0]⟩,
   ⟨0x0BC, 1, [ro 31 0 0]⟩,
   ⟨0x0C0, 1, [ro 31 0 0]⟩,
   ⟨0x0C4, 1, [rsv 31 8, ro 7 0 0]⟩,
   ⟨0x0C8, 1, [ro 31 16 0, ro 15 0 0]⟩]

/-- Registers of the HM page. -/
def regsHM : List Reg := regsHM1 ++ regsHM2

/-- Registers of the BW page. -/
def regsBW : List Reg :=
  [⟨0x040, 1, [rsv 31 3, rw 2 0 0]⟩,
   ⟨0x044, 1, [rws 31 0 0]⟩,
   ⟨0x048, 1, [rws 31 0 0]⟩,
   ⟨0x04C, 1, [rsv 31 8, ro 7 0 0]⟩,
   ⟨0x050, 1, [rsv 31 16, rw 15 0 100]⟩,
   ⟨0x054, 1, [rsv 31 16, rw 15 0 1000]⟩,
   ⟨0x058, 1, [rsv 31 10, ro 9 9 0, ro 8 8 0, rsv 7 6, ro 5 0 0]⟩,
   ⟨0x05C, 1, [rsv 31 1, ro 0 0 0]⟩,
   ⟨0x060, 1, [ro 31 0 0]⟩,
   ⟨0x064, 8, [ro 31 0 0]⟩]

/-- Registers of the LB page, part 1. -/
def regsLB1 : List Reg :=
  [⟨0x040, 1, [ro 31 31 0, ro 30 30 0, ro 29 29 0, ro 28 28 0, ro 27 27 0, rsv 26 6, ro 5 0 0]⟩,
   ⟨0x044, 1, [wo 31 31, wo 30 30, wo 29 29, wo 28 28, rsv 27 0]⟩,
   ⟨0x048, 1, [ro 31 31 0, rsv 30 28, ro 27 16 0, rw 15 0 600]⟩,
   ⟨0x04C, 1, [ro 31 0 0]⟩,
   ⟨0x050, 1, [ro 31 0 0]⟩,
   ⟨0x054, 1, [ro 31 0 0]⟩,
   ⟨0x058, 1, [ro 31 0 0]⟩,
   ⟨0x05C, 1, [ro 31 0 0]⟩,
   ⟨0x060, 1, [ro 31 0 0]⟩,
   ⟨0x064, 1, [ro 31 0 0]⟩,
   ⟨0x068, 1, [ro 31 0 0]⟩,
   ⟨0x06C, 1, [ro 31 0 0]⟩,
   ⟨0x070, 1, [ro 31 0 0]⟩,
   ⟨0x074, 1, [rsv 31 30, ro 29 16 0, rsv 15 14, ro 13 0 0]⟩,
   ⟨0x078, 1, [rsv 31 16, rw 15 0 50]⟩,
   ⟨0x07C, 1, [rsv 31 26, ro 25 16 0, ro 15 0 0]⟩,
   ⟨0x080, 1, [ro 31 0 0]⟩,
   ⟨0x084, 1, [ro 31 0 0]⟩,
   ⟨0x088, 4, [ro 31 0 0]⟩,
   ⟨0x098, 1, [ro 31 0 0]⟩]

/-- Registers of the LB page, part 2. -/
def regsLB2 : List Reg :=
  [⟨0x09C, 1, [ro 31 0 0]⟩,
   ⟨0x0A0, 1, [rsv 31 24, rw 23 16 0, rw 15 0 0]⟩,
   ⟨0x0A4, 1, [rsv 31 24, rwl 23 0 0]⟩,
   ⟨0x0A8, 1, [ro 31 31 0, ro 30 16 0, ro 15 0 0]⟩,
   ⟨0x0AC, 1, [rw 31 0 0]⟩,
   ⟨0x0B0, 1, [rw 31 0 0]⟩,
   ⟨0x0B4, 1, [ro 31 0 0]⟩,
   ⟨0x0B8, 1, [ro 31 0 0]⟩,
   ⟨0x0BC, 1, [ro 31 31 0, rsv 30 12, ro 11 0 0]⟩,
   ⟨0x0C0, 1, [ro 31 0 0]⟩,
   ⟨0x0C4, 1, [ro 31 0 0]⟩,
   ⟨0x0E0, 1, [rsv 31 16, rwl 15 0 0]⟩,
   ⟨0x200, 896, [ro 31 0 0]⟩,
   ⟨0x0C8, 1, [ro 31 0 0]⟩,
   ⟨0x0CC, 1, [ro 31 0 0]⟩,
   ⟨0x0D0, 1, [ro 31 0 0]⟩,
   ⟨0x0D4, 1, [ro 31 16 0, ro 15 0 0]⟩,
   ⟨0x0D8, 1, [ro 31 31 0, ro 30 30 0, ro 29 29 0, rsv 28 16, ro 15 0 0]⟩,
   ⟨0x0DC, 1, [ro 31 16 0, ro 15 0 0]⟩,
   ⟨0x100, 52, [ro 31 0 0]⟩]

/-- Registers of the LB page. -/
def regsLB : List Reg := regsLB1 ++ regsLB2

/-- Registers of the UP page. -/
def regsUP : List Reg :=
  [⟨0x040, 1, [ro 31 28 0, ro 27 16 0, rsv 15 1, ro 0 0 0]⟩,
   ⟨0x044, 1, [rsv 31 28, ro 27 0 0]⟩,
   ⟨0x048, 1, [rsv 31 28, ro 27 0 0]⟩,
   ⟨0x04C, 1, [ro 31 0 0]⟩,
   ⟨0x050, 12, [ro 31 0 0]⟩,
   ⟨0x080, 1, [ro 31 0 0]⟩,
   ⟨0x084, 1, [ro 31 0 0]⟩,
   ⟨0x088, 1, [rsv 31 16, ro 15 0 0]⟩,
   ⟨0x08C, 1, [rsv 31 10, rw 9 0 800]⟩,
   ⟨0x090, 1, [ro 31 16 0, ro 15 12 0, ro 11 8 0, rsv 7 0]⟩,
   ⟨0x094, 1, [ro 31 0 0]⟩,
   ⟨0x098, 1, [ro 31 16 0, ro 15 0 0]⟩,
   ⟨0x09C, 1, [ro 31 31 0, ro 30 0 0]⟩,
   ⟨0x0A0, 1, [rsv 31 16, ro 15 8 0, ro 7 0 0]⟩,
   ⟨0x0A4, 1, [ro 31 0 0]⟩]

/-- Registers of the CF page. -/
def regsCF : List Reg :=
  [⟨0x040, 1, [ro 31 16 0, ro 15 0 0]⟩,
   ⟨0x044, 1, [ro 31 16 0, rsv 15 10, ro 9 8 0, rsv 7 1, ro 0 0 0]⟩,
   ⟨0x048, 12, [ro 31 0 0]⟩,
   ⟨0x078, 1, [rsv 31 3, rwl 2 0 0]⟩,
   ⟨0x07C, 1, [rsv 31 1, wo 0 0]⟩,
   ⟨0x080, 1, [rsv 31 3, rw 2 0 0]⟩,
   ⟨0x084, 1, [rsv 31 8, rws 7 0 0]⟩,
   ⟨0x088, 1, [rsv 31 7, rw 6 0 0]⟩,
   ⟨0x08C, 1, [rsv 31 24, rws 23 12 0, rws 11 0 0]⟩,
   ⟨0x090, 1, [rws 31 0 0]⟩,
   ⟨0x094, 1, [rws 31 0 0]⟩,
   ⟨0x098, 1, [ro 31 16 0, rsv 15 11, ro 10 8 0, ro 7 7 0, ro 6 0 0]⟩]

/-- Registers of the CP page, part 1. -/
def regsCP1 : List Reg :=
  [⟨0x040, 1, [ro 31 31 1, ro 30 30 0, ro 29 29 0, rsv 28 8, ro 7 0 0]⟩,
   ⟨0x044, 1, [rsv 31 17, ro 16 0 65536]⟩,
   ⟨0x048, 1, [rsv 31 16, rw 15 0 0]⟩,
   ⟨0x04C, 1, [ro 31 28 0, ro 27 24 0, rsv 23 23, ro 22 20 0, rsv 19 16, ro 15 0 0]⟩,
   ⟨0x050, 1, [ro 31 0 0]⟩,
   ⟨0x054, 1, [ro 31 0 0]⟩,
   ⟨0x058, 1, [rsv 31 16, ro 15 0 0]⟩,
   ⟨0x05C, 1, [ro 31 16 0, ro 15 0 0]⟩,
   ⟨0x060, 1, [rsv 31 3, rws 2 0 0]⟩,
   ⟨0x064, 1, [rsv 31 16, rws 15 0 0]⟩,
   ⟨0x068, 1, [rsv 31 28, rws 27 0 0]⟩,
   ⟨0x06C, 8, [wos 31 0]⟩,
   ⟨0x08C, 1, [rsv 31 4, rwl 3 2 0, ro 1 1 0, ro 0 0 0]⟩,
   ⟨0x090, 1, [ro 31 28 0, rsv 27 16, ro 15 0 0]⟩,
   ⟨0x094, 1, [rsv 31 16, ro 15 0 0]⟩,
   ⟨0x098, 1, [rsv 31 3, rw 2 0 0]⟩,
   ⟨0x09C, 1, [ro 31 30 0, rsv 29 23, ro 22 16 0, rsv 15 0]⟩,
   ⟨0x0A0, 1, [ro 31 0 0]⟩,
   ⟨0x0A4, 1, [ro 31 0 0]⟩,
   ⟨0x0A8, 1, [ro 31 0 0]⟩]

/-- Registers of the CP page, part 2. -/
def regsCP2 : List Reg :=
  [⟨0x0AC, 1, [ro 31 0 0]⟩,
   ⟨0x0B0, 1, [ro 31 16 0, ro 15 0 0]⟩,
   ⟨0x0B4, 1, [rsv 31 16, ro 15 0 0]⟩,
   ⟨0x0B8, 1, [ro 31 31 0, rsv 30 28, ro 27 16 0, rsv 15 10, ro 9 0 0]⟩]

/-- Registers of the CP page. -/
def regsCP : List Reg := regsCP1 ++ regsCP2

/-- Registers of the CM page, part 1. -/
def regsCM1 : List Reg :=
  [⟨0x040, 8, [ro 31 0 0]⟩,
   ⟨0x060, 8, [ro 31 0 0]⟩,
   ⟨0x080, 6, [rsv 31 16, ro 15 15 0, rsv 14 14, ro 13 8 0, rsv 7 6, ro 5 0 0]⟩,
   ⟨0x098, 1, [rsv 31 24, ro 23 16 0, ro 15 8 0, ro 7 0 0]⟩,
   ⟨0x09C, 1, [wo 31 31, rsv 30 22, ro 21 16 0, ro 15 15 0, rsv 14 8, rw 7 0 24]⟩,
   ⟨0x0A0, 1, [ro 31 0 0]⟩,
   ⟨0x0A4, 1, [ro 31 0 0]⟩,
   ⟨0x0A8, 1, [ro 31 0 0]⟩,
   ⟨0x0AC, 1, [ro 31 0 0]⟩,
   ⟨0x0B0, 1, [ro 31 0 0]⟩,
   ⟨0x0B4, 1, [ro 31 0 0]⟩,
   ⟨0x0B8, 1, [rsv 31 23, ro 22 0 0]⟩,
   ⟨0x0BC, 1, [rsv 31 20, ro 19 0 0]⟩,
   ⟨0x0C0, 1, [rsv 31 17, ro 16 0 0]⟩,
   ⟨0x0C4, 1, [rsv 31 16, ro 15 0 0]⟩,
   ⟨0x0C8, 1, [ro 31 0 0]⟩,
   ⟨0x0CC, 1, [rsv 31 10, ro 9 0 0]⟩,
   ⟨0x0D0, 1, [rsv 31 26, ro 25 0 0]⟩,
   ⟨0x0D4, 1, [rsv 31 26, rw 25 0 16000000]⟩,
   ⟨0x0D8, 1, [rsv 31 8, rw 7 0 16]⟩]

/-- Registers of the CM page, part 2. -/
def regsCM2 : List Reg :=
  [⟨0x0DC, 1, [ro 31 0 0]⟩,
   ⟨0x0E0, 1, [ro 31 0 0]⟩,
   ⟨0x0E4, 1, [ro 31 0 0]⟩,
   ⟨0x0E8, 1, [rsv 31 2, rw 1 1 1, rw 0 0 1]⟩]

/-- Registers of the CM page. -/
def regsCM : List Reg := regsCM1 ++ regsCM2

/-- Registers of the DR page, part 1. -/
def regsDR1 : List Reg :=
  [⟨0x040, 1, [rsv 31 19, ro 18 18 0, ro 17 17 0, ro 16 16 0, rsv 15 4, ro 3 3 0, ro 2 0 0]⟩,
   ⟨0x044, 1, [rsv 31 10, ro 9 0 0]⟩,
   ⟨0x048, 1, [ro 31 0 0]⟩,
   ⟨0x04C, 1, [rsv 31 10, ro 9 0 0]⟩,
   ⟨0x050, 1, [ro 31 0 0]⟩,
   ⟨0x054, 1, [rsv 31 3, ro 2 0 0]⟩,
   ⟨0x058, 1, [rsv 31 23, ro 22 0 0]⟩,
   ⟨0x05C, 1, [rsv 31 7, ro 6 0 64]⟩,
   ⟨0x060, 1, [rsv 31 26, rw 25 16 990, rsv 15 10, rw 9 0 970]⟩,
   ⟨0x064, 1, [rw 31 16 4096, rw 15 0 16384]⟩,
   ⟨0x068, 1, [rw 31 16 6144, rw 15 0 4096]⟩,
   ⟨0x06C, 1, [rsv 31 21, rw 20 0 262144]⟩,
   ⟨0x070, 1, [ro 31 16 0, rw 15 0 15728]⟩,
   ⟨0x074, 1, [rsv 31 18, ro 17 0 0]⟩,
   ⟨0x078, 1, [ro 31 0 0]⟩,
   ⟨0x07C, 1, [ro 31 0 0]⟩,
   ⟨0x080, 1, [ro 31 0 0]⟩,
   ⟨0x084, 1, [ro 31 0 0]⟩,
   ⟨0x088, 1, [ro 31 0 0]⟩,
   ⟨0x08C, 1, [ro 31 0 0]⟩]

/-- Registers of the DR page, part 2. -/
def regsDR2 : List Reg :=
  [⟨0x090, 1, [wo 31 31, ro 30 30 0, rsv 29 16, ro 15 0 0]⟩,
   ⟨0x094, 1, [ro 31 30 0, rsv 29 20, ro 19 0 0]⟩,
   ⟨0x098, 1, [ro 31 0 0]⟩,
   ⟨0x09C, 1, [ro 31 0 0]⟩,
   ⟨0x0A0, 1, [rsv 31 16, ro 15 0 0]⟩,
   ⟨0x0A4, 1, [ro 31 31 0, rsv 30 10, ro 9 0 0]⟩]

/-- Registers of the DR page. -/
def regsDR : List Reg := regsDR1 ++ regsDR2

/-- Registers of the CA page, part 1. -/
def regsCA1 : List Reg :=
  [⟨0x040, 1, [rw 31 31 0, rsv 30 23, rw 22 16 8, rsv 15 7, rw 6 0 64]⟩,
   ⟨0x044, 1, [rsv 31 16, rw 15 0 30000]⟩,
   ⟨0x048, 1, [rsv 31 28, rw 27 16 2300, rw 15 8 22, rsv 7 0]⟩,
   ⟨0x04C, 1, [rw 31 16 750, rw 15 0 700]⟩,
   ⟨0x050, 1, [rsv 31 23, ro 22 16 0, rsv 15 15, ro 14 8 0, rsv 7 7, ro 6 0 0]⟩,
   ⟨0x054, 1, [rsv 31 24, ro 23 16 0, rsv 15 8, ro 7 0 0]⟩,
   ⟨0x058, 1, [ro 31 0 0]⟩,
   ⟨0x05C, 1, [ro 31 0 0]⟩,
   ⟨0x060, 1, [rsv 31 16, ro 15 0 0]⟩,
   ⟨0x064, 1, [rsv 31 22, ro 21 12 0, ro 11 10 0, ro 9 0 0]⟩,
   ⟨0x068, 1, [rsv 31 17, ro 16 0 0]⟩,
   ⟨0x06C, 1, [rsv 31 12, ro 11 2 0, ro 1 0 0]⟩,
   ⟨0x070, 1, [rsv 31 24, rw 23 0 80000]⟩,
   ⟨0x074, 1, [ro 31 0 0]⟩,
   ⟨0x078, 1, [ro 31 0 0]⟩,
   ⟨0x07C, 1, [ro 31 0 0]⟩,
   ⟨0x080, 1, [rsv 31 16, ro 15 0 0]⟩,
   ⟨0x084, 1, [rw 31 16 200, rw 15 0 2000]⟩,
   ⟨0x088, 4, [ro 31 0 0]⟩,
   ⟨0x098, 1, [rsv 31 24, rw 23 16 7, rsv 15 10, ro 9 0 0]⟩]

/-- Registers of the CA page, part 2. -/
def regsCA2 : List Reg :=
  [⟨0x09C, 1, [ro 31 31 0, ro 30 30 0, rsv 29 20, rw 19 16 6, rsv 15 10, ro 9 0 0]⟩,
   ⟨0x0A0, 1, [ro 31 0 0]⟩,
   ⟨0x0A4, 1, [rsv 31 10, rw 9 0 0]⟩,
   ⟨0x0A8, 1, [ro 31 28 0, ro 27 26 0, rsv 25 21, ro 20 16 0, rsv 15 11, ro 10 0 0]⟩,
   ⟨0x0AC, 1, [rsv 31 12, rw 11 2 0, rw 1 0 0]⟩,
   ⟨0x0B0, 1, [ro 31 16 0, ro 15 14 0, rsv 13 11, ro 10 0 0]⟩,
   ⟨0x0B4, 1, [rsv 31 24, ro 23 0 0]⟩,
   ⟨0x0B8, 1, [rsv 31 16, ro 15 0 0]⟩,
   ⟨0x0BC, 1, [rsv 31 16, ro 15 0 0]⟩]

/-- Registers of the CA page. -/
def regsCA : List Reg := regsCA1 ++ regsCA2

/-- Registers of the NP pages. -/
def regsNP : List Reg :=
  [⟨0x040, 1, [ro 31 31 0, rsv 30 20, ro 19 16 0, ro 15 12 0, rsv 11 8, ro 7 0 0]⟩,
   ⟨0x044, 1, [rsv 31 9, wo 8 8, rsv 7 3, rw 2 0 7]⟩,
   ⟨0x048, 1, [ro 31 0 0]⟩,
   ⟨0x04C, 1, [rsv 31 16, ro 15 0 0]⟩,
   ⟨0x050, 1, [rw 31 29 0, rsv 28 16, rw 15 15 1, rsv 14 12, rw 11 0 0]⟩,
   ⟨0x054, 1, [rsv 31 16, rw 15 0 7500]⟩,
   ⟨0x058, 1, [rsv 31 14, rw 13 8 48, rsv 7 6, rw 5 0 26]⟩,
   ⟨0x05C, 1, [rsv 31 3, rw 2 2 1, rw 1 1 1, rw 0 0 1]⟩,
   ⟨0x060, 1, [rws 31 0 0]⟩,
   ⟨0x064, 4, [rws 31 0 0]⟩,
   ⟨0x074, 1, [ro 31 0 0]⟩,
   ⟨0x078, 1, [ro 31 0 0]⟩,
   ⟨0x07C, 1, [ro 31 0 0]⟩,
   ⟨0x080, 10, [ro 31 0 0]⟩,
   ⟨0x0A8, 1, [ro 31 0 0]⟩,
   ⟨0x0AC, 1, [ro 31 0 0]⟩,
   ⟨0x0B0, 1, [ro 31 0 0]⟩]

/-- Registers of the MO page. -/
def regsMO : List Reg :=
  [⟨0x040, 1, [ro 31 24 0, rsv 23 13, ro 12 0 0]⟩,
   ⟨0x044, 1, [rsv 31 15, ro 14 0 16384]⟩,
   ⟨0x048, 1, [rsv 31 16, rw 15 0 10]⟩,
   ⟨0x04C, 1, [rsv 31 13, rw 12 0 512]⟩,
   ⟨0x050, 1, [rsv 31 16, rw 15 0 1000]⟩,
   ⟨0x054, 4, [rw 31 0 0]⟩,
   ⟨0x064, 1, [rsv 31 12, wo 11 0]⟩,
   ⟨0x068, 1, [rsv 31 4, rwl 3 0 15]⟩,
   ⟨0x06C, 1, [rsv 31 2, ro 1 1 1, ro 0 0 0]⟩,
   ⟨0x070, 1, [rsv 31 7, rw 6 0 0]⟩,
   ⟨0x074, 1, [rws 31 0 0]⟩,
   ⟨0x078, 1, [ro 31 0 0]⟩,
   ⟨0x07C, 1, [ro 31 0 0]⟩]

/-- Registers of the HB page, part 1. -/
def regsHB1 : List Reg :=
  [⟨0x040, 1, [ro 31 31 0, rsv 30 17, ro 16 16 0, rsv 15 12, rw 11 0 0]⟩,
   ⟨0x044, 1, [rsv 31 12, rwl 11 0 0]⟩,
   ⟨0x048, 1, [rw 31 29 0, rsv 28 12, rw 11 0 0]⟩,
   ⟨0x04C, 1, [rw 31 16 7502, rw 15 0 7501]⟩,
   ⟨0x050, 1, [wo 31 31, wo 30 30, rsv 29 3, rw 2 2 0, rw 1 1 1, rw 0 0 1]⟩,
   ⟨0x054, 1, [ro 31 31 0, ro 30 30 0, rsv 29 13, ro 12 0 0]⟩,
   ⟨0x058, 1, [rsv 31 16, ro 15 8 0, ro 7 0 0]⟩,
   ⟨0x05C, 1, [rsv 31 16, rw 15 0 60]⟩,
   ⟨0x060, 1, [rsv 31 12, rw 11 0 0]⟩,
   ⟨0x064, 1, [ro 31 30 0, ro 29 27 0, ro 26 24 0, ro 23 16 0, ro 15 0 0]⟩,
   ⟨0x068, 1, [ro 31 0 0]⟩,
   ⟨0x06C, 1, [ro 31 0 0]⟩,
   ⟨0x070, 1, [ro 31 0 0]⟩,
   ⟨0x074, 4, [ro 31 0 0]⟩,
   ⟨0x084, 1, [ro 31 0 0]⟩,
   ⟨0x088, 1, [ro 31 0 0]⟩,
   ⟨0x08C, 1, [ro 31 0 0]⟩,
   ⟨0x090, 1, [ro 31 16 0, rsv 15 12, ro 11 0 0]⟩,
   ⟨0x094, 1, [rsv 31 1, ro 0 0 0]⟩,
   ⟨0x098, 1, [rsv 31 7, rw 6 0 0]⟩]

/-- Registers of the HB page, part 2. -/
def regsHB2 : List Reg :=
  [⟨0x09C, 1, [rws 31 0 0]⟩]

/-- Registers of the HB page. -/
def regsHB : List Reg := regsHB1 ++ regsHB2

/-- Registers of the FC pages, part 1. -/
def regsFC1 : List Reg :=
  [⟨0x040, 1, [ro 31 16 0, ro 15 0 0]⟩,
   ⟨0x044, 16, [ro 31 28 0, ro 27 24 0, rsv 23 21, ro 20 16 0, rsv 15 14, ro 13 12 0, rsv 11 10, ro 9 0 0]⟩,
   ⟨0x084, 1, [ro 31 0 0]⟩,
   ⟨0x088, 1, [ro 31 0 0]⟩,
   ⟨0x08C, 1, [ro 31 0 0]⟩,
   ⟨0x090, 1, [ro 31 0 0]⟩,
   ⟨0x094, 1, [ro 31 0 0]⟩,
   ⟨0x098, 1, [ro 31 0 0]⟩,
   ⟨0x09C, 1, [ro 31 0 0]⟩,
   ⟨0x0A0, 1, [rw 31 16 500, rsv 15 11, rw 10 8 4, rsv 7 5, rw 4 0 16]⟩,
   ⟨0x0A4, 1, [wo 31 31, rsv 30 28, rw 27 24 0, rsv 23 16, rw 15 8 24, rw 7 0 15]⟩,
   ⟨0x0A8, 1, [ro 31 31 0, rsv 30 28, ro 27 24 0, ro 23 0 0]⟩,
   ⟨0x0AC, 1, [rsv 31 8, rw 7 4 0, rw 3 3 0, rsv 2 2, rw 1 0 0]⟩,
   ⟨0x0B0, 1, [ro 31 0 0]⟩,
   ⟨0x0B4, 1, [rsv 31 24, ro 23 0 0]⟩,
   ⟨0x0B8, 1, [rsv 31 28, rw 27 24 0, rw 23 22 0, rw 21 12 0, rw 11 0 0]⟩,
   ⟨0x0BC, 1, [wo 31 31, rsv 30 10, rw 9 8 0, rsv 7 0]⟩,
   ⟨0x0C0, 1, [rsv 31 15, rw 14 8 0, rw 7 0 0]⟩,
   ⟨0x0C4, 1, [ro 31 31 0, ro 30 30 0, ro 29 29 0, rsv 28 28, ro 27 24 0, rsv 23 16, ro 15 0 0]⟩,
   ⟨0x0C8, 1, [rsv 31 4, rw 3 0 0]⟩]

/-- Registers of the FC pages, part 2. -/
def regsFC2 : List Reg :=
  [⟨0x0CC, 1, [ro 31 0 0]⟩,
   ⟨0x800, 512, [ro 31 0 0]⟩]

/-- Registers of the FC page. -/
def regsFC : List Reg := regsFC1 ++ regsFC2

/-- Registers of the EN pages. -/
def regsEN : List Reg :=
  [⟨0x040, 1, [rsv 31 18, ro 17 16 0, rsv 15 9, ro 8 8 0, rsv 7 6, ro 5 0 0]⟩,
   ⟨0x044, 1, [ro 31 28 0, rsv 27 0]⟩,
   ⟨0x048, 1, [ro 31 16 0, ro 15 0 0]⟩,
   ⟨0x04C, 1, [rsv 31 10, ro 9 0 0]⟩,
   ⟨0x050, 1, [ro 31 0 0]⟩,
   ⟨0x054, 1, [ro 31 0 0]⟩,
   ⟨0x058, 1, [ro 31 0 0]⟩,
   ⟨0x05C, 1, [ro 31 0 0]⟩,
   ⟨0x060, 1, [ro 31 0 0]⟩,
   ⟨0x064, 1, [wo 31 31, rsv 30 16, ro 15 15 0, rsv 14 2, ro 1 0 0]⟩]

/-- Registers of the BT pages. -/
def regsBT : List Reg :=
  [⟨0x000, 1, [ro 31 28 0, ro 27 24 0, ro 23 12 0, rsv 11 0]⟩,
   ⟨0x004, 1, [rsv 31 11, ro 10 0 0]⟩,
   ⟨0x008, 1, [rsv 31 11, ro 10 0 0]⟩,
   ⟨0x00C, 1, [rsv 31 11, ro 10 0 0]⟩,
   ⟨0x010, 1, [rsv 31 11, ro 10 0 0]⟩,
   ⟨0x014, 1, [rsv 31 27, ro 26 16 0, rsv 15 11, ro 10 0 0]⟩,
   ⟨0x018, 1, [ro 31 0 0]⟩,
   ⟨0x01C, 1, [ro 31 0 0]⟩,
   ⟨0x020, 1, [ro 31 0 0]⟩,
   ⟨0x024, 1, [ro 31 31 0, rsv 30 23, ro 22 16 0, ro 15 0 0]⟩,
   ⟨0x028, 1, [ro 31 0 0]⟩,
   ⟨0x02C, 1, [ro 31 0 0]⟩,
   ⟨0x030, 1, [rsv 31 16, ro 15 0 0]⟩,
   ⟨0x034, 1, [ro 31 0 0]⟩,
   ⟨0x038, 1, [ro 31 0 0]⟩,
   ⟨0x03C, 1, [ro 31 0 0]⟩]

/-- Registers of the QY pages. -/
def regsQY : List Reg :=
  [⟨0x000, 1, [ro 31 28 0, rsv 27 25, ro 24 24 0, rsv 23 0]⟩,
   ⟨0x004, 1, [rsv 31 27, ro 26 0 0]⟩,
   ⟨0x008, 1, [rsv 31 18, ro 17 0 0]⟩,
   ⟨0x00C, 1, [rsv 31 18, ro 17 0 0]⟩,
   ⟨0x010, 1, [ro 31 0 0]⟩,
   ⟨0x014, 1, [rsv 31 10, ro 9 0 0]⟩,
   ⟨0x018, 1, [ro 31 0 0]⟩,
   ⟨0x01C, 1, [rsv 31 3, ro 2 0 0]⟩,
   ⟨0x020, 1, [rsv 31 16, ro 15 0 0]⟩,
   ⟨0x024, 1, [rsv 31 17, ro 16 0 0]⟩,
   ⟨0x028, 1, [ro 31 24 0, ro 23 16 0, ro 15 8 0, ro 7 0 0]⟩,
   ⟨0x02C, 1, [ro 31 0 0]⟩,
   ⟨0x030, 1, [ro 31 0 0]⟩,
   ⟨0x034, 1, [ro 31 0 0]⟩,
   ⟨0x038, 1, [ro 31 0 0]⟩,
   ⟨0x03C, 1, [ro 31 0 0]⟩]

/-- Registers of the MR pages. -/
def regsMR : List Reg :=
  [⟨0x000, 1, [ro 31 28 0, ro 27 24 0, rsv 23 21, ro 20 16 0, rsv 15 11, ro 10 8 0, rsv 7 3, ro 2 2 0, ro 1 1 0, ro 0 0 0]⟩,
   ⟨0x004, 1, [rsv 31 16, ro 15 0 0]⟩,
   ⟨0x008, 1, [ro 31 0 0]⟩,
   ⟨0x00C, 1, [ro 31 0 0]⟩,
   ⟨0x010, 1, [ro 31 0 0]⟩,
   ⟨0x014, 1, [ro 31 16 0, ro 15 0 0]⟩,
   ⟨0x018, 1, [ro 31 0 0]⟩,
   ⟨0x01C, 1, [ro 31 0 0]⟩,
   ⟨0x020, 8, [ro 31 16 0, ro 15 0 0]⟩]

/-- The common page header (R45 to R53); the block-specific bits of PG_CONTROL and PG_STATUS are those that the pages
name, and no page names any. -/
def regsHeader : List Reg :=
  [⟨0x000, 1, [ro 31 16 0, ro 15 0 0]⟩,
   ⟨0x004, 1, [rsv 31 16, ro 15 8 1, ro 7 0 0]⟩,
   ⟨0x008, 1, [rsv 31 28, ro 27 16 0, ro 15 8 0, rsv 7 4, ro 3 3 0, ro 2 2 0, ro 1 1 0, ro 0 0 0]⟩,
   ⟨0x00C, 1, [ro 31 30 0, rsv 29 28, ro 27 16 0, ro 15 0 0]⟩,
   ⟨0x010, 1, [rsv 31 16, rsv 15 3, wo 2 2, wo 1 1, wo 0 0]⟩,
   ⟨0x014, 1, [w1c 31 0]⟩,
   ⟨0x018, 1, [rw 31 0 0]⟩,
   ⟨0x01C, 1, [ro 31 0 0]⟩,
   ⟨0x020, 1, [rsv 31 1, rwl 0 0 0]⟩]

/-! ### Register addresses -/

namespace A

/-- SY_HW_TYPE. -/
abbrev SY_HW_TYPE : Nat := 0x000040
/-- SY_SERIAL_LO. -/
abbrev SY_SERIAL_LO : Nat := 0x000044
/-- SY_SERIAL_HI. -/
abbrev SY_SERIAL_HI : Nat := 0x000048
/-- SY_SILICON_REV. -/
abbrev SY_SILICON_REV : Nat := 0x00004C
/-- SY_FW_VERSION. -/
abbrev SY_FW_VERSION : Nat := 0x000050
/-- SY_PHASE. -/
abbrev SY_PHASE : Nat := 0x000054
/-- SY_MODE. -/
abbrev SY_MODE : Nat := 0x000058
/-- SY_MODE_REQ. -/
abbrev SY_MODE_REQ : Nat := 0x00005C
/-- SY_CSN_LO. -/
abbrev SY_CSN_LO : Nat := 0x000060
/-- SY_CSN_HI. -/
abbrev SY_CSN_HI : Nat := 0x000064
/-- SY_PWR_CTRL. -/
abbrev SY_PWR_CTRL : Nat := 0x000068
/-- SY_ADDR_ERR_STATUS. -/
abbrev SY_ADDR_ERR_STATUS : Nat := 0x00006C
/-- SY_ADDR_ERR_ADDR. -/
abbrev SY_ADDR_ERR_ADDR : Nat := 0x000070
/-- SY_EVT_SUMMARY. -/
abbrev SY_EVT_SUMMARY : Nat := 0x000074
/-- SY_DRAM_CORR. -/
abbrev SY_DRAM_CORR : Nat := 0x000078
/-- SY_DRAM_UNCORR. -/
abbrev SY_DRAM_UNCORR : Nat := 0x00007C
/-- BW_PLAUS_IDX. -/
abbrev BW_PLAUS_IDX : Nat := 0x002040
/-- BW_PLAUS_LO. -/
abbrev BW_PLAUS_LO : Nat := 0x002044
/-- BW_PLAUS_HI. -/
abbrev BW_PLAUS_HI : Nat := 0x002048
/-- BW_SENSOR_FAIL. -/
abbrev BW_SENSOR_FAIL : Nat := 0x00204C
/-- BW_CAPSULE_TMO. -/
abbrev BW_CAPSULE_TMO : Nat := 0x002050
/-- BW_I3C_TMO. -/
abbrev BW_I3C_TMO : Nat := 0x002054
/-- BW_STRAP. -/
abbrev BW_STRAP : Nat := 0x002058
/-- BW_PINS. -/
abbrev BW_PINS : Nat := 0x00205C
/-- BW_WDOG_COUNT. -/
abbrev BW_WDOG_COUNT : Nat := 0x002060
/-- BW_REJ_COUNT. -/
abbrev BW_REJ_COUNT : Nat := 0x002064
/-- CF_BASE_VERSION. -/
abbrev CF_BASE_VERSION : Nat := 0x005040
/-- CF_BASE_STATUS. -/
abbrev CF_BASE_STATUS : Nat := 0x005044
/-- CF_BASE_DIGEST. -/
abbrev CF_BASE_DIGEST : Nat := 0x005048
/-- CF_BOOT_MODE. -/
abbrev CF_BOOT_MODE : Nat := 0x005078
/-- CF_DEFAULTS_ACCEPT. -/
abbrev CF_DEFAULTS_ACCEPT : Nat := 0x00507C
/-- CF_OVL_MODE. -/
abbrev CF_OVL_MODE : Nat := 0x005080
/-- CF_OVL_LEN. -/
abbrev CF_OVL_LEN : Nat := 0x005084
/-- CF_OVL_IDX. -/
abbrev CF_OVL_IDX : Nat := 0x005088
/-- CF_OVL_TARGET. -/
abbrev CF_OVL_TARGET : Nat := 0x00508C
/-- CF_OVL_MASK. -/
abbrev CF_OVL_MASK : Nat := 0x005090
/-- CF_OVL_VALUE. -/
abbrev CF_OVL_VALUE : Nat := 0x005094
/-- CF_OVL_FAIL. -/
abbrev CF_OVL_FAIL : Nat := 0x005098
/-- NP_LINK. -/
abbrev NP_LINK : Nat := 0x00A040
/-- NP_LINK_CTRL. -/
abbrev NP_LINK_CTRL : Nat := 0x00A044
/-- NP_MAC_LO. -/
abbrev NP_MAC_LO : Nat := 0x00A048
/-- NP_MAC_HI. -/
abbrev NP_MAC_HI : Nat := 0x00A04C
/-- NP_VLAN. -/
abbrev NP_VLAN : Nat := 0x00A050
/-- NP_UDP. -/
abbrev NP_UDP : Nat := 0x00A054
/-- NP_DSCP. -/
abbrev NP_DSCP : Nat := 0x00A058
/-- NP_IP_CTRL. -/
abbrev NP_IP_CTRL : Nat := 0x00A05C
/-- NP_IPV4_ADDR. -/
abbrev NP_IPV4_ADDR : Nat := 0x00A060
/-- NP_IPV6_ADDR. -/
abbrev NP_IPV6_ADDR : Nat := 0x00A064
/-- NP_RX_FRAMES. -/
abbrev NP_RX_FRAMES : Nat := 0x00A074
/-- NP_TX_FRAMES. -/
abbrev NP_TX_FRAMES : Nat := 0x00A078
/-- NP_CE_RX. -/
abbrev NP_CE_RX : Nat := 0x00A07C
/-- NP_DISCARD. -/
abbrev NP_DISCARD : Nat := 0x00A080
/-- NP_FEC_CORR. -/
abbrev NP_FEC_CORR : Nat := 0x00A0A8
/-- NP_FEC_UNCORR. -/
abbrev NP_FEC_UNCORR : Nat := 0x00A0AC
/-- NP_STALE_SENT. -/
abbrev NP_STALE_SENT : Nat := 0x00A0B0
/-- MO_COUNT. -/
abbrev MO_COUNT : Nat := 0x00C040
/-- MO_BERTHS_FREE. -/
abbrev MO_BERTHS_FREE : Nat := 0x00C044
/-- MO_IDLE_TMO. -/
abbrev MO_IDLE_TMO : Nat := 0x00C048
/-- MO_RECV_WINDOW. -/
abbrev MO_RECV_WINDOW : Nat := 0x00C04C
/-- MO_HS_TMO. -/
abbrev MO_HS_TMO : Nat := 0x00C050
/-- MO_CERT_GEN_MIN. -/
abbrev MO_CERT_GEN_MIN : Nat := 0x00C054
/-- MO_KILL. -/
abbrev MO_KILL : Nat := 0x00C064
/-- MO_ROOT_SLOTS. -/
abbrev MO_ROOT_SLOTS : Nat := 0x00C068
/-- MO_DRIVE_CERT_STATUS. -/
abbrev MO_DRIVE_CERT_STATUS : Nat := 0x00C06C
/-- MO_DRIVE_CERT_IDX. -/
abbrev MO_DRIVE_CERT_IDX : Nat := 0x00C070
/-- MO_DRIVE_CERT_DATA. -/
abbrev MO_DRIVE_CERT_DATA : Nat := 0x00C074
/-- MO_LOST_COUNT. -/
abbrev MO_LOST_COUNT : Nat := 0x00C078
/-- MO_RETX_COUNT. -/
abbrev MO_RETX_COUNT : Nat := 0x00C07C
/-- MR_STATE. -/
abbrev MR_STATE : Nat := 0x300000
/-- MR_PAYLOAD. -/
abbrev MR_PAYLOAD : Nat := 0x300004
/-- MR_SUBJECT_LO. -/
abbrev MR_SUBJECT_LO : Nat := 0x300008
/-- MR_SUBJECT_HI. -/
abbrev MR_SUBJECT_HI : Nat := 0x30000C
/-- MR_CERT_GEN. -/
abbrev MR_CERT_GEN : Nat := 0x300010
/-- MR_SLOTS. -/
abbrev MR_SLOTS : Nat := 0x300014
/-- MR_SEND_SEQ. -/
abbrev MR_SEND_SEQ : Nat := 0x300018
/-- MR_RECV_ACK. -/
abbrev MR_RECV_ACK : Nat := 0x30001C
/-- MR_BERTH. -/
abbrev MR_BERTH : Nat := 0x300020
/-- BT_STATE. -/
abbrev BT_STATE : Nat := 0x100000
/-- BT_SQ_HEAD. -/
abbrev BT_SQ_HEAD : Nat := 0x100004
/-- BT_SQ_TAIL. -/
abbrev BT_SQ_TAIL : Nat := 0x100008
/-- BT_CQ_HEAD. -/
abbrev BT_CQ_HEAD : Nat := 0x10000C
/-- BT_CQ_TAIL. -/
abbrev BT_CQ_TAIL : Nat := 0x100010
/-- BT_TAGS. -/
abbrev BT_TAGS : Nat := 0x100014
/-- BT_LAST_CSN_LO. -/
abbrev BT_LAST_CSN_LO : Nat := 0x100018
/-- BT_LAST_CSN_HI. -/
abbrev BT_LAST_CSN_HI : Nat := 0x10001C
/-- BT_POSTED. -/
abbrev BT_POSTED : Nat := 0x100020
/-- BT_DEFERRED. -/
abbrev BT_DEFERRED : Nat := 0x100024
/-- BT_DEFERRED_MASK_LO. -/
abbrev BT_DEFERRED_MASK_LO : Nat := 0x100028
/-- BT_DEFERRED_MASK_HI. -/
abbrev BT_DEFERRED_MASK_HI : Nat := 0x10002C
/-- BT_SEALS. -/
abbrev BT_SEALS : Nat := 0x100030
/-- BT_IDLE. -/
abbrev BT_IDLE : Nat := 0x100034
/-- BT_REFUSED. -/
abbrev BT_REFUSED : Nat := 0x100038
/-- BT_COMPLETED. -/
abbrev BT_COMPLETED : Nat := 0x10003C
/-- QY_STATE. -/
abbrev QY_STATE : Nat := 0x200000
/-- QY_MAX_VALUE. -/
abbrev QY_MAX_VALUE : Nat := 0x200004
/-- QY_QUOTA_GUAR. -/
abbrev QY_QUOTA_GUAR : Nat := 0x200008
/-- QY_QUOTA_LIMIT. -/
abbrev QY_QUOTA_LIMIT : Nat := 0x20000C
/-- QY_USED_LO. -/
abbrev QY_USED_LO : Nat := 0x200010
/-- QY_USED_HI. -/
abbrev QY_USED_HI : Nat := 0x200014
/-- QY_KEYS_LO. -/
abbrev QY_KEYS_LO : Nat := 0x200018
/-- QY_KEYS_HI. -/
abbrev QY_KEYS_HI : Nat := 0x20001C
/-- QY_SLOT. -/
abbrev QY_SLOT : Nat := 0x200020
/-- QY_RULES. -/
abbrev QY_RULES : Nat := 0x200024
/-- QY_PREFIX_LENS. -/
abbrev QY_PREFIX_LENS : Nat := 0x200028
/-- QY_RESERVED. -/
abbrev QY_RESERVED : Nat := 0x20002C
/-- QY_CREATE_CSN_LO. -/
abbrev QY_CREATE_CSN_LO : Nat := 0x200030
/-- QY_CREATE_CSN_HI. -/
abbrev QY_CREATE_CSN_HI : Nat := 0x200034
/-- QY_REFUSED. -/
abbrev QY_REFUSED : Nat := 0x200038
/-- QY_LOST. -/
abbrev QY_LOST : Nat := 0x20003C
/-- CM_BANK_MAP. -/
abbrev CM_BANK_MAP : Nat := 0x007040
/-- CM_HOT_PART. -/
abbrev CM_HOT_PART : Nat := 0x007060
/-- CM_PAIR. -/
abbrev CM_PAIR : Nat := 0x007080
/-- CM_STATUS. -/
abbrev CM_STATUS : Nat := 0x007098
/-- CM_TEST. -/
abbrev CM_TEST : Nat := 0x00709C
/-- CM_HOT_COLL. -/
abbrev CM_HOT_COLL : Nat := 0x0070A0
/-- CM_HOT_SOFT. -/
abbrev CM_HOT_SOFT : Nat := 0x0070A4
/-- CM_RULE_COLL. -/
abbrev CM_RULE_COLL : Nat := 0x0070A8
/-- CM_RULE_SOFT. -/
abbrev CM_RULE_SOFT : Nat := 0x0070AC
/-- CM_PAIR_DISAGREE. -/
abbrev CM_PAIR_DISAGREE : Nat := 0x0070B0
/-- CM_INFLIGHT_SOFT. -/
abbrev CM_INFLIGHT_SOFT : Nat := 0x0070B4
/-- CM_OCC_HOT. -/
abbrev CM_OCC_HOT : Nat := 0x0070B8
/-- CM_OCC_INFLIGHT. -/
abbrev CM_OCC_INFLIGHT : Nat := 0x0070BC
/-- CM_OCC_RULE. -/
abbrev CM_OCC_RULE : Nat := 0x0070C0
/-- CM_POWER. -/
abbrev CM_POWER : Nat := 0x0070C4
/-- CM_SEARCH_RATE. -/
abbrev CM_SEARCH_RATE : Nat := 0x0070C8
/-- CM_MC_HIT. -/
abbrev CM_MC_HIT : Nat := 0x0070CC
/-- CM_MC_DIRTY. -/
abbrev CM_MC_DIRTY : Nat := 0x0070D0
/-- CM_MC_DIRTY_MAX. -/
abbrev CM_MC_DIRTY_MAX : Nat := 0x0070D4
/-- CM_MC_AGE_MAX. -/
abbrev CM_MC_AGE_MAX : Nat := 0x0070D8
/-- CM_HORIZON_LO. -/
abbrev CM_HORIZON_LO : Nat := 0x0070DC
/-- CM_HORIZON_HI. -/
abbrev CM_HORIZON_HI : Nat := 0x0070E0
/-- CM_OVF_LEAVES. -/
abbrev CM_OVF_LEAVES : Nat := 0x0070E4
/-- CM_HOT_POLICY. -/
abbrev CM_HOT_POLICY : Nat := 0x0070E8
/-- FC_STATUS. -/
abbrev FC_STATUS : Nat := 0x010040
/-- FC_DIE_STATE. -/
abbrev FC_DIE_STATE : Nat := 0x010044
/-- FC_READS. -/
abbrev FC_READS : Nat := 0x010084
/-- FC_PROGRAMS. -/
abbrev FC_PROGRAMS : Nat := 0x010088
/-- FC_ERASES. -/
abbrev FC_ERASES : Nat := 0x01008C
/-- FC_DECODE_RETRY. -/
abbrev FC_DECODE_RETRY : Nat := 0x010090
/-- FC_DECODE_SOFT. -/
abbrev FC_DECODE_SOFT : Nat := 0x010094
/-- FC_RECON. -/
abbrev FC_RECON : Nat := 0x010098
/-- FC_UNCORR. -/
abbrev FC_UNCORR : Nat := 0x01009C
/-- FC_SUSPEND_CTRL. -/
abbrev FC_SUSPEND_CTRL : Nat := 0x0100A0
/-- FC_CAL_CTRL. -/
abbrev FC_CAL_CTRL : Nat := 0x0100A4
/-- FC_CAL_STATUS. -/
abbrev FC_CAL_STATUS : Nat := 0x0100A8
/-- FC_OFFSET_SEL. -/
abbrev FC_OFFSET_SEL : Nat := 0x0100AC
/-- FC_OFFSET_LO. -/
abbrev FC_OFFSET_LO : Nat := 0x0100B0
/-- FC_OFFSET_HI. -/
abbrev FC_OFFSET_HI : Nat := 0x0100B4
/-- FC_DIAG_TARGET. -/
abbrev FC_DIAG_TARGET : Nat := 0x0100B8
/-- FC_DIAG_CTRL. -/
abbrev FC_DIAG_CTRL : Nat := 0x0100BC
/-- FC_DIAG_MARGIN. -/
abbrev FC_DIAG_MARGIN : Nat := 0x0100C0
/-- FC_DIAG_STATUS. -/
abbrev FC_DIAG_STATUS : Nat := 0x0100C4
/-- FC_DIAG_WIN_SEL. -/
abbrev FC_DIAG_WIN_SEL : Nat := 0x0100C8
/-- FC_DIAG_FLIPS. -/
abbrev FC_DIAG_FLIPS : Nat := 0x0100CC
/-- FC_DIAG_WIN. -/
abbrev FC_DIAG_WIN : Nat := 0x010800
/-- CA_CTRL. -/
abbrev CA_CTRL : Nat := 0x009040
/-- CA_TRIGGER. -/
abbrev CA_TRIGGER : Nat := 0x009044
/-- CA_ANNEAL. -/
abbrev CA_ANNEAL : Nat := 0x009048
/-- CA_THERM. -/
abbrev CA_THERM : Nat := 0x00904C
/-- CA_STATUS. -/
abbrev CA_STATUS : Nat := 0x009050
/-- CA_LIFE. -/
abbrev CA_LIFE : Nat := 0x009054
/-- CA_BALLAST_INIT. -/
abbrev CA_BALLAST_INIT : Nat := 0x009058
/-- CA_BALLAST_REM. -/
abbrev CA_BALLAST_REM : Nat := 0x00905C
/-- CA_WORST_RESIDUE. -/
abbrev CA_WORST_RESIDUE : Nat := 0x009060
/-- CA_WORST_BLOCK. -/
abbrev CA_WORST_BLOCK : Nat := 0x009064
/-- CA_HEALTH. -/
abbrev CA_HEALTH : Nat := 0x009068
/-- CA_WORST_HEATER. -/
abbrev CA_WORST_HEATER : Nat := 0x00906C
/-- CA_HEATER_LIMIT. -/
abbrev CA_HEATER_LIMIT : Nat := 0x009070
/-- CA_CAREENS_LO. -/
abbrev CA_CAREENS_LO : Nat := 0x009074
/-- CA_CAREENS_HI. -/
abbrev CA_CAREENS_HI : Nat := 0x009078
/-- CA_ABORTS. -/
abbrev CA_ABORTS : Nat := 0x00907C
/-- CA_MAX_CAREENS. -/
abbrev CA_MAX_CAREENS : Nat := 0x009080
/-- CA_RD_CTRL. -/
abbrev CA_RD_CTRL : Nat := 0x009084
/-- CA_REFRESH. -/
abbrev CA_REFRESH : Nat := 0x009088
/-- CA_PATROL. -/
abbrev CA_PATROL : Nat := 0x009098
/-- CA_SURVEY. -/
abbrev CA_SURVEY : Nat := 0x00909C
/-- CA_SURVEY_FAIL. -/
abbrev CA_SURVEY_FAIL : Nat := 0x0090A0
/-- CA_DOCK_SEL. -/
abbrev CA_DOCK_SEL : Nat := 0x0090A4
/-- CA_DOCK_STATE. -/
abbrev CA_DOCK_STATE : Nat := 0x0090A8
/-- CA_PLANE_SEL. -/
abbrev CA_PLANE_SEL : Nat := 0x0090AC
/-- CA_PLANE_INFO0. -/
abbrev CA_PLANE_INFO0 : Nat := 0x0090B0
/-- CA_PLANE_INFO1. -/
abbrev CA_PLANE_INFO1 : Nat := 0x0090B4
/-- CA_PLANE_INFO2. -/
abbrev CA_PLANE_INFO2 : Nat := 0x0090B8
/-- CA_PLANE_INFO3. -/
abbrev CA_PLANE_INFO3 : Nat := 0x0090BC
/-- DR_STATE. -/
abbrev DR_STATE : Nat := 0x008040
/-- DR_FILL. -/
abbrev DR_FILL : Nat := 0x008044
/-- DR_USED_LO. -/
abbrev DR_USED_LO : Nat := 0x008048
/-- DR_USED_HI. -/
abbrev DR_USED_HI : Nat := 0x00804C
/-- DR_KEYS_LO. -/
abbrev DR_KEYS_LO : Nat := 0x008050
/-- DR_KEYS_HI. -/
abbrev DR_KEYS_HI : Nat := 0x008054
/-- DR_FREE. -/
abbrev DR_FREE : Nat := 0x008058
/-- DR_RESERVE. -/
abbrev DR_RESERVE : Nat := 0x00805C
/-- DR_SPACE_THR. -/
abbrev DR_SPACE_THR : Nat := 0x008060
/-- DR_FREE_THR. -/
abbrev DR_FREE_THR : Nat := 0x008064
/-- DR_DREDGE. -/
abbrev DR_DREDGE : Nat := 0x008068
/-- DR_PACE. -/
abbrev DR_PACE : Nat := 0x00806C
/-- DR_LANDING. -/
abbrev DR_LANDING : Nat := 0x008070
/-- DR_VICTIM. -/
abbrev DR_VICTIM : Nat := 0x008074
/-- DR_RETIRED. -/
abbrev DR_RETIRED : Nat := 0x008078
/-- DR_LOST. -/
abbrev DR_LOST : Nat := 0x00807C
/-- DR_DURABLE_LO. -/
abbrev DR_DURABLE_LO : Nat := 0x008080
/-- DR_DURABLE_HI. -/
abbrev DR_DURABLE_HI : Nat := 0x008084
/-- DR_CKPT_SEQ_LO. -/
abbrev DR_CKPT_SEQ_LO : Nat := 0x008088
/-- DR_CKPT_SEQ_HI. -/
abbrev DR_CKPT_SEQ_HI : Nat := 0x00808C
/-- DR_CKPT. -/
abbrev DR_CKPT : Nat := 0x008090
/-- DR_MOUNT. -/
abbrev DR_MOUNT : Nat := 0x008094
/-- DR_REPLAYED. -/
abbrev DR_REPLAYED : Nat := 0x008098
/-- DR_DISCARDED. -/
abbrev DR_DISCARDED : Nat := 0x00809C
/-- DR_WAF. -/
abbrev DR_WAF : Nat := 0x0080A0
/-- DR_SWEEP. -/
abbrev DR_SWEEP : Nat := 0x0080A4
/-- HM_TIDE_CEIL. -/
abbrev HM_TIDE_CEIL : Nat := 0x001040
/-- HM_TIDE_P1. -/
abbrev HM_TIDE_P1 : Nat := 0x001044
/-- HM_TIDE_NOW. -/
abbrev HM_TIDE_NOW : Nat := 0x001048
/-- HM_BURST. -/
abbrev HM_BURST : Nat := 0x00104C
/-- HM_STEP. -/
abbrev HM_STEP : Nat := 0x001050
/-- HM_EMERG. -/
abbrev HM_EMERG : Nat := 0x001054
/-- HM_SUPPLY. -/
abbrev HM_SUPPLY : Nat := 0x001058
/-- HM_VIN. -/
abbrev HM_VIN : Nat := 0x00105C
/-- HM_IIN. -/
abbrev HM_IIN : Nat := 0x001060
/-- HM_PIN. -/
abbrev HM_PIN : Nat := 0x001064
/-- HM_ENERGY. -/
abbrev HM_ENERGY : Nat := 0x001068
/-- HM_RAIL_CTRL. -/
abbrev HM_RAIL_CTRL : Nat := 0x00106C
/-- HM_RAIL. -/
abbrev HM_RAIL : Nat := 0x001070
/-- HM_FSI. -/
abbrev HM_FSI : Nat := 0x001074
/-- HM_FSI_RING. -/
abbrev HM_FSI_RING : Nat := 0x001078
/-- HM_THERM_SEL. -/
abbrev HM_THERM_SEL : Nat := 0x00107C
/-- HM_THERM. -/
abbrev HM_THERM : Nat := 0x001080
/-- HM_THERM_MARGIN. -/
abbrev HM_THERM_MARGIN : Nat := 0x001084
/-- HM_AIR. -/
abbrev HM_AIR : Nat := 0x001088
/-- HM_CLASS_SEL. -/
abbrev HM_CLASS_SEL : Nat := 0x00108C
/-- HM_CLASS. -/
abbrev HM_CLASS : Nat := 0x001090
/-- HM_CLASS_STAT. -/
abbrev HM_CLASS_STAT : Nat := 0x001094
/-- HM_COST_SEL. -/
abbrev HM_COST_SEL : Nat := 0x001098
/-- HM_COST. -/
abbrev HM_COST : Nat := 0x00109C
/-- HM_PSTATE. -/
abbrev HM_PSTATE : Nat := 0x0010A0
/-- HM_IDLE_T. -/
abbrev HM_IDLE_T : Nat := 0x0010A4
/-- HM_DOCK. -/
abbrev HM_DOCK : Nat := 0x0010B4
/-- HM_SESSION_US_LO. -/
abbrev HM_SESSION_US_LO : Nat := 0x0010B8
/-- HM_SESSION_US_HI. -/
abbrev HM_SESSION_US_HI : Nat := 0x0010BC
/-- HM_POWERED_S_LO. -/
abbrev HM_POWERED_S_LO : Nat := 0x0010C0
/-- HM_POWERED_S_HI. -/
abbrev HM_POWERED_S_HI : Nat := 0x0010C4
/-- HM_COUNTS. -/
abbrev HM_COUNTS : Nat := 0x0010C8
/-- EN_ROLE. -/
abbrev EN_ROLE : Nat := 0x050040
/-- EN_STATE. -/
abbrev EN_STATE : Nat := 0x050044
/-- EN_LOAD. -/
abbrev EN_LOAD : Nat := 0x050048
/-- EN_BUSY. -/
abbrev EN_BUSY : Nat := 0x05004C
/-- EN_ENERGY. -/
abbrev EN_ENERGY : Nat := 0x050050
/-- EN_WDOG. -/
abbrev EN_WDOG : Nat := 0x050054
/-- EN_PATH_CORR. -/
abbrev EN_PATH_CORR : Nat := 0x050058
/-- EN_PATH_UNCORR. -/
abbrev EN_PATH_UNCORR : Nat := 0x05005C
/-- EN_REISSUED. -/
abbrev EN_REISSUED : Nat := 0x050060
/-- EN_TEST. -/
abbrev EN_TEST : Nat := 0x050064
/-- CP_STATUS. -/
abbrev CP_STATUS : Nat := 0x006040
/-- CP_SLOTS. -/
abbrev CP_SLOTS : Nat := 0x006044
/-- CP_SLOT_SEL. -/
abbrev CP_SLOT_SEL : Nat := 0x006048
/-- CP_SLOT_INFO. -/
abbrev CP_SLOT_INFO : Nat := 0x00604C
/-- CP_SLOT_DOMAIN. -/
abbrev CP_SLOT_DOMAIN : Nat := 0x006050
/-- CP_SLOT_CTR_LO. -/
abbrev CP_SLOT_CTR_LO : Nat := 0x006054
/-- CP_SLOT_CTR_HI. -/
abbrev CP_SLOT_CTR_HI : Nat := 0x006058
/-- CP_SLOT_REFS. -/
abbrev CP_SLOT_REFS : Nat := 0x00605C
/-- CP_KEY_OP. -/
abbrev CP_KEY_OP : Nat := 0x006060
/-- CP_KEY_SLOT. -/
abbrev CP_KEY_SLOT : Nat := 0x006064
/-- CP_KEY_DOMAIN. -/
abbrev CP_KEY_DOMAIN : Nat := 0x006068
/-- CP_KEY_DATA. -/
abbrev CP_KEY_DATA : Nat := 0x00606C
/-- CP_LINEAGE. -/
abbrev CP_LINEAGE : Nat := 0x00608C
/-- CP_ALARM. -/
abbrev CP_ALARM : Nat := 0x006090
/-- CP_ZEROISE. -/
abbrev CP_ZEROISE : Nat := 0x006094
/-- CP_PIPE_SEL. -/
abbrev CP_PIPE_SEL : Nat := 0x006098
/-- CP_PIPE_STAT. -/
abbrev CP_PIPE_STAT : Nat := 0x00609C
/-- CP_PIPE_BLOCKS. -/
abbrev CP_PIPE_BLOCKS : Nat := 0x0060A0
/-- CP_PIPE_FAULTS. -/
abbrev CP_PIPE_FAULTS : Nat := 0x0060A4
/-- CP_PIPE_SUSPENDS. -/
abbrev CP_PIPE_SUSPENDS : Nat := 0x0060A8
/-- CP_TAG_FAIL. -/
abbrev CP_TAG_FAIL : Nat := 0x0060AC
/-- CP_KEY_REFUSED. -/
abbrev CP_KEY_REFUSED : Nat := 0x0060B0
/-- CP_ENTROPY. -/
abbrev CP_ENTROPY : Nat := 0x0060B4
/-- CP_REKEY. -/
abbrev CP_REKEY : Nat := 0x0060B8
/-- LB_STATUS. -/
abbrev LB_STATUS : Nat := 0x003040
/-- LB_CONTROL. -/
abbrev LB_CONTROL : Nat := 0x003044
/-- LB_FREEZE. -/
abbrev LB_FREEZE : Nat := 0x003048
/-- LB_FROZEN_SEQ_LO. -/
abbrev LB_FROZEN_SEQ_LO : Nat := 0x00304C
/-- LB_FROZEN_SEQ_HI. -/
abbrev LB_FROZEN_SEQ_HI : Nat := 0x003050
/-- LB_FIRST_SEQ_LO. -/
abbrev LB_FIRST_SEQ_LO : Nat := 0x003054
/-- LB_FIRST_SEQ_HI. -/
abbrev LB_FIRST_SEQ_HI : Nat := 0x003058
/-- LB_LAST_SEQ_LO. -/
abbrev LB_LAST_SEQ_LO : Nat := 0x00305C
/-- LB_LAST_SEQ_HI. -/
abbrev LB_LAST_SEQ_HI : Nat := 0x003060
/-- LB_LEDGER_FIRST_LO. -/
abbrev LB_LEDGER_FIRST_LO : Nat := 0x003064
/-- LB_LEDGER_FIRST_HI. -/
abbrev LB_LEDGER_FIRST_HI : Nat := 0x003068
/-- LB_LEDGER_LAST_LO. -/
abbrev LB_LEDGER_LAST_LO : Nat := 0x00306C
/-- LB_LEDGER_LAST_HI. -/
abbrev LB_LEDGER_LAST_HI : Nat := 0x003070
/-- LB_STAGING. -/
abbrev LB_STAGING : Nat := 0x003074
/-- LB_FLUSH. -/
abbrev LB_FLUSH : Nat := 0x003078
/-- LB_HOLDING. -/
abbrev LB_HOLDING : Nat := 0x00307C
/-- LB_COALESCED. -/
abbrev LB_COALESCED : Nat := 0x003080
/-- LB_DROPPED. -/
abbrev LB_DROPPED : Nat := 0x003084
/-- LB_CLEAR_NONCE. -/
abbrev LB_CLEAR_NONCE : Nat := 0x003088
/-- LB_NONCE_SEQ_LO. -/
abbrev LB_NONCE_SEQ_LO : Nat := 0x003098
/-- LB_NONCE_SEQ_HI. -/
abbrev LB_NONCE_SEQ_HI : Nat := 0x00309C
/-- LB_FAULT_SEL. -/
abbrev LB_FAULT_SEL : Nat := 0x0030A0
/-- LB_FAULT_CFG. -/
abbrev LB_FAULT_CFG : Nat := 0x0030A4
/-- LB_FAULT_STAT. -/
abbrev LB_FAULT_STAT : Nat := 0x0030A8
/-- LB_WIN_SEQ_LO. -/
abbrev LB_WIN_SEQ_LO : Nat := 0x0030AC
/-- LB_WIN_SEQ_HI. -/
abbrev LB_WIN_SEQ_HI : Nat := 0x0030B0
/-- LB_WIN_SHOWN_LO. -/
abbrev LB_WIN_SHOWN_LO : Nat := 0x0030B4
/-- LB_WIN_SHOWN_HI. -/
abbrev LB_WIN_SHOWN_HI : Nat := 0x0030B8
/-- LB_WIN_INFO. -/
abbrev LB_WIN_INFO : Nat := 0x0030BC
/-- LB_SB_NEWEST. -/
abbrev LB_SB_NEWEST : Nat := 0x0030C0
/-- LB_SB_OLDER. -/
abbrev LB_SB_OLDER : Nat := 0x0030C4
/-- LB_FAULT_N. -/
abbrev LB_FAULT_N : Nat := 0x0030E0
/-- LB_WIN. -/
abbrev LB_WIN : Nat := 0x003200
/-- LB_BOOT_NUMBER. -/
abbrev LB_BOOT_NUMBER : Nat := 0x0030C8
/-- LB_BOOT_SEQ_LO. -/
abbrev LB_BOOT_SEQ_LO : Nat := 0x0030CC
/-- LB_BOOT_SEQ_HI. -/
abbrev LB_BOOT_SEQ_HI : Nat := 0x0030D0
/-- LB_BOOT_RESULT. -/
abbrev LB_BOOT_RESULT : Nat := 0x0030D4
/-- LB_QUOTE_STATUS. -/
abbrev LB_QUOTE_STATUS : Nat := 0x0030D8
/-- LB_UNLOCK. -/
abbrev LB_UNLOCK : Nat := 0x0030DC
/-- LB_QUOTE. -/
abbrev LB_QUOTE : Nat := 0x003100
/-- UP_STATUS. -/
abbrev UP_STATUS : Nat := 0x004040
/-- UP_STAGED_BYTES. -/
abbrev UP_STAGED_BYTES : Nat := 0x004044
/-- UP_TOTAL_BYTES. -/
abbrev UP_TOTAL_BYTES : Nat := 0x004048
/-- UP_IDLE_MS. -/
abbrev UP_IDLE_MS : Nat := 0x00404C
/-- UP_SET_DIGEST. -/
abbrev UP_SET_DIGEST : Nat := 0x004050
/-- UP_COHORT. -/
abbrev UP_COHORT : Nat := 0x004080
/-- UP_DEADLINE_S. -/
abbrev UP_DEADLINE_S : Nat := 0x004084
/-- UP_SWITCH. -/
abbrev UP_SWITCH : Nat := 0x004088
/-- UP_BUDGET. -/
abbrev UP_BUDGET : Nat := 0x00408C
/-- UP_LAST. -/
abbrev UP_LAST : Nat := 0x004090
/-- UP_PAUSE_US. -/
abbrev UP_PAUSE_US : Nat := 0x004094
/-- UP_ACTIVATIONS. -/
abbrev UP_ACTIVATIONS : Nat := 0x004098
/-- UP_BANK. -/
abbrev UP_BANK : Nat := 0x00409C
/-- UP_SEC_VERSION. -/
abbrev UP_SEC_VERSION : Nat := 0x0040A0
/-- UP_TRIG_IGNORED. -/
abbrev UP_TRIG_IGNORED : Nat := 0x0040A4
/-- HB_ID. -/
abbrev HB_ID : Nat := 0x00D040
/-- HB_ENCL. -/
abbrev HB_ENCL : Nat := 0x00D044
/-- HB_MGMT. -/
abbrev HB_MGMT : Nat := 0x00D048
/-- HB_PORTS. -/
abbrev HB_PORTS : Nat := 0x00D04C
/-- HB_CTRL. -/
abbrev HB_CTRL : Nat := 0x00D050
/-- HB_STATUS. -/
abbrev HB_STATUS : Nat := 0x00D054
/-- HB_TOWLINES. -/
abbrev HB_TOWLINES : Nat := 0x00D058
/-- HB_TOW_IDLE. -/
abbrev HB_TOW_IDLE : Nat := 0x00D05C
/-- HB_MEMBER_SEL. -/
abbrev HB_MEMBER_SEL : Nat := 0x00D060
/-- HB_MEMBER_STATE. -/
abbrev HB_MEMBER_STATE : Nat := 0x00D064
/-- HB_MEMBER_SERIAL_LO. -/
abbrev HB_MEMBER_SERIAL_LO : Nat := 0x00D068
/-- HB_MEMBER_SERIAL_HI. -/
abbrev HB_MEMBER_SERIAL_HI : Nat := 0x00D06C
/-- HB_MEMBER_FW. -/
abbrev HB_MEMBER_FW : Nat := 0x00D070
/-- HB_MEMBER_ADDR. -/
abbrev HB_MEMBER_ADDR : Nat := 0x00D074
/-- HB_BEACON_RX. -/
abbrev HB_BEACON_RX : Nat := 0x00D084
/-- HB_BEACON_BAD. -/
abbrev HB_BEACON_BAD : Nat := 0x00D088
/-- HB_TRIG_BAD. -/
abbrev HB_TRIG_BAD : Nat := 0x00D08C
/-- HB_TOW_LAST. -/
abbrev HB_TOW_LAST : Nat := 0x00D090
/-- HB_HCERT_STATUS. -/
abbrev HB_HCERT_STATUS : Nat := 0x00D094
/-- HB_HCERT_IDX. -/
abbrev HB_HCERT_IDX : Nat := 0x00D098
/-- HB_HCERT_DATA. -/
abbrev HB_HCERT_DATA : Nat := 0x00D09C

end A

end Sys2Proof.Machine
end

