-- ==== Sys2Proof/Config.lean ====
section
/-! DEFINITION. What an implementation fixes and what the spec leaves open: opaque constants with no body, so that no
statement can rest on their values. -/

namespace Sys2Proof.Config

/-- Byte `i` of KMAC128(K, X, L, S) of NIST SP 800-185 (R184, R211): a key, the bytes, the output length in bits and the customization
string. -/
opaque kmac128 (key data : List Byte) (bits : Nat) (custom : List Byte) (i : Nat) : Byte

/-- SHA-384 of bytes, as a number. -/
opaque sha384 (bytes : List Byte) : Nat

/-- Bytes of a draw of the key DRBG (R338): a nonce, an ephemeral key, DRIVE_RANDOM. -/
opaque drawn (draw : Nat) (byte : Nat) : Byte

/-- The order n of the curve P-384 (R389). PRESUMED (log entry 201): the spec names the curve, and NIST SP 800-186 gives its order. -/
def curveOrder : Nat := 0xFFFFFFFFFFFFFFFFFFFFFFFFFFFFFFFFFFFFFFFFFFFFFFFFC7634D81F4372DDF581A0DB248B0A77AECEC196ACCC52973

/-- Byte `i` of the uncompressed P-384 public key of a private key. -/
opaque p384Public (d : Nat) (i : Nat) : Byte

/-- Byte `i` of an ECDSA P-384 signature, r then s, of a digest by a private key. -/
opaque ecdsa (d digest : Nat) (i : Nat) : Byte

/-- Byte `i` of the ephemeral public key that belongs to a draw of the key DRBG (R97). -/
opaque ephemeralPublic (draw : Nat) (i : Nat) : Byte

/-- The x-coordinate Z of the point that the ephemeral key of a draw shares with a peer's public key (R98). -/
opaque sharedSecret (draw : Nat) (peer : Nat) : Nat

/-- SUBJECT_ID and DRIVE_SERIAL of the self-signed drive certificate, whose values R96 does not give. -/
opaque selfSignedId (field : Nat) : Nat

/-- AES-256-GCM (R92, R173, R347): byte `i` of the ciphertext with its 16-byte tag, for the key, the 96-bit nonce, the additional
data and the plaintext. -/
opaque gcm (key nonce aad plain : List Byte) (i : Nat) : Byte

/-- Byte `i` of NIST SP 800-38F AES-KW of key data under a 256-bit wrapping key (R352). -/
opaque aesKw (key data : List Byte) (i : Nat) : Byte

/-- Byte `i` of the LDPC parity of a codeword's 4,112 information bytes (R227). The spec names no code. -/
opaque ldpcParity (info : List Byte) (i : Nat) : Byte

/-- Byte `i` of an identity block, which holds 64 metadata bytes under a rate-1/16 code (R227). The spec names no code. -/
opaque identityCode (meta_ : List Byte) (i : Nat) : Byte

/-- Whether an ECDSA P-384 signature verifies (R94): public key, signed bytes, signature. -/
opaque sigVerifies (key signed sig : List Byte) : Bool

/-- The drive's estimate in RETRY_US (R127, R386), which follows no formula of the spec: from the free values taken so far,
the board's time, and the completions of the berths in use. -/
opaque retryUs (taken boardUs completions : Nat) : Nat

/-- The 256 mask bits that a pipeline's mask generator gives at its `n`-th request since its `seed`-th seeding (R337): a CTR_DRBG
over entropy, and so unknown. -/
opaque maskBits (pipe seed n : Nat) : BitVec 256

/-- The 16 check bits that the path code gives a word (R27). The spec names no code. -/
opaque pathCheck (w : BitVec 128) : BitVec 16

/-- The resistance of a heater at 25 °C, of what it measures and the package temperature (R261); the spec gives no law and no unit. -/
opaque heaterAt25 (measured : Nat) (package : Option Int) : Nat

/-- The factory value of the resistance of a plane's heater (R261). -/
opaque heaterR0 (plane : Nat) : Nat

/-- The image of a part in a bank as the factory programmed it (R406), and its version. -/
opaque factoryImage (bank part : Nat) : List Byte
opaque factoryVersion (bank part : Nat) : Nat

/-- The code in an EMERGENCY record for declared, or cleared (R320, R367), which the spec does not give. -/
opaque emergencyCode (declared : Bool) : Byte

/-- A free value, fresh at each use. -/
opaque freeValue (n : Nat) : Word

end Sys2Proof.Config
end

