-- ==== Sys2Proof/Machine/State.lean ====
section
/-! DEFINITION. The state of the drive as plain data: every register, ring, table, timer and pin the spec gives it,
with the queue of commands that are waiting; and State.reset, the drive unpowered and new. -/

namespace Sys2Proof.Machine

/-! ### Register pages (R42 to R60) -/

/-- A pending shadow of one block page (R58, R59). -/
structure Shadow where
  page : Nat
  owner : Nat
  /-- session time of the owner's last write to it -/
  lastWrite : Nat
  /-- the shadowed words, by register key -/
  words : Tab Word
  deriving DecidableEq, Repr

/-! ### The wire (R81 to R119) -/

/-- What has become of one link of R82. -/
inductive LinkPhase where
  | down | detect | autoneg | training | fecLock | up
  deriving DecidableEq, Repr

/-- The link of one port (R81, R82), with the rate-limit windows of R86 and R116. -/
structure LinkState where
  phase : LinkPhase
  /-- lanes in use: 0, 1, 2 or 4, and the lowest of them -/
  lanes : Nat
  firstLane : Nat
  /-- lanes of the mode being tried, and those of the mode in which the link was last up -/
  tryLanes : Nat
  lastLanes : Nat
  trainFails : Nat
  /-- modes (by lane count) not advertised until the link is next lost -/
  dropped : List Nat
  laneFailed : List Nat
  /-- held down until power-on (row 2 of R382) -/
  heldDown : Bool
  echoSecond : Nat
  echoCount : Nat
  staleSecond : Nat
  staleCount : Nat
  deriving DecidableEq, Repr

/-- The path of a mooring (R107). -/
structure Path where
  port : Port
  ethSrc : Nat
  ipSrc : Nat
  ipv6 : Bool
  /-- the drive's own address on it: the one that the frame was sent to -/
  ipDst : Nat
  /-- SEQ of the frame that set the path -/
  seq : Nat
  deriving DecidableEq, Repr

/-- An accepted frame held until the gap before it is filled (R102). -/
structure HeldFrame where
  seq : Nat
  berth : Nat
  first : Bool
  last : Bool
  close : Bool
  port : Port
  payload : List Byte
  deriving DecidableEq, Repr

/-- A sequenced frame that the drive has queued or sent (R103, R104). -/
structure TxFrame where
  /-- TYPE: DATA, or a towline's CLOSE -/
  typ : Nat
  seq : Nat
  berth : Nat
  first : Bool
  last : Bool
  payload : List Byte
  /-- the completion ring entry that this frame carries, when it is its last -/
  ticket : Option (Nat × Nat)
  sentAt : Nat
  sends : Nat
  expiries : Nat
  sacked : Bool
  deriving DecidableEq, Repr

/-- The transport state of a mooring or a towline (R101 to R107). -/
structure Transport where
  path : Path
  maxPayload : Nat
  recvWindow : Nat
  /-- first SEQ beyond the peer's ACK + WINDOW -/
  hostLimit : Nat
  ecn : Bool
  sendSeq : Nat
  recvAck : Nat
  held : List HeldFrame
  /-- accepted frames not yet acknowledged, and when the first of them arrived -/
  ackPending : Nat
  ackSince : Nat
  /-- frames cut but not yet allowed by the windows, and frames sent but not yet covered -/
  sendQueue : List TxFrame
  unacked : List TxFrame
  cwnd : Nat
  cwndAcked : Nat
  /-- SEQ that must be acknowledged before the window may be halved again -/
  recoverSeq : Nat
  srtt : Nat
  rttvar : Nat
  rtoUs : Nat
  eceOut : Bool
  cwrNext : Bool
  sendPhase : Bool
  recvPhase : Bool
  sendCtr : Nat
  framesUnderKey : Nat
  /-- the old receive epoch: when the new phase began, and its first SEQ -/
  oldEpoch : Option (Nat × Nat)
  rekeyRefusedSince : Option Nat
  /-- since when the send slot has refused the drive's own rekey -/
  sendRefusedSince : Option Nat
  lastRx : Nat
  lastTx : Nat
  deriving DecidableEq, Repr

/-- A handshake held between HELLO and MOORED (R97, R100). -/
structure Handshake where
  ipSrc : Nat
  udpPort : Nat
  random : Nat
  port : Port
  ethSrc : Nat
  ipv6 : Bool
  ipDst : Nat
  helloAt : Nat
  berths : Nat
  ecn : Bool
  maxPayload : Nat
  /-- a HELLO of a towline, with the TOW_ID it carried (R437) -/
  towline : Bool
  towId : Nat
  /-- the draw from which the drive's ephemeral key and random came -/
  draw : Nat
  /-- the HELLO's payload, and the 324 bytes of the certificate that the WELCOME presents -/
  hello : HelloBody
  cert : List Byte
  /-- NONCE_CTR of the drive's last frame under the handshake key (R92) -/
  sendCtr : Nat
  deriving DecidableEq, Repr

/-- The state a mooring record reads (R119). -/
inductive MooringState where
  | moored | closing | tearingDown
  deriving DecidableEq, Repr

/-- A mooring (R97 to R119). -/
structure Mooring where
  st : MooringState
  role : Nat
  subject : Nat
  generation : Nat
  sendSlot : Nat
  recvSlot : Nat
  berths : List Nat
  tp : Transport
  cause : Nat
  goneSent : Bool
  /-- tags discarded by the teardown, by global berth (R114, step 1) -/
  discarded : List (Nat × Nat)
  /-- commands ended after the teardown point: berth, tag, status code, CSN -/
  finals : List (Nat × Nat × Nat × Nat)
  deriving DecidableEq, Repr

/-! ### Berths (R120 to R151) -/

/-- A QUEUED capsule in the submission ring (R121, R124), with the port of its LAST frame. -/
structure SqEntry where
  port : Port
  bytes : List Byte
  deriving DecidableEq, Repr

/-- A completion capsule before it is cut into frames (R110, R160). -/
structure Completion where
  opcode : Nat
  flags : Nat
  tag : Nat
  status : Nat
  detail : Nat
  csn : Nat
  version : Nat
  /-- VALUE_LEN of the header -/
  valueLen : Nat
  verified : Nat
  result : List Byte
  value : List Byte
  /-- streamed (R160): the header carries status OK and a trailer carries STATUS, DETAIL and VERIFIED -/
  streamed : Bool
  /-- CSN of the write whose void marker must land before this is sent (R301), or 0 -/
  voidOf : Nat
  deriving DecidableEq, Repr

/-- A completion that is written but not sent before the void marker of a write has landed (R301). -/
structure Withheld where
  void : Nat
  mooring : Nat
  /-- the berth, its index in the mooring, and the ring entry -/
  berth : Nat
  index : Nat
  ticket : Nat
  bytes : List Byte
  deriving DecidableEq, Repr

/-- An outstanding tag (R123, R124). -/
structure TagRec where
  tag : Nat
  csn : Nat
  committed : Bool
  deriving DecidableEq, Repr

/-- What the berth does with a frame that begins no capsule (R102). -/
inductive RxMode where
  | clean | stray | dropping
  deriving DecidableEq, Repr

/-- A capsule in assembly on a berth (R102, R122). -/
structure Partial where
  bytes : List Byte
  /-- it holds a ring entry -/
  entry : Bool
  lastFrameAt : Nat
  deriving DecidableEq, Repr

/-- A listed deferred error (R137, R138). -/
structure Deferred where
  csn : Nat
  index : Nat
  tag : Nat
  quay : Nat
  status : Nat
  digest : Nat
  announced : Bool
  deriving DecidableEq, Repr

/-- A berth reset under way (R146). -/
structure Resetting where
  csn : Nat
  berth : Nat
  tag : Nat
  discarded : Nat
  running : Nat
  deriving DecidableEq, Repr

/-- A berth that some mooring owns (R120, R151). -/
structure Berth where
  index : Nat
  mooring : Nat
  tearing : Bool
  sq : List SqEntry
  sqTail : Nat
  /-- completion ring: the ticket of each entry, and whether its frame is covered -/
  cq : List (Nat × Bool)
  cqTail : Nat
  cqWait : List Completion
  nextTicket : Nat
  tags : List TagRec
  asm : Option Partial
  rx : RxMode
  lastCsn : Nat
  deferreds : List Deferred
  overflow : Bool
  lostCount : Nat
  /-- CSN and quay of the deferred errors left unlisted while OVERFLOW is set (R139) -/
  unlisted : List (Nat × Nat)
  reset : Option Resetting
  lastDelivered : Nat
  refused : Nat
  completed : Nat
  deriving DecidableEq, Repr

/-- An admission request at the sequencer (R35): a ring capsule, or a BERTH_RESET, which has no ring place. -/
structure Request where
  port : Port
  berth : Nat
  reset : Bool
  bytes : List Byte
  deriving DecidableEq, Repr

/-- The sequencer (R32 to R36). -/
structure Sequencer where
  next : Nat
  last : Nat
  /-- requests gathered while the previous cycle runs, in order of presentation -/
  collecting : List Request
  /-- the slot being admitted, in the order of R35 -/
  cycle : List Request
  /-- the activation barrier of R149 -/
  barrier : Bool
  /-- admission stopped by power fail, or never begun (R291) -/
  stopped : Bool
  deriving DecidableEq, Repr

/-- Whom a pending seal serves (R62, R78, R134, R149). -/
inductive SealFor where
  | capsule (berth tag : Nat)
  | modeChange
  | shutdown
  | activation
  deriving DecidableEq, Repr

/-- A seal that waits (R134, R139). -/
structure Seal where
  csn : Nat
  scope : Nat
  quay : Nat
  berth : Nat
  purpose : SealFor
  deriving DecidableEq, Repr

/-! ### Keys (R152 to R183) -/

/-- A quay (R177, R183). -/
structure Quay where
  erasing : Bool
  posted : Bool
  maxValue : Nat
  guarGib : Nat
  limitGib : Nat
  used : Nat
  keys : Nat
  slot : Nat
  reserved : Nat
  createCsn : Nat
  refused : Nat
  lost : Nat
  /-- the draw that gave its index key -/
  indexKey : Nat
  deriving DecidableEq, Repr

/-- A rule (R180). -/
structure Rule where
  id : Nat
  quay : Nat
  priority : Nat
  subject : Nat
  grants : Nat
  anySubject : Bool
  pfx : List Byte
  deriving DecidableEq, Repr

/-- What an item says of its key (R269, R273). -/
inductive ItemKind where
  | value | deletion | lost
  deriving DecidableEq, Repr

/-- What a posted write gave its key before an error lost it: what commands admitted before the error, with CSNs below
`below`, have taken (R136). -/
structure Taken where
  kind : ItemKind
  version : Nat
  value : List Byte
  below : Nat
  deriving DecidableEq, Repr

/-- A run of a record's units on one page: the page, as 4,096 × block + page, the unit of the page at which it begins, the unit of the
record that it begins with, and its units (R187, R272). -/
structure Span where
  page : Nat
  at_ : Nat
  first : Nat
  units : Nat
  deriving DecidableEq, Repr

/-- A value record, deletion record or lost marker: one item of R297. -/
structure Item where
  quay : Nat
  digest : Nat
  key : List Byte
  csn : Nat
  kind : ItemKind
  version : Nat
  value : List Byte
  /-- VALUE_LEN of a lost marker -/
  lostLen : Nat
  /-- STATUS of a lost marker -/
  lostStatus : Nat
  taken : Option Taken
  entry : Nat
  recordId : Nat
  /-- POSTED_SEQ, or 0 (R271) -/
  pseq : Nat
  /-- it is a BATCH's; it counts only with a commit marker, and whether that marker is on flash (R272) -/
  batch : Bool
  marked : Bool
  commit : Bool
  /-- the berth and tag of a posted write -/
  berth : Nat
  tag : Nat
  /-- its write has settled (R128): it takes part in results -/
  settled : Bool
  /-- its record is programmed and confirmed -/
  landed : Bool
  /-- durable (R277) and applied to the index (R195) -/
  durable : Bool
  /-- its record is encrypted (R342) -/
  encrypted : Bool
  /-- slot epoch that its segments name, and the invocation counter of the first of them (R343, R344) -/
  epoch : Nat
  ctr : Nat
  /-- stripe set of its newest copy, and where that copy lies, in the order of its units -/
  setId : Nat
  spans : List Span
  /-- pages of that copy that can be neither read nor reconstructed (R234) -/
  badPages : List Nat
  deriving DecidableEq, Repr

/-- The change that one entry of a mutation makes (R161 to R169). -/
inductive KeyChange where
  | put (value : List Byte)
  | delete
  | check
  deriving DecidableEq, Repr

/-- One entry of a mutation. -/
structure KeyOp where
  key : List Byte
  digest : Nat
  change : KeyChange
  /-- the expected version of a conditional entry -/
  expected : Option Nat
  deriving DecidableEq, Repr

/-- What an admitted command that waits or runs is to do. -/
inductive Job where
  | get (key : List Byte) (digest offset len : Nat)
  | exist (key : List Byte) (digest : Nat)
  | exportSegs (key : List Byte) (digest offset slot segs epoch kind : Nat)
  | scan (cursor maxEntries windowLog : Nat) (keys : Bool) (pfx : List Byte)
  | write (ops : List KeyOp)
  deriving DecidableEq, Repr

/-- How far an admitted write has come. -/
inductive JobStage where
  /-- waiting under R129 or R171 -/
  | waiting
  /-- result computed, records placed on landing pages -/
  | placed
  /-- every record page confirmed; its commit marker is landing -/
  | marking
  deriving DecidableEq, Repr

/-- An admitted command that has not completed. -/
structure Cmd where
  csn : Nat
  berth : Nat
  tag : Nat
  opcode : Nat
  quay : Nat
  job : Job
  stage : JobStage
  /-- reservations of R158: granules and keys -/
  granules : Nat
  keyCount : Nat
  /-- slot epoch at its CSN (R341) -/
  epoch : Nat
  /-- a page of it has begun its transfer (R145) -/
  transferred : Bool
  /-- segments whose word in value staging is uncorrectable (R28) -/
  badSegs : List Nat
  /-- segments whose stored ciphertext fails its tag (R348), and segments with a parity fault of a pipeline (R359) -/
  badTags : List Nat
  parity : List (Nat × Nat)
  /-- the first invocation of its slot that it reserved (R345) -/
  ctr : Nat
  /-- its hot-key search has been made (R208) -/
  looked : Bool
  /-- the versions its entries give, in entry order, once its result is computed -/
  versions : List Nat
  /-- an ABORT that waits for this write's void marker: berth and tag of the ABORT, and its CSN (R145) -/
  voidFor : Option (Nat × Nat × Nat)
  /-- the command engine that it is dispatched to (R21) -/
  engine : Nat
  deriving DecidableEq, Repr

/-! ### Flash, landing, dredging (R224 to R302) -/

/-- What a landing page carries a piece of. -/
inductive PieceKind where
  | record | commitMarker | voidMarker | lostMarker
  deriving DecidableEq, Repr

/-- A piece of a record, or a marker, on a landing page. -/
structure Piece where
  kind : PieceKind
  csn : Nat
  entry : Nat
  posted : Bool
  units : Nat
  /-- the unit of its record that it begins with, and its bytes (R269, R273) -/
  first : Nat
  bytes : List Byte
  /-- landings of it that have failed (R276) -/
  fails : Nat
  deriving DecidableEq, Repr

/-- A landing page (R276). -/
structure LandingPage where
  die : Nat
  setId : Nat
  row : Nat
  firstAt : Nat
  free : Nat
  /-- closed, transferred and programming -/
  closed : Bool
  pieces : List Piece
  deriving DecidableEq, Repr

/-- The pools of R275. -/
inductive Pool where
  | landing | warehouse | index
  deriving DecidableEq, Repr

/-- The metadata of a page (R228); IDENT as the number that its 16 bytes spell. -/
structure PageMeta where
  typ : Nat
  pflags : Nat
  position : Nat
  set : Nat
  csn : Nat
  ident : Nat
  eraseCount : Nat
  deriving DecidableEq, Repr

/-- A programmed page (R227): its data area, and the 64 metadata bytes as the codewords hold them and as the identity block
does. -/
structure Page where
  data : List Byte
  code : List Byte
  ident : List Byte
  deriving DecidableEq, Repr

/-- A copy or a leaf packed into a TLC set (R274, R278): the first unit of the set that it takes, its bytes, and the CSN and IDENT that it
gives a page whose unit 0 it holds (R229); of a record, IDENT is its RECORD_ID. -/
structure Packed where
  at_ : Nat
  bytes : List Byte
  csn : Nat
  ident : Nat
  deriving DecidableEq, Repr

/-- A stripe set (R230, R275). -/
structure StripeSet where
  pool : Pool
  blocks : List Nat
  isOpen : Bool
  /-- data pages opened or programmed in it, in page order (R272) -/
  rows : Nat
  /-- order in which it closed -/
  closedAt : Nat
  /-- units packed into it by copies and leaves (R274, R278), and what of them no programmed word line holds whole (R225) -/
  units : Nat
  packed : List Packed
  /-- due for refresh, with the cause index of CA_REFRESH; 16 more once the refresh has begun -/
  refreshDue : Option Nat
  sweepPending : Bool
  /-- warehousing or dredging moves its valid content; the leaf chains whose entries have moved off it and are not yet written
  back; the number of the checkpoint that must complete before it is dissolved (R279) -/
  moving : Bool
  moved : List Nat
  ckptNeeded : Nat
  /-- highest spare CSN among its programmed pages (R296) -/
  topCsn : Nat
  deriving DecidableEq, Repr

/-- What a die is doing (FC_DIE_STATE, R247). -/
structure Die where
  /-- 0 serving, 1 dry dock, 2 calibrating, 3 failed -/
  st : Nat
  op : Nat
  suspends : Nat
  plane : Nat
  block : Nat
  /-- when the erase or program last started or resumed, and when it was suspended -/
  runSince : Nat
  suspendedAt : Nat
  readsServed : Nat
  queuedReads : Nat
  /-- the second of session time that its reads were last counted in, the array reads of it that have ended in that second, and those of
  them that needed step 1 or above (R243) -/
  readSec : Nat
  reads1 : Nat
  retried1 : Nat
  /-- time and package temperature of the last calibration -/
  calAt : Nat
  calTemp : Int
  calDue : Bool
  deriving DecidableEq, Repr

/-- A flash block (R225, R239, R249, R259, R263). -/
structure Block where
  tlc : Bool
  erases : Nat
  wear : Nat
  careens : Nat
  s0 : Nat
  residue : Nat
  reads : Nat
  bad : Bool
  retired : Bool
  /-- its ERASE_DONE marker reads erased -/
  unfinished : Bool
  eraseFails : Nat
  firstCycle : Bool
  deriving DecidableEq, Repr

/-- A plane of a die (CA_PLANE_INFO, R268). -/
structure Plane where
  /-- 0 serving, 1 draining, 2 held, 3 no-careen -/
  st : Nat
  careens : Nat
  retired : Nat
  drift : Nat
  measured : Bool
  /-- retired whole (row 10 of R382) -/
  gone : Bool
  deriving DecidableEq, Repr

/-- A die's place in a careen (CA_DOCK_STATE, R255). -/
structure Dock where
  phase : Nat
  plane : Nat
  pulses : Nat
  verified : Nat
  retired : Nat
  since : Nat
  /-- heated in any way, and aborted so that it is tried again no sooner than this time -/
  heated : Bool
  aborted : Bool
  retryAt : Nat
  /-- the block of the plane from which verify goes on -/
  next : Nat
  /-- the ramp or cool under way has overrun its time, and its fault is counted -/
  overran : Bool
  deriving DecidableEq, Repr

/-- A campaign on stripe plane `stripe`, `plane` (R252). -/
structure Campaign where
  stripe : Nat
  plane : Nat
  /-- 1 draining, 2 held -/
  step : Nat
  position : Nat
  deriving DecidableEq, Repr

/-- The retention survey (R266): sampled and failing blocks of the nine classes, the classes that have escalated, and the
blocks still to be read, each with its class, 8 for the mirrored ones. -/
structure Survey where
  active : Bool
  sampled : List Nat
  failing : List Nat
  escalated : List Nat
  work : List (Nat × Nat)
  total : Nat
  /-- its reads are hard deadlines: the first 600 s of the session -/
  deadline : Bool
  deriving DecidableEq, Repr

/-- The occurrences of one instance of a fault source (R381): key 2^32 × row + instance. -/
structure FaultCount where
  times : List Nat
  total : Nat
  lasting : Bool
  deriving DecidableEq, Repr

/-- The tables that a checkpoint saves (R294). -/
structure Tables where
  /-- the leaf directory (R191) -/
  dir : Tab Nat
  /-- the block tables, read counters included (R239, R249, R263), and the planes with the state of their campaigns (R257) -/
  blocks : Tab Block
  planes : Tab Plane
  /-- fault counts of rows 9, 10 and 12 (R383) -/
  faults : Tab FaultCount
  /-- the patrol's position, how many it has read in its sweep, and when that began (R265) -/
  patrolAt : Nat
  patrolCount : Nat
  patrolStart : Nat
  /-- the next sequence number of the logbook when it began, by which its later records are told (R257) -/
  logSeq : Nat
  deriving DecidableEq, Repr

/-- A checkpoint under way (R292). -/
structure Ckpt where
  begunAt : Nat
  csn : Nat
  horizon : Nat
  durablePseq : Nat
  clean : Bool
  mount : Bool
  /-- pre-reserved sets used before it began, as 4 × stripe + pool -/
  preUsed : List Nat
  /-- the tables as they stood when it began -/
  tables : Tables
  deriving DecidableEq, Repr

/-! ### The index (R184 to R223) -/

/-- An entry of a leaf (R189). `key` is the key in the header of the record that LOCATION names. -/
structure LeafEntry where
  digest : Nat
  loc : Nat
  version : Nat
  quay : Nat
  valueLen : Nat
  lost : Bool
  key : List Byte
  deriving DecidableEq, Repr

/-- A leaf of a chain in its frame (R190, R193): its entries in use, and whether the frame is dirty. -/
structure Leaf where
  entries : List LeafEntry
  dirty : Bool
  deriving DecidableEq, Repr

/-- A leaf chain in the map cache (R193 to R198). -/
structure Chain where
  /-- the leaves by depth -/
  leaves : List Leaf
  /-- since when a frame of it has been dirty -/
  dirtySince : Option Nat
  cleanCsn : Nat
  generation : Nat
  /-- CSNs registered and not yet applied, and CSNs of commands that read it: both pin its frames -/
  pending : List Nat
  readers : List Nat
  /-- the fetch of its leaves from flash is under way, or waits for a way: it has no frame yet -/
  fetching : Bool
  /-- when its frames were last used -/
  usedAt : Nat
  deriving DecidableEq, Repr

/-- A copy of a chain on flash (R188, R196): the fields that each of its leaves carries, the set it lies in, and the location
and entries of each leaf. -/
structure LeafCopy where
  cleanCsn : Nat
  generation : Nat
  setId : Nat
  locs : List Nat
  leaves : List (List LeafEntry)
  deriving DecidableEq, Repr

/-- A hot-key entry and its line of the entry table (R207). -/
structure HotEntry where
  quay : Nat
  digest : Nat
  /-- the key's location: 0 while its record is in the posted write buffer -/
  loc : Nat
  /-- the key in the record at the entry's location -/
  key : List Byte
  csn : Nat
  ref : Bool
  deriving DecidableEq, Repr

/-- An in-flight entry (R209). -/
structure Inflight where
  offset : Nat
  quay : Nat
  digest : Nat
  csn : Nat
  posted : Bool
  deriving DecidableEq, Repr

/-- A bank pair (R206). -/
structure BankPair where
  a : Nat
  b : Nat
  /-- members that do not hold the pair's entries: a lost one without replacement, or a replacement not yet filled (R221) -/
  unfilled : List Nat
  deriving DecidableEq, Repr

/-- A member of the pair holds its entries. -/
def BankPair.holds (p : BankPair) (b : Nat) : Bool := !p.unfilled.contains b

/-- SINGLE: the pair runs on one member. -/
def BankPair.single (p : BankPair) : Bool := !(p.holds p.a && p.holds p.b)

/-- Both members are lost and not yet filled. -/
def BankPair.dead (p : BankPair) : Bool := !(p.holds p.a || p.holds p.b)

/-- A rule's entry: its offset in its pair and the engine that holds its body (R211, R213). -/
structure RuleEntry where
  offset : Nat
  rule : Nat
  engine : Nat
  deriving DecidableEq, Repr

/-- A bank test (R220). -/
structure BankTest where
  bank : Nat
  target : Nat
  deriving DecidableEq, Repr

/-! ### The harbourmaster (R303 to R334) -/

/-- A sensor (R63, R303): key 4,096 × class + number. -/
structure Sensor where
  samples : List Int
  median : Option Int
  /-- when it last yielded a plausible median, or when its sampling began -/
  lastGood : Nat
  failed : Bool
  /-- since when a failed sensor has been continuously plausible -/
  goodSince : Option Nat
  sampling : Bool
  /-- when it was last sampled (R303) -/
  sampledAt : Option Nat
  deriving DecidableEq, Repr

/-- An operation that waits for a flash die or an engine (R310, R313): its class, its estimated cost in tenths of a nanojoule,
and, for a hard deadline, when it became due (R312). -/
structure Work where
  cls : Nat
  cost : Nat
  due : Option Nat
  deriving DecidableEq, Repr

/-- What remains of a window's pool (R313), in tenths of a nanojoule: the floor of each class, and the shared remainder. -/
structure Ledger where
  floors : List Nat
  shared : Nat
  deriving DecidableEq, Repr

/-- The tide, the step-down and the emergencies (R306 to R321). -/
structure Tide where
  stepCeil : Nat
  credit : Int
  spent : Nat
  /-- granules admitted in the current window (R289) -/
  paced : Nat
  /-- when the last window ended, the budget and the pool of the current one in mJ, whether the last one spent 95 % or more
  of its budget, and the energy since power-on in mJ -/
  windowAt : Nat
  budget : Nat
  pool : Nat
  full : Bool
  energyMj : Nat
  step : Nat
  /-- the trigger of R318 holds, and when the step-down last moved -/
  trigger : Bool
  region : Option Nat
  thermal : Bool
  supply : Bool
  steppedAt : Nat
  /-- when the next step may be undone (R319) -/
  undoAt : Nat
  /-- emergencies: thermal, supply, when first declared, and whether it has persisted -/
  emThermal : Bool
  emSupply : Bool
  emSince : Nat
  emPersisted : Bool
  emClearedAt : Option Nat
  /-- regions at or above their limit, and since when -/
  hotSince : Tab Nat
  /-- regions that have tripped since they reached it -/
  hotTripped : List Nat
  tripped : Bool
  rail : Nat
  railMeasured : Nat
  /-- since when the rail has been at its maximum with the FSI above target, and whether RAIL_LIMIT has been raised -/
  atMaxSince : Option (Nat × Bool)
  fsi : Nat
  fsiRing : Nat
  fsiWorst : Nat
  /-- when the rings were last measured (R25) -/
  fsiAt : Option Nat
  /-- energy served to each class in each of the last 100 windows, and its queue (R313) -/
  served : List (List Nat)
  queued : List Nat
  /-- estimates in tenths of nJ, by 16 × region + op, where they differ from the start (R316) -/
  costs : Tab Nat
  frozenUntil : Nat
  /-- what remains of the current window's pool; none until the first window of a power-on has ended (R313) -/
  ledger : Option Ledger
  deriving DecidableEq, Repr

/-- The power states (R322 to R326). -/
structure PState where
  cur : Nat
  prev : Nat
  excursion : Option Nat
  railSaved : Nat
  /-- when the drive became idle, if it is idle -/
  idleSince : Option Nat
  deriving DecidableEq, Repr

/-- An engine (R18 to R22, R332, R334). -/
structure Engine where
  deconfigured : Bool
  testing : Bool
  /-- role when it differs from the one the base gave (R22): a replacement's new role and pilot number -/
  role : Option (Nat × Nat)
  deriving DecidableEq, Repr

/-! ### The cipher (R335 to R362) -/

/-- Key material, by where it came from: a draw of the key DRBG, an operator's words, a handshake, or a rekey of
another key. Its bits never leave the drive (R53). -/
inductive KeyMaterial where
  | drawn (draw : Nat)
  | words (ws : List Word)
  /-- the 48-byte traffic secret of a direction of a line (R98, R101); no bytes while its handshake runs -/
  | secret (s : List Byte)
  deriving DecidableEq, Repr

/-- An old epoch of a slot (R341). -/
structure SlotShadow where
  epoch : Nat
  refs : Nat
  key : KeyMaterial
  deriving DecidableEq, Repr

/-- The states of a slot that is not free (R340). -/
inductive SlotState where
  | live | sealed | erasing
  deriving DecidableEq, Repr

/-- A key slot that is not free (R339 to R345). -/
structure Slot where
  kind : Nat
  st : SlotState
  epoch : Nat
  /-- quay, EXPORT_ID, or mooring -/
  owner : Nat
  ctr : Nat
  /-- first value of the highest reserved chunk -/
  chunk : Nat
  refs : Nat
  key : KeyMaterial
  indexKey : Nat
  shadows : List SlotShadow
  deriving DecidableEq, Repr

/-- A key record in flash (R353). -/
structure KeyRecord where
  slot : Nat
  kind : Nat
  owner : Nat
  epoch : Nat
  chunk : Nat
  key : KeyMaterial
  indexKey : Nat
  shadows : List SlotShadow
  /-- its 304 bytes, with the keys wrapped -/
  bytes : List Byte
  deriving DecidableEq, Repr

/-- A message in a pipeline (R336): the CSN it serves, its priority, the blocks done and the blocks left of its data, its slot and
epoch and its invocation counter, which give its counter block, and when it was suspended, or came to the pipeline. -/
structure Msg where
  id : Nat
  prio : Nat
  done : Nat
  left : Nat
  slot : Nat
  epoch : Nat
  ctr : Nat
  suspendedAt : Nat
  deriving DecidableEq, Repr

/-- A pipeline's mask generator (R337, R338): how often it has been seeded in this power-on, and the generate requests made of it
since. -/
structure MaskGen where
  seeds : Nat
  requests : Nat
  deriving DecidableEq, Repr

/-- A cipher pipeline (R335, R361). -/
structure Pipe where
  deconfigured : Bool
  running : Option Msg
  saved : List Msg
  waiting : List Msg
  mask : MaskGen
  deriving DecidableEq, Repr

/-- The phases of an alarm (R356); `none` when no alarm is in progress. -/
inductive AlarmPhase where
  | none | settle
  deriving DecidableEq, Repr

/-! ### The logbook (R363 to R384) -/

/-- A logbook or ledger record (R365), held as its fields; its bytes and CRC are formed when it is read. -/
structure LogRec where
  seq : Nat
  typ : Nat
  source : Nat
  flags : Nat
  payload : List Byte
  ledger : Bool
  createdAt : Nat
  /-- the use of a block that holds it, once it is on flash -/
  block : Nat
  deriving DecidableEq, Repr

/-- A block that a stream occupies: the number of its use, and its place in the main or the fallback region (R363). -/
structure LogBlock where
  use : Nat
  fallback : Bool
  block : Nat
  deriving DecidableEq, Repr

/-- A stream on flash (R363, R375). -/
structure LogStream where
  /-- the readable records, in stream order -/
  recs : List LogRec
  /-- the blocks it occupies, oldest first; word lines used of the last -/
  blocks : List LogBlock
  lines : Nat
  nextBlock : Nat
  /-- first available sequence -/
  first : Nat
  wraps : Nat
  deriving DecidableEq, Repr

/-- An entry of the coalescing table (R371). -/
structure Coalesce where
  typ : Nat
  source : Nat
  count : Nat
  deriving DecidableEq, Repr

/-- A freeze (R373). -/
structure Freeze where
  owner : Nat
  since : Nat
  deriving DecidableEq, Repr

/-- A clear nonce (R377). -/
structure ClearNonce where
  draw : Nat
  seq : Nat
  issuedAt : Nat
  deriving DecidableEq, Repr

/-! ### Start-up, identity and updates (R385 to R429) -/

/-- The cells of one copy of the OTP image (R244), in the row of die 0 or of die 512. -/
structure OtpRow where
  magic : Nat
  hwType : Nat
  format : Nat
  serial : Nat
  lot : Nat
  macBase : Nat
  seed : Nat
  /-- SHA-384 and CRC-32C of each ROOT slot; all ones when empty -/
  roots : List (Nat × Nat)
  /-- programmed when 0 -/
  rollback : Nat
  lineage : Nat
  debug : Nat
  factoryCrc : Nat
  deriving DecidableEq, Repr

/-- The OTP image that the boot ROM forms of the two copies (R245), with what has been programmed since. -/
structure Otp where
  serial : Nat
  lot : Nat
  macBase : Nat
  /-- the four ROOT slots: the SHA-384 of a root key, or none when empty or treated as empty -/
  roots : List (Option Nat)
  /-- highest ROLLBACK position programmed plus one -/
  secVersion : Nat
  chosen : Bool
  lineage : Bool
  debug : Nat
  deriving DecidableEq, Repr

/-- The verdict of start-up on itself: where boot has come to (R385, R387). -/
inductive BootStage where
  /-- the controller is in reset -/
  | none
  /-- boot ROM running; stage two running; boot record durable, so mount may run; mounted -/
  | rom | stageTwo | mounting | mounted
  /-- stopped under R245, or under R387: never serves -/
  | stoppedOtp | stoppedImage
  /-- ended by a thermal trip before service opened (R321) -/
  | stoppedTrip
  deriving DecidableEq, Repr

/-- The attestation key store of the cipher block (R389): the private keys DIK and AK; zeros before the boot ROM places them and after
a mesh alarm (R357). -/
structure KeyStore where
  dik : Nat
  ak : Nat
  deriving DecidableEq, Repr

/-- Start-up and attestation (R385 to R404). -/
structure Boot where
  stage : BootStage
  /-- bits 0 to 3 of READY: SY, HM, BW, LB; the served pages; DR, CA (R49) -/
  readyCore : Bool
  readyUnits : Bool
  readySpace : Bool
  mirror : Bool
  /-- a base was installed by this power-on's update and has not been loaded yet -/
  baseNew : Bool
  /-- ROOT slots whose two copies verify and differ: treated as empty (R245) -/
  rootsOut : List Nat
  /-- engines of each role, as the base loaded at this boot assigns them (R18, R19) -/
  roleCounts : List Nat
  bootNumber : Nat
  bootSeq : Nat
  result : Nat
  bflags : Nat
  /-- the measurement registers MR0 to MR7 (R391) -/
  mr : List Nat
  stage2Digest : Nat
  keyStore : KeyStore
  applying : Bool
  /-- failures since the last successful unlock, when the last of them came, and failures since power-on -/
  unlockFails : Nat
  unlockFailAt : Nat
  unlockTotal : Nat
  quoteBusy : Bool
  quoteReady : Bool
  quoteFailed : Bool
  quoteIgnored : Nat
  quoteNonce : List Byte
  quoteBytes : List Byte
  /-- digest of the newest ledger record that chains (R395, R425) -/
  chainDigest : Nat
  mountBegan : Nat
  mountKind : Nat
  mountMs : Nat
  /-- commands admitted since this power-on's first CSN: when one was last admitted (R470) -/
  lastAdmitted : Option Nat
  deriving DecidableEq, Repr

/-- A staged manifest (R408). -/
structure Manifest where
  hwType : Nat
  revMin : Nat
  revMax : Nat
  secVersion : Nat
  cold : Bool
  atPowerOn : Bool
  raiseFloor : Bool
  release : Nat
  parts : List PartEntry
  serials : List Nat
  rootSlot : Nat
  deltaTotal : Nat
  digest : Nat
  /-- the manifest as it was staged, with its key and signature -/
  bytes : List Byte
  deriving DecidableEq, Repr

/-- The states of UP_STATUS (R429). -/
inductive UpState where
  | empty | staging | staged | armed | preparing | prepared | switching
  deriving DecidableEq, Repr

/-- The phases of a switch after the barrier is raised (R420). -/
inductive SwitchPhase where
  | none | draining | committed | reverting
  deriving DecidableEq, Repr

/-- Updates (R405 to R429). -/
structure Update where
  st : UpState
  owner : Nat
  manifest : Option Manifest
  staged : Nat
  lastAccepted : Nat
  cohort : Nat
  switchMs : Nat
  deadline : Nat
  switchAt : Nat
  barrierAt : Nat
  phase : SwitchPhase
  /-- CSN of the drive-scope seal of Drain, when it has been taken -/
  sealed : Bool
  pauseUs : Nat
  activations : Nat
  failures : Nat
  last : Word
  trigIgnored : Nat
  failedPart : Nat
  otpFailed : Bool
  trigSecond : Nat
  trigChecked : Nat
  /-- RELEASE and SET_DIGEST of the bank that a switch left -/
  prevRelease : Nat
  prevDigest : Nat
  /-- what was accepted since the activation fired and waits for its end: a test of engine `e` as `e`, a diagnostic read of channel `c`
  as `64 + c` (R331, R420) -/
  held : List Nat
  deriving DecidableEq, Repr

/-- The newest bank marker (R407) and the images it names. -/
structure Banks where
  active : Nat
  generation : Nat
  switchBoot : Nat
  release : Nat
  setDigest : Nat
  /-- the current marker block, 0 for 1,022 and 1 for 1,023, and its next free page -/
  block : Nat
  page : Nat
  deriving DecidableEq, Repr

/-- The image of a part in a bank, with its version (R396, R405). -/
structure Image where
  version : Nat
  bytes : List Byte
  deriving DecidableEq, Repr

/-! ### The harbour (R430 to R449) -/

/-- The states of a membership entry that is not ABSENT (R435). -/
inductive MemberState where
  | present | lost | conflict
  deriving DecidableEq, Repr

/-- A membership entry (R435). -/
structure Member where
  st : MemberState
  serial : Nat
  address : Nat
  mode : Nat
  space : Nat
  life : Nat
  fw : Nat
  seq : Nat
  at_ : Nat
  lostAt : Nat
  secondAt : Nat
  deriving DecidableEq, Repr

/-- How far a towline has come (R437 to R439): the two steps of its handshake at the source; open; closing, at the end that
sent CLOSE; closing, at the end that received it. -/
inductive TowlineState where
  | helloSent | authSent | open | closing | peerClosing
  deriving DecidableEq, Repr

/-- A towline (R437 to R439). -/
structure Towline where
  st : TowlineState
  source : Bool
  peer : Nat
  peerId : Nat
  sendSlot : Nat
  recvSlot : Nat
  lastUse : Nat
  tp : Transport
  /-- at its source: the HELLO sent, the draw of its ephemeral key, and the traffic secrets that the handshake has derived, of
  the sending direction first (R98) -/
  hello : HelloBody
  draw : Nat
  secrets : List Byte × List Byte
  deriving DecidableEq, Repr

/-- A TOW in progress at its source (R174, R441). -/
structure Tow where
  csn : Nat
  berth : Nat
  tag : Nat
  quay : Nat
  dest : Nat
  destQuay : Nat
  towline : Option Nat
  windowStart : Nat
  windowCsn : Nat
  /-- keys and granules of the window under way -/
  windowKeys : Nat
  windowGranules : Nat
  keys : Nat
  granules : Nat
  firstCsn : Nat
  lastCsn : Nat
  nextSeq : Nat
  /-- MSG_SEQ values sent and not yet acknowledged, and capsules of the window not yet sent -/
  outstanding : List Nat
  toSend : List (List Byte)
  /-- the sets that its window under way reads from: its read pins (R279) -/
  pinned : List Nat
  /-- RECORD_IDs of records with a segment that fails its tag (R348), or that meets a parity fault of a pipeline (R359) -/
  badRecords : List Nat
  parity : List (Nat × Nat)
  deriving DecidableEq, Repr

/-- A TOW_DATA admitted at the destination: towline and MSG_SEQ, by CSN (R443). -/
structure TowIn where
  csn : Nat
  towline : Nat
  msgSeq : Nat
  segments : Nat
  lostKeys : List (List Byte)
  deriving DecidableEq, Repr

/-- The harbour (R430 to R449). -/
structure Harbour where
  idSet : Bool
  members : Tab Member
  selfConflictAt : Option Nat
  beaconSeq : Nat
  beaconAt : Nat
  /-- the delay, in µs, drawn for the next beacon (R433) -/
  beaconDelay : Nat
  towlines : Tab Towline
  tows : List Tow
  towIns : List TowIn
  towLast : Word
  deriving DecidableEq, Repr

/-! ### The input stage and the pins (R454 to R475) -/

/-- The phases of R460 and R291. -/
inductive PowerPhase where
  | unpowered | detect | bulkCharge | rails | running | stop | park
  deriving DecidableEq, Repr

/-- The input stage and the filtered pins (R459 to R469). -/
structure Power where
  phase : PowerPhase
  /-- the controller has left reset -/
  running : Bool
  phaseSince : Nat
  inputMv : Nat
  holdUpReady : Bool
  holdUpLate : Bool
  pwrdis : Bool
  /-- the raw level of PWRDIS, and since when it has held (R65) -/
  pwrdisRaw : Bool
  pwrdisSince : Nat
  /-- power fail has been declared and the controller has not left reset since (row 1 of R471) -/
  failed : Bool
  /-- SLOT_ID: whether a reading has been accepted, it, the first accepted one, failed, and disagreeing sets -/
  strapValid : Bool
  strapFailed : Bool
  strapMisses : Nat
  slotFirst : Nat
  deriving DecidableEq, Repr

/-- The sideband target (R472 to R475). -/
structure Sideband where
  dynamicAddr : Option Nat
  protocolError : Bool
  address : Nat
  /-- the sideband's own cursor in the ledger (R376) -/
  cursor : Option Nat
  /-- session time in µs of the START of a private transfer whose STOP has not come (R66) -/
  openSince : Option Nat
  deriving DecidableEq, Repr

/-- The patterns of the front lamp (R471), by the row of its table that governs. -/
inductive Lamp where
  | off | otpFault | imageFault | holdUpFault | tripping | closed | closedTripped | updating | alert | busy | service
  deriving DecidableEq, Repr

/-- The output pins and the lamp: true where a line sinks current (ALERT_N asserted, LED lit). -/
structure Lines where
  alert : Bool
  led0 : Bool
  led1 : Bool
  lamp : Lamp
  deriving DecidableEq, Repr

/-- What a datagram carries around its payload (R84 to R88, R432): where it goes, its VLAN tag (VID and PCP), DSCP, ECT(0) or
Not-ECT, hop limit, flow label, UDP port and payload. -/
structure Envelope where
  ethDst : Nat
  ipDst : Nat
  ipv6 : Bool
  vlan : Option (Nat × Nat)
  dscp : Nat
  ect : Bool
  hops : Nat
  flow : Nat
  udpPort : Nat
  /-- NP_MAC of the port, and the drive's address that it is sent from -/
  ethSrc : Nat
  ipSrc : Nat
  /-- DF, on IPv4 -/
  df : Bool
  /-- the protocol: 17 UDP, 58 or 1 an ICMP message, 0 an ARP packet -/
  proto : Nat
  /-- the UDP payload, the ICMP message without its checksum, or the ARP packet -/
  payload : List Byte
  deriving DecidableEq, Repr

/-- What the drive sends out: frames, bus answers and the outcomes of single register writes. -/
inductive Output where
  /-- a frame on a port: its envelope, its bytes up to the frame check sequence, and what it carries -/
  | sent (env : Envelope) (bytes : List Byte) (body : Output)
  /-- a tagged frame: type, line, the port, and its header fields SEQ, ACK, SACK, FLAGS, WINDOW and NONCE_CTR -/
  | frame (typ : Nat) (line : Line) (port : Port) (berth seq ack : Nat) (sack : BitVec 32) (flags : BitVec 16)
      (window nonceCtr : Nat) (payload : List Byte)
  /-- a WELCOME: its answer's draw, whether the certificate is self-signed, it, DRIVE_SIG and NONCE_CTR -/
  | welcome (port : Port) (ipSrc udpPort random draw : Nat) (selfSigned : Bool) (cert sig : List Byte) (nonceCtr : Nat)
  | refuse (port : Port) (ipSrc udpPort random status retryUs : Nat)
  | refuseSealed (port : Port) (ipSrc udpPort random status retryUs nonceCtr : Nat)
  | moored (port : Port) (id count sendDomain : Nat) (berths : List Nat) (capability : List Byte) (nonceCtr : Nat)
  | towHandshake (typ : Nat) (port : Port) (towline peer : Nat)
  | stale (port : Port) (mooring : Nat)
  | arpReply (port : Port) (ethDst ipDst : Nat)
  | neighbourAdvert (port : Port) (ethDst ipDst : Nat)
  | echoReply (port : Port) (ethDst ipDst : Nat)
  | beacon (port : Port) (body : BeaconBody)
  /-- the completion of a single register write: the mooring, its CSN and its status -/
  | writeDone (mooring csn status : Nat)
  /-- what the sideband returned: words of a private read, or the bytes of a common command code -/
  | i3cWords (ws : List Word)
  | i3cBytes (bs : List Byte)
  | i3cAck (acknowledged : Bool)
  deriving DecidableEq, Repr

/-- What a HELLO was answered with, and its HOST_AUTH: each answer with its UDP payload, for a repeated frame (R97). -/
structure Answered where
  ipSrc : Nat
  udpPort : Nat
  random : Nat
  helloAt : Nat
  hello : Output × List Byte
  auth : Option (Output × List Byte)
  deriving DecidableEq, Repr

/-! ### Modes, configuration -/

/-- The mode of the drive (R75 to R79, R500). -/
structure ModeState where
  cur : Nat
  prev : Nat
  cause : Nat
  changing : Bool
  /-- the operator's request whose completion waits for the seal: mooring, CSN -/
  waiter : Option (Nat × Nat × Option (Nat × Nat))
  rebuild : Bool
  operatorRebuild : Bool
  /-- stripes whose hull parity rebuild has not moved all its sets -/
  hull : List Nat
  permanent : Bool
  /-- the mode left at an automatic entry to LOW_TIDE that is still in force -/
  autoLow : Option Nat
  /-- the entries of the overlay in force (R74), each with the key of the register word that it took: none where the overlay
  failed to apply -/
  active : List (Nat × Entry)
  deriving DecidableEq, Repr

/-- A base configuration's standing, and the overlays (R70 to R80). -/
structure ConfigState where
  installed : Option BaseImage
  previous : Option BaseImage
  /-- SCHEMA of the stage two that ran last, when one has (R71) -/
  fwSchema : Option Nat
  schema : Nat
  revision : Nat
  loadStatus : Nat
  source : Nat
  defaultsPending : Bool
  digest : Nat
  /-- the stored overlays of modes 0 to 5 -/
  overlays : List (List Entry)
  /-- the entries of the loaded base, applied after reset: the base values of R75 -/
  baseEntries : List Entry
  ovlFail : Word
  /-- CF_BOOT_MODE, which outlives a power-on (R79) -/
  bootMode : Word
  deriving DecidableEq, Repr

/-! ### What survives a power loss -/

/-- The newest complete checkpoint (R292 to R295). -/
structure Saved where
  seq : Nat
  csn : Nat
  horizon : Nat
  durablePseq : Nat
  clean : Bool
  lowWater : Nat
  /-- whether it, and the 63 before it, read intact -/
  usable : Bool
  tables : Tables
  deriving DecidableEq, Repr

/-- What the flash dies keep across a power loss: records, tables, the logbook, the banks and the OTP rows. -/
structure Flash where
  otp : Otp
  items : List Item
  /-- CSNs named by intact void markers (R297) -/
  voids : List Nat
  quays : Tab Quay
  rules : List Rule
  topRule : Nat
  chunk : Option Nat
  recChunk : Option Nat
  saved : Option Saved
  sets : Tab StripeSet
  /-- the programmed pages of the stripe sets, by 4,096 × block + page -/
  pages : Tab Page
  /-- the copies of leaf chains, by bucket -/
  leaves : Tab (List LeafCopy)
  blocks : Tab Block
  planes : Tab Plane
  freeBlocks : Nat
  retired : Nat
  lowWater : Nat
  keyRecords : Tab KeyRecord
  /-- the verifier record, once the drive has been unlocked (R353) -/
  verifier : Option (List Byte)
  general : LogStream
  ledger : LogStream
  /-- the programmed pages of the logbook region, by 4,096 × block + page (R364) -/
  logPages : Tab Page
  /-- retired copies of logbook blocks (R379): place in the dies D0 to D3, F0, F1, and logical or fallback block -/
  logRetired : List (Nat × Nat)
  config : ConfigState
  driveCert : Option Cert
  harbourCert : Option Cert
  banks : Banks
  /-- the images of the banks, by 8 × bank + PART_ID, that the drive has programmed; the others are the factory's -/
  images : Tab Image
  /-- the programmed pages of the marker blocks, by 4,096 × block + page (R407) -/
  markers : Tab Page
  update : Option Manifest
  /-- the delta space of the staging area, as far as it is staged (R409, R413) -/
  deltas : List Byte
  /-- at a loss of power: the owner and bytes of a set being staged, and the cohort of an arming or activation -/
  partialSet : Option (Nat × Nat)
  armedCohort : Option Nat
  /-- the OTP rows of dies 0 and 512 -/
  row0 : OtpRow
  row512 : OtpRow
  otpRoots : List (Nat × Nat)
  otpDebug : Nat
  poweredS : Nat
  /-- fault counts in accumulated windows: rows 9, 10, 12 (R383) -/
  faults : Tab FaultCount
  failedDies : List Nat
  failedHeaters : List Nat
  patrolAt : Nat
  deriving DecidableEq, Repr

/-- The logbook's volatile part (R370 to R380). -/
structure Logbook where
  nextSeq : Nat
  firstSeq : Nat
  staging : List LogRec
  highWater : Nat
  coalesce : List Coalesce
  dropped : Nat
  droppedCritical : Nat
  holding : List LogRec
  lostHeld : Nat
  lostCritical : Nat
  lostTotal : Nat
  frozen : Option Freeze
  frozenSeq : Nat
  /-- the FREEZE write that waits for its word line, and its completion -/
  freezeWait : Option (Nat × Nat × Option (Nat × Nat))
  nonce : Option ClearNonce
  nonceDraw : Option Nat
  nonceSeq : Nat
  /-- 0 normal, 1 single, 2 fallback, 3 volatile (R379) -/
  media : Nat
  unacked : Bool
  faults : Tab FaultCount
  /-- LB_CLEARs whose CLEARED record is not yet durable: berth, tag, CSN, range -/
  clearWait : List (Nat × Nat × Nat × Nat × Nat)
  deriving DecidableEq, Repr

/-- The space figures and the work of landing, dredging and checkpoints (R275 to R302). -/
structure Space where
  state : Nat
  used : Nat
  keys : Nat
  reserved : Nat
  reservedKeys : Nat
  reserveLeft : Nat
  pages : Tab LandingPage
  /-- pieces for which no page was to be had -/
  waiting : List Piece
  nextPage : Nat
  nextRecord : Nat
  nextPseq : Nat
  durableCsn : Nat
  durablePseq : Nat
  closedCount : Nat
  dredging : Bool
  victim : Nat
  /-- pre-reserved sets used since a checkpoint listed them (R293), as 4 × stripe + pool -/
  preUsed : List Nat
  ckpt : Option Ckpt
  ckptQueued : Bool
  ckptAt : Nat
  ckptSeq : Nat
  /-- bytes of records landed since the last checkpoint began -/
  landedBytes : Nat
  /-- diagnostic reads under way, by channel: FC_DIAG_TARGET, and MODE with the margin, as they stood at START (R248) -/
  diag : Tab (Word × Nat)
  /-- pages programmed in the last 60 s: when, host bytes landed, bytes programmed -/
  programmed : List (Nat × Nat × Nat)
  discarded : Nat
  replayed : Nat
  lost : Nat
  deriving DecidableEq, Repr

/-- The associative index (R193 to R223). -/
structure Index where
  banks : List Nat
  parts : List Nat
  pairs : List BankPair
  chains : Tab Chain
  /-- the leaf directory (R191): the location of the primary leaf of each bucket whose word is PRESENT -/
  dir : Tab Nat
  hot : Tab HotEntry
  hands : Tab Nat
  inflight : List Inflight
  ruleEntries : List RuleEntry
  appendAt : Tab Nat
  test : Option BankTest
  lastTested : Nat
  testedAt : Tab Nat
  scrubAt : Nat
  /-- when each associative address was last read back (R219), by powered time -/
  scrubbed : Tab Nat
  /-- associative entries whose 160 bits in the die differ from the entry table or rule body (R199, R214), by address -/
  upsets : Tab (BitVec 160)
  diesLost : List Nat
  /-- the draw of K_rule (R211) -/
  kRule : Nat
  powered : Bool
  deriving DecidableEq, Repr

/-- Careening (R249 to R268). -/
structure Careen where
  campaigns : List Campaign
  docks : Tab Dock
  survey : Survey
  patrolCount : Nat
  patrolStart : Nat
  life : Nat
  lifeAt : Nat
  deriving DecidableEq, Repr

/-- The cipher engine (R335 to R362). -/
structure Cipher where
  slots : Tab Slot
  /-- WRAP_BASE and the key-encryption key, where they are held (R352) -/
  wrapBase : Option (List Byte)
  kek : Option (List Byte)
  locked : Bool
  meshTripped : Bool
  entropyFailed : Bool
  entropyStreak : Nat
  pipes : List Pipe
  armed : Bool
  alarm : AlarmPhase
  alarmCause : Nat
  alarmCount : Nat
  zeroiseNs : Nat
  /-- quay whose records are being swept (R346) and its slot -/
  rekey : Option (Nat × Nat)
  /-- number of the checkpoint that must complete before the sweep may end -/
  rekeyCkpt : Nat
  deriving DecidableEq, Repr

/-- The state of the drive. -/
structure State where
  /-- the commands that wait, first in, first out -/
  pending : List Instr
  /-- time of the board, and session and accumulated powered time (R328, R329) -/
  boardUs : Nat
  sessionUs : Nat
  poweredUs : Nat
  persistedAt : Nat
  /-- SY_PHASE (R61) -/
  phase : Nat
  power : Power
  boot : Boot
  regs : Tab Word
  shadows : List Shadow
  latches : Tab Word
  mode : ModeState
  linkA : LinkState
  linkB : LinkState
  handshakes : List Handshake
  /-- the answers that a repeated HELLO or HOST_AUTH of an ended handshake gets again (R97) -/
  answered : List Answered
  moorings : Tab Mooring
  berths : Tab Berth
  withheld : List Withheld
  seqr : Sequencer
  seals : List Seal
  cmds : List Cmd
  flash : Flash
  space : Space
  index : Index
  dies : Tab Die
  careen : Careen
  sensors : Tab Sensor
  tide : Tide
  pstate : PState
  engines : Tab Engine
  cipher : Cipher
  log : Logbook
  update : Update
  harbour : Harbour
  sideband : Sideband
  lines : Lines
  /-- errors counted under the path code, by location class (R28): corrected at 2 × class, uncorrectable at 2 × class + 1 -/
  pathErrors : Tab Nat
  out : List Output
  /-- the model's own: how many draws the key DRBG has made, and how many free values have been taken -/
  draws : Nat
  freeN : Nat
  deriving DecidableEq, Repr

/-- No command ends in a fault: every error of the spec is a status, a record or a phase of the drive. The type has
one constructor, raised by nobody. -/
inductive Fault where
  /-- raised by no command; safe -/
  | none
  deriving DecidableEq, Repr

/-- Why a command has no meaning. -/
inductive Refusal where
  /-- raised by an arm of exec whose meaning is not written; safe -/
  | notModelled (mnemonic : String)
  deriving DecidableEq, Repr

/-- A link that is down (R82). -/
def LinkState.reset : LinkState :=
  { phase := .down, lanes := 0, firstLane := 0, tryLanes := 0, lastLanes := 0, trainFails := 0, dropped := [], laneFailed := [],
    heldDown := false, echoSecond := 0, echoCount := 0, staleSecond := 0, staleCount := 0 }

/-- A base configuration never installed. -/
def ConfigState.reset : ConfigState :=
  { installed := none, previous := none, fwSchema := none, schema := 0, revision := 0, loadStatus := 0, source := 0,
    defaultsPending := false, digest := 0, overlays := [[], [], [], [], [], []], baseEntries := [],
    ovlFail := 0, bootMode := 0 }

/-- A stream that nothing has been written to. -/
def LogStream.reset : LogStream := { recs := [], blocks := [], lines := 0, nextBlock := 0, first := 0, wraps := 0 }

/-- A copy of the OTP image as the factory leaves it: serial, lot, MAC base and seed 0, one root whose hash is 0, and the test port
disabled (DESIGN CHOICE: log entry 174). -/
def OtpRow.reset : OtpRow :=
  { magic := 0x4F545039, hwType := 0x9256, format := 1, serial := 0, lot := 0, macBase := 0, seed := 0,
    roots := [(0, 0x288C3AB9), (2 ^ 384 - 1, 2 ^ 32 - 1), (2 ^ 384 - 1, 2 ^ 32 - 1), (2 ^ 384 - 1, 2 ^ 32 - 1)],
    rollback := 2 ^ 128 - 1, lineage := 0xFF, debug := 0xFE, factoryCrc := 0x6D69DEAD }

/-- The flash of a new drive: nothing programmed but the factory's OTP rows. -/
def Flash.reset : Flash :=
  { otp := { serial := 0, lot := 0, macBase := 0, roots := [some 0, none, none, none], secVersion := 0,
             chosen := false, lineage := false, debug := 1 },
    items := [], voids := [], quays := [], rules := [], topRule := 0, chunk := none, recChunk := none,
    saved := none, sets := [], pages := [], leaves := [], blocks := [], planes := [], freeBlocks := 4192160, retired := 0, lowWater := 100,
    keyRecords := [], verifier := none, general := LogStream.reset, ledger := LogStream.reset, logPages := [], logRetired := [], config := ConfigState.reset, driveCert := none, harbourCert := none,
    banks := { active := 0, generation := 0, switchBoot := 0, release := 0, setDigest := 0, block := 0, page := 1 },
    images := [], markers := [],
    update := none, deltas := [], partialSet := none, armedCohort := none, row0 := OtpRow.reset, row512 := OtpRow.reset, otpRoots := [], otpDebug := 0, poweredS := 0, faults := [], failedDies := [],
    failedHeaters := [], patrolAt := 0 }

/-- The bank classes after power-on (R204). -/
def Index.resetBanks : List Nat :=
  [3, 2, 1, 1, 1, 1, 1, 1, 2, 4, 1, 1, 1, 1, 1, 1,
   3, 2, 1, 1, 1, 1, 1, 1, 2, 4, 1, 1, 1, 1, 1, 1,
   3, 2, 1, 1, 1, 1, 1, 1, 2, 4, 1, 1, 1, 1, 1, 1,
   3, 2, 1, 1, 1, 1, 1, 1, 2, 4, 1, 1, 1, 1, 1, 1]

/-- The hot-key partition of each bank after power-on (R205); 0 for banks of other classes. -/
def Index.resetParts : List Nat :=
  [0, 0, 0, 1, 2, 3, 4, 5, 0, 0, 6, 7, 8, 9, 10, 11,
   0, 0, 12, 13, 14, 15, 0, 1, 0, 0, 2, 3, 4, 5, 6, 7,
   0, 0, 8, 9, 10, 11, 12, 13, 0, 0, 14, 15, 0, 1, 2, 3,
   0, 0, 4, 5, 6, 7, 8, 9, 0, 0, 10, 11, 12, 13, 14, 15]

/-- The drive right after reset: unpowered, never used, with every register at the value of its Reset column. -/
def State.reset : State :=
  { pending := [], boardUs := 0, sessionUs := 0, poweredUs := 0, persistedAt := 0, phase := 0,
    power := { phase := .unpowered, running := false, phaseSince := 0, inputMv := 0, holdUpReady := false,
               holdUpLate := false, pwrdis := false, pwrdisRaw := false, pwrdisSince := 0, failed := false, strapValid := false, strapFailed := false, strapMisses := 0,
               slotFirst := 0 },
    boot := { stage := .none, readyCore := false, readyUnits := false, readySpace := false, mirror := false, baseNew := false,
              rootsOut := [], roleCounts := [8, 32, 16, 8],
              bootNumber := 0, bootSeq := 0, result := 0, bflags := 0, mr := [0, 0, 0, 0, 0, 0, 0, 0],
              stage2Digest := 0, keyStore := { dik := 0, ak := 0 }, applying := false,
              unlockFails := 0, unlockFailAt := 0, unlockTotal := 0, quoteBusy := false, quoteReady := false, quoteFailed := false,
              quoteIgnored := 0, quoteNonce := [], quoteBytes := [], chainDigest := 0, mountBegan := 0,
              mountKind := 0, mountMs := 0, lastAdmitted := none },
    regs := [], shadows := [], latches := [],
    mode := { cur := 0, prev := 0, cause := 0, changing := false, waiter := none, rebuild := false,
              operatorRebuild := false, hull := [], permanent := false, autoLow := none, active := [] },
    linkA := LinkState.reset, linkB := LinkState.reset, handshakes := [], answered := [], moorings := [], berths := [], withheld := [],
    seqr := { next := 1, last := 0, collecting := [], cycle := [], barrier := false, stopped := true },
    seals := [], cmds := [], flash := Flash.reset,
    space := { state := 0, used := 0, keys := 0, reserved := 0, reservedKeys := 0, reserveLeft := 64, pages := [], waiting := [],
               nextPage := 0, nextRecord := 0, nextPseq := 0, durableCsn := 0, durablePseq := 0, closedCount := 0,
               dredging := false, victim := 0, preUsed := [], ckpt := none, ckptQueued := false,
               ckptAt := 0, ckptSeq := 0, landedBytes := 0, diag := [], programmed := [], discarded := 0,
               replayed := 0, lost := 0 },
    index := { banks := Index.resetBanks, parts := Index.resetParts,
               pairs := [⟨0, 32, []⟩, ⟨16, 48, []⟩, ⟨8, 40, []⟩,
                         ⟨24, 56, []⟩, ⟨1, 33, []⟩, ⟨17, 49, []⟩],
               chains := [], dir := [], hot := [], hands := [], inflight := [], ruleEntries := [], appendAt := [], test := none,
               lastTested := 0, testedAt := [], scrubAt := 0, scrubbed := [], upsets := [], diesLost := [], kRule := 0, powered := true },
    dies := [],
    careen := { campaigns := [], docks := [],
                survey := { active := false, sampled := [0, 0, 0, 0, 0, 0, 0, 0, 0],
                            failing := [0, 0, 0, 0, 0, 0, 0, 0, 0], escalated := [], work := [], total := 0,
                            deadline := false },
                patrolCount := 0, patrolStart := 0, life := 0, lifeAt := 0 },
    sensors := [],
    tide := { stepCeil := 300, credit := 0, spent := 0, paced := 0, windowAt := 0, budget := 0, pool := 0, full := false,
              energyMj := 0, step := 0, trigger := false,
              region := none, thermal := false, supply := false, steppedAt := 0, undoAt := 0,
              emThermal := false, emSupply := false, emSince := 0, emPersisted := false, emClearedAt := none,
              hotSince := [], hotTripped := [], tripped := false, rail := 750, railMeasured := 0, atMaxSince := none, fsi := 0,
              fsiRing := 0, fsiWorst := 0, fsiAt := none, served := [], queued := [], costs := [], frozenUntil := 0, ledger := none },
    pstate := { cur := 0, prev := 0, excursion := none, railSaved := 750, idleSince := some 0 },
    engines := [],
    cipher := { slots := [], wrapBase := none, kek := none, locked := true, meshTripped := false,
                entropyFailed := false, entropyStreak := 0,
                pipes := List.replicate 8 { deconfigured := false, running := none, saved := [], waiting := [],
                                             mask := { seeds := 0, requests := 0 } },
                armed := false, alarm := .none, alarmCause := 0, alarmCount := 0, zeroiseNs := 0, rekey := none, rekeyCkpt := 0 },
    log := { nextSeq := 0, firstSeq := 0, staging := [], highWater := 0, coalesce := [], dropped := 0,
             droppedCritical := 0, holding := [], lostHeld := 0, lostCritical := 0, lostTotal := 0, frozen := none,
             frozenSeq := 0, freezeWait := none, nonce := none, nonceDraw := none, nonceSeq := 0, media := 0,
             unacked := false, faults := [], clearWait := [] },
    update := { st := .empty, owner := 0, manifest := none, staged := 0, lastAccepted := 0, cohort := 0,
                switchMs := 0, deadline := 0, switchAt := 0, barrierAt := 0, phase := .none, sealed := false,
                pauseUs := 0, activations := 0, failures := 0, last := 0, trigIgnored := 0, failedPart := 0,
                otpFailed := false, trigSecond := 0, trigChecked := 0,
                prevRelease := 0, prevDigest := 0, held := [] },
    harbour := { idSet := false, members := [], selfConflictAt := none, beaconSeq := 0, beaconAt := 0, beaconDelay := 0,
                 towlines := [], tows := [], towIns := [], towLast := 0 },
    sideband := { dynamicAddr := none, protocolError := false, address := 0, cursor := none, openSince := none },
    lines := { alert := false, led0 := false, led1 := false, lamp := .off },
    pathErrors := [],
    out := [], draws := 0, freeN := 0 }

end Sys2Proof.Machine
end

