-- ==== Sys2Proof/Machine/Flags.lean ====
section
/-! DEFINITION. Status codes (R12, R495), the stored register words with their Reset values (R9, R11), counters that
saturate, and the events of the block pages (R52, R494). -/

namespace Sys2Proof.Machine

/-- The 16-bit code of a status (R495). -/
def statusCode : Status → Nat
  | .ok => 0x0000 | .okDeferredPending => 0x0001
  | .range => 0x0101 | .reservedBits => 0x0102 | .readOnly => 0x0103 | .badOpcode => 0x0104
  | .badLength => 0x0105 | .locked => 0x0106 | .tagInUse => 0x0107
  | .state => 0x0201 | .busyActivating => 0x0202 | .stagingHeld => 0x0203 | .frozen => 0x0204
  | .noSpace => 0x0301 | .mediaExhausted => 0x0302 | .tagsFull => 0x0303 | .tableFull => 0x0304
  | .keyWorn => 0x0305
  | .media => 0x0401 | .blockErasing => 0x0402 | .recordLost => 0x0403
  | .integrity => 0x0501 | .cipherParity => 0x0502
  | .auth => 0x0601 | .keyErased => 0x0602 | .keyLost => 0x0603 | .keyBusy => 0x0604
  | .binding => 0x0605 | .rollback => 0x0606
  | .abortedReset => 0x0701 | .abortedHost => 0x0702 | .abortTooLate => 0x0703
  | .deferred => 0x0801 | .deferredOverflow => 0x0802
  | .retry => 0x0901 | .throttled => 0x0902
  | .condition => 0x0A01 | .notFound => 0x0A02

/-! ### Blocks and pages (R46, R492, R493) -/

/-- The block that a page belongs to, as its PG_IDENT.TYPE code 1 to 15; 16 BT, 17 QY, 18 MR for the record pages; 0 for
an unmapped page. -/
def blockOfPage (p : Nat) : Nat :=
  if p = 0 then 1 else if p = 1 then 2 else if p = 2 then 3 else if p = 3 then 4 else if p = 4 then 5
  else if p = 5 then 6 else if p = 6 then 7 else if p = 7 then 8 else if p = 8 then 9 else if p = 9 then 10
  else if p = 10 ∨ p = 11 then 11 else if p = 12 then 12 else if p = 13 then 13
  else if 0x10 ≤ p ∧ p ≤ 0x4F then 14 else if 0x50 ≤ p ∧ p ≤ 0x8F then 15
  else if 0x100 ≤ p ∧ p ≤ 0x1FF then 16 else if 0x200 ≤ p ∧ p ≤ 0x23F then 17
  else if 0x300 ≤ p ∧ p ≤ 0x33F then 18 else 0

/-- The number of the page within its block (R46). -/
def pageInstance (p : Nat) : Nat :=
  if p = 11 then 1 else if 0x10 ≤ p ∧ p ≤ 0x4F then p - 0x10 else if 0x50 ≤ p ∧ p ≤ 0x8F then p - 0x50 else 0

/-- The registers of a block beyond its header. -/
def blockRegs : Nat → List Reg
  | 1 => regsSY | 2 => regsHM | 3 => regsBW | 4 => regsLB | 5 => regsUP | 6 => regsCF | 7 => regsCP | 8 => regsCM
  | 9 => regsDR | 10 => regsCA | 11 => regsNP | 12 => regsMO | 13 => regsHB | 14 => regsFC | 15 => regsEN
  | 16 => regsBT | 17 => regsQY | 18 => regsMR | _ => []

/-- The register that covers an offset of a table, with its place among the words of that register. -/
def findReg : List Reg → Nat → Option (Reg × Nat)
  | [], _ => none
  | r :: rest, off =>
    if r.offset ≤ off ∧ off < r.offset + 4 * r.count then some (r, (off - r.offset) / 4) else findReg rest off

/-- The register at an aligned address: none for an unmapped page and for a reserved offset. -/
def regAt (addr : Nat) : Option (Reg × Nat) :=
  let page := addr / 0x1000
  let off := addr % 0x1000
  let b := blockOfPage page
  if b = 0 then none
  else if b ≥ 16 then findReg (blockRegs b) (off % 0x40)
  else if off < 0x40 then findReg regsHeader off
  else findReg (blockRegs b) off

/-- A page that is mapped (R492). -/
def pageMapped (p : Nat) : Bool := blockOfPage p != 0

/-- A record page (R43). -/
def isRecordPage (p : Nat) : Bool := decide (16 ≤ blockOfPage p)

/-! ### Stored register words -/

/-- The key under which a register word is stored: its address, and the selector's value for a windowed register. -/
def regKey (addr sel : Nat) : Nat := sel * 2 ^ 24 + addr

/-- The word that a table row gives at reset. -/
def regReset (r : Reg) : Nat := listSum (r.fields.map (fun f => f.reset <<< f.lo))

/-- Default plausibility windows of R64: LO and HI of each class. -/
def plausDefault : Nat → Int × Int
  | 0 => (0, 90000) | 1 => (0, 12000) | 2 => (-200, 1300) | 3 => (-200, 3000) | 4 => (-200, 1500)
  | 5 => (-200, 800) | 6 => (-200, 1000) | _ => (400, 1100)

/-- Floors and weights of R310. -/
def classDefault : Nat → Nat × Nat
  | 0 => (20, 32) | 1 => (15, 24) | 2 => (5, 12) | 3 => (5, 12) | 4 => (2, 4) | 5 => (2, 8) | 6 => (1, 2) | _ => (3, 8)

/-- N, W and their bounds for each source row of R382: N, N low, N high, W, W low, W high. -/
def faultDefault : Nat → Nat × Nat × Nat × Nat × Nat × Nat
  | 0 => (4, 1, 16, 3600, 600, 86400) | 1 => (8, 2, 32, 3600, 600, 86400) | 2 => (8, 2, 32, 3600, 600, 86400)
  | 3 => (16, 4, 64, 60, 10, 3600) | 4 => (1000, 100, 10000, 1, 1, 60) | 5 => (4, 1, 16, 86400, 3600, 604800)
  | 6 => (8, 2, 32, 3600, 600, 86400) | 7 => (4, 1, 16, 3600, 600, 86400) | 8 => (4, 1, 16, 3600, 600, 86400)
  | 9 => (32, 8, 128, 86400, 3600, 2592000) | 10 => (16, 4, 64, 86400, 3600, 2592000) | 11 => (1, 1, 1, 0, 0, 0)
  | 12 => (4, 1, 16, 604800, 86400, 2592000) | 13 => (3, 1, 8, 3600, 600, 86400) | _ => (3, 3, 3, 0, 0, 0)

/-- The Reset value of a stored word: its table row, except where the row refers to another table. -/
def regDefault (key : Nat) : Word :=
  let addr := key % 2 ^ 24
  let sel := key / 2 ^ 24
  if addr = A.BW_PLAUS_LO then BitVec.ofInt 32 (plausDefault sel).1
  else if addr = A.BW_PLAUS_HI then BitVec.ofInt 32 (plausDefault sel).2
  else if addr = A.HM_CLASS then word ((classDefault sel).1 * 65536 + (classDefault sel).2)
  else if addr = A.HM_IDLE_T then 1
  else if addr = A.HM_IDLE_T + 4 then 10
  else if addr = A.HM_IDLE_T + 8 then 1000
  else if addr = A.HM_IDLE_T + 12 then 60000
  else if addr = A.LB_FAULT_CFG then word (faultDefault sel).2.2.2.1
  else if addr = A.LB_FAULT_N then word (faultDefault sel).1
  else match regAt addr with
    | some (r, _) => word (regReset r)
    | none => 0

/-- The stored word of a register. -/
def regGet (s : State) (key : Nat) : Word := tabGetD s.regs key (regDefault key)

/-- Store a register word; a word equal to its Reset value is not listed. -/
def regSet (s : State) (key : Nat) (w : Word) : State :=
  { s with regs := if w = regDefault key then tabErase s.regs key else tabPut s.regs key w }

/-- A field of a stored register. -/
def fieldOf (s : State) (addr hi lo : Nat) : Nat := bits (regGet s addr) hi lo

/-- Bits [hi:lo] of `w` replaced by `v`. -/
def insertBits (w : Word) (hi lo v : Nat) : Word :=
  let m := (2 ^ (hi - lo + 1) - 1) <<< lo
  word ((w.toNat &&& (2 ^ 32 - 1 - m)) ||| ((v <<< lo) &&& m))

/-- Store a field of a register. -/
def fieldSet (s : State) (addr hi lo v : Nat) : State := regSet s addr (insertBits (regGet s addr) hi lo v)

/-- Count once in a 32-bit counter that saturates. -/
def bump (s : State) (addr : Nat) : State := regSet s addr (word (sat ((regGet s addr).toNat + 1) 32))

/-- Count `k` times in a 32-bit counter that saturates. -/
def bumpBy (s : State) (addr k : Nat) : State := regSet s addr (word (sat ((regGet s addr).toNat + k) 32))

/-- Count once in a 16-bit counter at bit `lo` that saturates. -/
def bumpHalf (s : State) (addr lo : Nat) : State := fieldSet s addr (lo + 15) lo (sat (fieldOf s addr (lo + 15) lo + 1) 16)

/-! ### Events (R52, R494) -/

/-- Raise event `b` of the block page `page`: its bit is set, whether or not it is enabled, and counted. -/
def raise (s : State) (page b : Nat) : State :=
  let st := page * 0x1000 + 0x14
  let s := regSet s st (regGet s st ||| word (2 ^ b))
  bump s (page * 0x1000 + 0x1C)

/-- SY_EVT_SUMMARY (R61): bit n is 1 while some page of block type n has an event both set and enabled. -/
def evtSummary (s : State) : Nat :=
  s.regs.foldl (fun acc p =>
    if p.1 % 0x1000 = 0x14 ∧ p.1 < 0x90000 ∧ p.2 &&& regGet s (p.1 + 4) ≠ 0
    then acc ||| 2 ^ blockOfPage (p.1 / 0x1000) else acc) 0

end Sys2Proof.Machine
end

