-- ==== Sys2Proof/Machine/Log.lean ====
section
/-! DEFINITION. The logbook's shared operations: creating a record (R365 to R371, R374, R380), word lines and streams
(R364, R375), and the counting of faults (R381 to R383). -/

namespace Sys2Proof.Machine

/-! ### Records -/

/-- LENGTH of a record (R365): header, payload of at least 4 bytes, CRC. -/
def recLength (payload : List Byte) : Nat := 20 + max 4 payload.length

/-- The bytes of a record (R365), as on media. -/
def recBytes (r : LogRec) : List Byte :=
  let pay := fit r.payload (max 4 r.payload.length)
  let body := leBytes r.seq 8 ++ leBytes r.typ 2 ++ leBytes (recLength r.payload) 2 ++ leBytes r.source 2 ++
    [BitVec.ofNat 8 r.flags, 0] ++ pay
  body ++ leBytes (crc32c body) 4

/-- RFLAGS.CRITICAL. -/
def recCritical (r : LogRec) : Bool := r.flags % 2 == 1

/-- SOURCE: block type code and instance (R365). -/
def src (block inst : Nat) : Nat := block * 256 + inst

/-- Bytes of record space that staged records take. -/
def stagedBytes (rs : List LogRec) : Nat := listSum (rs.map (fun r => recLength r.payload))

/-- Whether a record finds room in the staging ring (R370): 8,192 slots and 4 MiB, of which 1,024 and 512 KiB are kept
for critical records. -/
def stagingRoom (l : Logbook) (len : Nat) (critical : Bool) : Bool :=
  if critical then decide (l.staging.length < 8192) && decide (stagedBytes l.staging + len ≤ 4194304)
  else decide (l.staging.length < 7168) && decide (stagedBytes l.staging + len ≤ 3670016)

/-- Whether a record finds room in the holding ring (R374). -/
def holdingRoom (l : Logbook) (critical : Bool) : Bool :=
  if critical then decide (l.holding.length < 512) else decide (l.holding.length < 448)

/-- A record that found no room is counted (R371). -/
def coalesceOrDrop (s : State) (typ source : Nat) (critical : Bool) : State :=
  let l := s.log
  if l.coalesce.any (fun c => c.typ == typ && c.source == source) then
    bump { s with log := { l with coalesce := l.coalesce.map (fun c =>
      if c.typ == typ && c.source == source then { c with count := c.count + 1 } else c) } } A.LB_COALESCED
  else if l.coalesce.length < 256 then
    bump { s with log := { l with coalesce := l.coalesce ++ [⟨typ, source, 1⟩] } } A.LB_COALESCED
  else
    bump { s with log := { l with dropped := l.dropped + 1,
                                  droppedCritical := l.droppedCritical + flag critical } } A.LB_DROPPED

/-- The volatile ring (R380): the newest 8,192 records; each record lost is counted into one DROPPED record, kept first. -/
def volatileAppend (s : State) (r : LogRec) : State :=
  let l := s.log
  let r := { r with flags := r.flags ||| 4 }
  if l.staging.length < 8192 then { s with log := { l with staging := l.staging ++ [r] } }
  else match l.staging with
    | d :: old :: rest =>
      if d.typ = 4 then
        let n := leAt d.payload 0 4 + 1
        let c := leAt d.payload 4 4 + flag (recCritical old)
        let d := { d with payload := leBytes n 4 ++ leBytes c 4 }
        bump { s with log := { l with staging := d :: (rest ++ [r]) } } A.LB_DROPPED
      else
        let c := flag (recCritical d) + flag (recCritical old)
        let drop : LogRec := { seq := l.nextSeq, typ := 4, source := src 4 0, flags := 5,
                               payload := leBytes 2 4 ++ leBytes c 4, ledger := false, createdAt := s.sessionUs,
                               block := 0 }
        bumpBy { s with log := { l with nextSeq := l.nextSeq + 1, staging := drop :: (rest ++ [r]) } } A.LB_DROPPED 2
    | _ => { s with log := { l with staging := l.staging ++ [r] } }

/-- Put a numbered record into the staging ring. -/
def stagePut (s : State) (r : LogRec) : State :=
  if s.log.media = 3 then volatileAppend s r
  else
    let st := s.log.staging ++ [r]
    { s with log := { s.log with staging := st, highWater := max s.log.highWater st.length } }

/-- Create a record (R366): it takes the next number as it enters the staging ring, or the holding ring while a freeze
holds; with no room it is counted and takes no number. -/
def logRecord (s : State) (typ source : Nat) (critical : Bool) (payload : List Byte) (ledger : Bool := false) : State :=
  let l := s.log
  let r : LogRec := { seq := l.nextSeq, typ := typ, source := source, flags := flag critical, payload := payload,
                      ledger := ledger, createdAt := s.sessionUs, block := 0 }
  match l.frozen with
  | some _ =>
    if holdingRoom l critical then
      { s with log := { l with nextSeq := l.nextSeq + 1, holding := l.holding ++ [{ r with flags := r.flags ||| 2 }] } }
    else
      { s with log := { l with lostHeld := l.lostHeld + 1, lostCritical := l.lostCritical + flag critical,
                               lostTotal := sat (l.lostTotal + 1) 16 } }
  | none =>
    if l.media = 3 ∨ stagingRoom l (recLength payload) critical then
      stagePut { s with log := { l with nextSeq := l.nextSeq + 1 } } r
    else coalesceOrDrop s typ source critical

/-- End the freeze (R374): the held records are staged in order, then THAWED, then HOLDING_LOST where any was lost. -/
def endFreeze (s : State) (mooring cause : Nat) : State :=
  let held := s.log.holding
  let lost := s.log.lostHeld
  let lostC := s.log.lostCritical
  let s := { s with log := { s.log with frozen := none, holding := [], lostHeld := 0, lostCritical := 0 } }
  let s := held.foldl stagePut s
  let s := logRecord s 0x000A (src 4 0) false (leBytes mooring 2 ++ leBytes cause 1 ++ [0])
  let s := if lost = 0 then s
    else raise (logRecord s 0x0005 (src 4 0) true (leBytes lost 4 ++ leBytes lostC 4)) 3 2
  if cause = 2 then raise s 3 6 else s

/-! ### Streams -/

/-- A stream of the logbook on flash. -/
def streamOf (s : State) (ledger : Bool) : LogStream := if ledger then s.flash.ledger else s.flash.general

/-- Replace a stream. -/
def setStream (s : State) (ledger : Bool) (x : LogStream) : State :=
  if ledger then { s with flash := { s.flash with ledger := x } } else { s with flash := { s.flash with general := x } }

/-- The blocks of a region that a stream is written in (R363). -/
def logBlocks (ledger fallback : Bool) : List Nat :=
  match ledger, fallback with
  | false, false => List.range 28 | true, false => [28, 29, 30, 31] | false, true => [0, 1, 2] | true, true => [3]

/-- The dies of the logbook region: D0 to D3, F0, F1 (R363). -/
def logDies : List Nat := [78, 334, 590, 846, 206, 718]

/-- Where the two copies of a block lie among those dies (R363). -/
def copyPlaces (fallback : Bool) (b : Nat) : Nat × Nat := if fallback then (4, 5) else (b % 2, b % 2 + 2)

/-- The copy of a block at a place is retired. -/
def copyRetired (s : State) (k b : Nat) : Bool := s.flash.logRetired.contains (k, b)

/-- A block has a copy left. -/
def blockRemains (s : State) (fallback : Bool) (b : Nat) : Bool :=
  !(copyRetired s (copyPlaces fallback b).1 b && copyRetired s (copyPlaces fallback b).2 b)

/-- Whether the stream's last block lies in the region being written, has a copy left and a word line left. -/
def blockHasLine (s : State) (x : LogStream) (fallback : Bool) : Bool :=
  match x.blocks.getLast? with
  | some u => u.fallback == fallback && blockRemains s fallback u.block && decide (x.lines < 1365)
  | none => false

/-- The block that a stream takes next: in ring order after the last that it took, one that is free and has a copy left. -/
def nextLogBlock (s : State) (x : LogStream) (ledger fallback : Bool) : Option Nat :=
  let bs := logBlocks ledger fallback
  let used := (x.blocks.filter (fun u => u.fallback == fallback)).map LogBlock.block
  let ring := match used.getLast? with
    | some b => bs.filter (fun k => decide (b < k)) ++ bs.filter (fun k => decide (k ≤ b))
    | none => bs
  ring.find? (fun k => blockRemains s fallback k && !used.contains k)

/-- The block of the next word line of a stream. -/
def lineBlock (s : State) (ledger : Bool) : Option Nat :=
  let x := streamOf s ledger
  let fallback := s.log.media == 2
  if blockHasLine s x fallback then x.blocks.getLast?.map LogBlock.block else nextLogBlock s x ledger fallback

/-- Whether the stream must have a block erased before its next word line (R375). -/
def needsWrap (s : State) (ledger : Bool) : Bool := (lineBlock s ledger).isNone

/-- The stream with a word line taken: in its last block, or in a new one. -/
def takeWordLine (s : State) (ledger : Bool) : LogStream :=
  let x := streamOf s ledger
  let fallback := s.log.media == 2
  if blockHasLine s x fallback then { x with lines := x.lines + 1 }
  else match nextLogBlock s x ledger fallback with
    | some b => { x with blocks := x.blocks ++ [⟨x.nextBlock, fallback, b⟩], nextBlock := x.nextBlock + 1, lines := 1 }
    | none => x

/-- The next word line of a stream has failed before it is programmed (R379): a copy of its block that is still written, or
both copies in the fallback region, lie on dies marked failed. -/
def lineLost (s : State) (ledger : Bool) : Bool :=
  match lineBlock s ledger with
  | none => false
  | some b =>
    let fallback := s.log.media == 2
    let dead := fun (k : Nat) => !copyRetired s k b && s.flash.failedDies.contains (logDies.getD k 0)
    let p := copyPlaces fallback b
    if fallback then dead p.1 && dead p.2 else dead p.1 || dead p.2

/-- Whole records of one stream that fit the three pages of a word line (R364), from the front of the ring; each begins on
an 8-byte boundary and none spans two pages. -/
def packLine (ledger : Bool) : List LogRec → (page used : Nat) → List LogRec × List LogRec
  | [], _, _ => ([], [])
  | r :: rest, page, used =>
    if r.ledger != ledger then
      let (a, b) := packLine ledger rest page used
      (a, r :: b)
    else
      let len := (recLength r.payload + 7) / 8 * 8
      if used + len ≤ 16384 then
        let (a, b) := packLine ledger rest page (used + len)
        (r :: a, b)
      else if page < 2 then
        let (a, b) := packLine ledger rest (page + 1) len
        (r :: a, b)
      else ([], r :: rest)

/-- COPY_FAILED (R384): the dies of the region with a retired block, and those that have failed. -/
def copyFailedBits (s : State) : Nat :=
  listSum ((List.range 6).map (fun k =>
    2 ^ k * flag (s.flash.logRetired.any (fun c => c.1 == k) || s.flash.failedDies.contains (logDies.getD k 0))))

/-- SINGLE (R384): some block of the main region is written with one copy. -/
def someSingle (s : State) : Bool :=
  (List.range 32).any (fun b => copyRetired s (copyPlaces false b).1 b != copyRetired s (copyPlaces false b).2 b)

/-- Where writing goes at power-on (R379): the main region wherever blocks remain, else the fallback region, else SRAM. -/
def startMedia (s : State) : Nat :=
  let remains := fun (fallback : Bool) =>
    [false, true].all (fun ledger => (logBlocks ledger fallback).any (fun b => blockRemains s fallback b))
  if remains false then 0 else if remains true then 2 else 3

/-- Whether the staged records of a stream fill a word line: some of them find no place in it. -/
def lineFull (l : Logbook) (ledger : Bool) : Bool :=
  (packLine ledger l.staging 0 0).2.any (fun r => r.ledger == ledger)

/-- Whether a word line is due to be programmed (R364). -/
def flushDue (s : State) : Bool :=
  let l := s.log
  decide (l.media ≠ 3) &&
  match l.staging with
  | [] => l.freezeWait.isSome
  | r :: _ =>
    lineFull l r.ledger ||
    decide (r.createdAt + 1000 * (regGet s A.LB_FLUSH).toNat ≤ s.sessionUs) ||
    l.staging.any recCritical || l.freezeWait.isSome || l.frozen.isSome || decide (s.phase = 3)

/-! ### Faults -/

/-- SOURCE of a fault row's records: the block of the unit that faults (R365, R382). -/
def faultSource (row inst : Nat) : Nat :=
  match row with
  | 0 => src 15 inst | 1 => src 14 inst | 2 => src 11 inst | 3 => src 11 (inst / 4) | 4 => src 11 inst
  | 5 => src 9 inst | 6 => src 8 inst | 7 => src 0x12 inst | 8 => src 7 inst | 9 => src 14 (inst / 16)
  | 10 => src 14 (inst / 64) | 11 => src 14 (inst / 4096 / 4 / 16 % 64) | 12 => src 10 0 | 13 => src 3 (inst % 256)
  | _ => src 7 0

/-- Rows whose windows run in accumulated powered time and persist (R383). -/
def faultPersists (row : Nat) : Bool := row == 9 || row == 10 || row == 12

/-- The key of an instance of a fault row. -/
def faultKey (row inst : Nat) : Nat := row * 2 ^ 32 + inst

/-- The count of an instance. -/
def faultCount (s : State) (row inst : Nat) : FaultCount :=
  tabGetD (if faultPersists row then s.flash.faults else s.log.faults) (faultKey row inst) ⟨[], 0, false⟩

/-- The clock of a row's window, in µs (R383). -/
def faultClock (s : State) (row : Nat) : Nat := if faultPersists row then s.poweredUs else s.sessionUs

/-- Store the count of an instance. -/
def setFaultCount (s : State) (row inst : Nat) (c : FaultCount) : State :=
  if faultPersists row then { s with flash := { s.flash with faults := tabPut s.flash.faults (faultKey row inst) c } }
  else { s with log := { s.log with faults := tabPut s.log.faults (faultKey row inst) c } }

/-- N of a row (R382). -/
def faultN (s : State) (row : Nat) : Nat := bits (regGet s (regKey A.LB_FAULT_N row)) 15 0

/-- W of a row, in µs. -/
def faultW (s : State) (row : Nat) : Nat := 1000000 * bits (regGet s (regKey A.LB_FAULT_CFG row)) 23 0

/-- Occurrences within the window that ends now. -/
def faultWindow (s : State) (row inst : Nat) : List Nat :=
  (faultCount s row inst).times.filter (fun t => decide (faultClock s row ≤ t + faultW s row))

/-- The payload of a fault record (R368). -/
def faultPayload (row inst inWindow detail : Nat) (already : Bool) : List Byte :=
  leBytes row 1 ++ leBytes (flag already) 1 ++ leBytes (sat inWindow 16) 2 ++ leBytes inst 4 ++ leBytes detail 8

/-- Count one occurrence and log it (R381); the answer says whether this occurrence makes the fault lasting, so that the
caller takes the source's action. -/
def faultOccur (s : State) (row inst detail : Nat) : State × Bool :=
  let c := faultCount s row inst
  let times := faultWindow s row inst ++ [faultClock s row]
  let lasting := c.lasting || decide (faultN s row ≤ times.length)
  let s := setFaultCount s row inst { times := times, total := sat (c.total + 1) 16, lasting := lasting }
  let pay := faultPayload row inst times.length detail c.lasting
  if c.lasting then (logRecord s 0x0010 (faultSource row inst) false pay, false)
  else if lasting then (raise (logRecord s 0x0011 (faultSource row inst) true pay) 3 4, true)
  else (logRecord s 0x0010 (faultSource row inst) false pay, false)

/-- Whether an instance is lasting. -/
def faultLasting (s : State) (row inst : Nat) : Bool := (faultCount s row inst).lasting

end Sys2Proof.Machine
end

