-- ==== Sys2Proof/Machine/Packets.lean ====
section
/-! DEFINITION. Bytes on the wire: Ethernet, IP and UDP around a payload (R84 to R88), the 32-byte header of a frame (R89), the
key schedule (R98, R101) and sealing (R92). -/

namespace Sys2Proof.Machine

/-! ### Hashing and keys -/

/-- The 48 bytes of a SHA-384. -/
def sha384Bytes (bs : List Byte) : List Byte := beBytes (Config.sha384 bs) 48

/-- HMAC (RFC 2104) with SHA-384, whose block is 128 bytes. -/
def hmac384 (key msg : List Byte) : List Byte :=
  let k := fit (if 128 < key.length then sha384Bytes key else key) 128
  sha384Bytes (k.map (· ^^^ 0x5C) ++ sha384Bytes (k.map (· ^^^ 0x36) ++ msg))

/-- The extract step of HKDF (RFC 5869). -/
def hkdfExtract (salt ikm : List Byte) : List Byte := hmac384 salt ikm

/-- The blocks T(k) of HKDF's expand step, each from the one before it. -/
def hkdfBlocks (prk info : List Byte) : Nat → Nat → List Byte → List Byte
  | 0, _, _ => []
  | n + 1, k, last =>
    let t := hmac384 prk (last ++ info ++ beBytes k 1)
    t ++ hkdfBlocks prk info n (k + 1) t

/-- The expand step of HKDF (RFC 5869): `len` bytes. -/
def hkdfExpand (prk info : List Byte) (len : Nat) : List Byte := (hkdfBlocks prk info (ceilDiv len 48) 1 []).take len

/-- The payload of a HELLO (R97). -/
def helloPayload (b : HelloBody) : List Byte :=
  beBytes b.random 32 ++ beBytes b.ephemeral 97 ++ beBytes b.berths 1 ++ beBytes b.hflags 1 ++ beBytes b.maxPayload 2 ++
    beBytes b.reserved 3

/-- DRIVE_RANDOM of a draw. -/
def randomOf (draw : Nat) : List Byte := (List.range 32).map (Config.drawn draw)

/-- KMAC128 of bytes under a 32-byte key with a customization string, 128 bits as a number of which output byte 0 is the most significant
(R184). -/
def kmac (key data : List Byte) (custom : String) : Nat :=
  beNat ((List.range 16).map (Config.kmac128 key data 128 (ascii custom)))

/-- The ephemeral public key of a draw. -/
def ephemeralOf (draw : Nat) : List Byte := (List.range 97).map (Config.ephemeralPublic draw)

/-- The cleartext part of the WELCOME that answers under a draw (R97). -/
def welcomeClear (draw : Nat) : List Byte := randomOf draw ++ ephemeralOf draw ++ zeroBytes 3

/-- th1 of R98. -/
def thOne (hello : HelloBody) (clear : List Byte) : List Byte := sha384Bytes (helloPayload hello ++ clear)

/-- hs of R98: from both randoms and Z. -/
def handshakeSecret (hostRandom driveRandom : List Byte) (z : Nat) : List Byte :=
  hkdfExtract (hostRandom ++ driveRandom) (beBytes z 48)

/-- A handshake key of R98. -/
def handshakeKey (hs th1 : List Byte) (toDrive : Bool) : List Byte :=
  hkdfExpand hs (ascii (if toDrive then "flitar hs h2d" else "flitar hs d2h") ++ th1) 32

/-! ### The attestation key store (R389) -/

/-- A P-384 private key of 56 bytes. -/
def p384Key (b : List Byte) : Nat := beNat b % (Config.curveOrder - 1) + 1

/-- The device identity key, of the OTP seed alone. -/
def dikOf (seed : List Byte) : Nat := p384Key (hkdfExpand (hkdfExtract (ascii "FLITAR-DID") seed) (ascii "device identity") 56)

/-- The attestation key, of the seed and the SHA-384 of stage two. -/
def akOf (s2 seed : List Byte) : Nat :=
  p384Key (hkdfExpand (hkdfExpand (hkdfExtract s2 seed) (ascii "flitar cdi") 48) (ascii "attestation key") 56)

/-- The 97 bytes of a private key's public key. -/
def publicKey (d : Nat) : List Byte := (List.range 97).map (Config.p384Public d)

/-- The 96 bytes of a signature of a digest, r then s. -/
def signWith (d digest : Nat) : List Byte := (List.range 96).map (Config.ecdsa d digest)

/-- The store holds the DIK and the AK (R389, R357). -/
def keysPresent (s : State) : Bool := s.boot.keyStore.ak != 0

/-- A signature with the device identity key (R96, R98). -/
def identitySign (dik : Nat) (label : String) (bytes : List Byte) : List Byte :=
  signWith dik (Config.sha384 (ascii label ++ bytes))

/-- th3 of R98. -/
def thThree (th1 driveCert driveSig certs hostSig : List Byte) : List Byte :=
  sha384Bytes (th1 ++ driveCert ++ driveSig ++ certs ++ hostSig)

/-- A traffic secret of R98. -/
def trafficSecret (hs th3 : List Byte) (toDrive : Bool) : List Byte :=
  hkdfExpand hs (ascii (if toDrive then "flitar ts h2d" else "flitar ts d2h") ++ th3) 48

/-- The 256-bit key that key material gives: of a traffic secret, the key of R98 and R101. -/
def keyBytes : KeyMaterial → List Byte
  | .drawn d => (List.range 32).map (Config.drawn d)
  | .words ws => ws.flatMap (fun w => beBytes w.toNat 4)
  | .secret s => hkdfExpand s (ascii "flitar key") 32

/-- The key material of a slot that holds none: zeros (R354, R356). -/
def noKey : KeyMaterial := .words (List.replicate 8 0)

/-- WRAP_BASE, of the OTP seed (R352). -/
def wrapBaseOf (seed : List Byte) : List Byte := hkdfExpand (hkdfExtract (ascii "FLITAR-WRAP") seed) (ascii "wrap base") 32

/-- The key-encryption key, of WRAP_BASE and the unlock secret (R352). -/
def kekOf (wrapBase secret : List Byte) : List Byte := hkdfExpand (hkdfExtract wrapBase secret) (ascii "flitar kek") 32

/-- A key wrapped into 40 bytes, under the wrapping key of a record (R352). -/
def wrapKey (kek : List Byte) (kind owner epoch : Nat) (key : List Byte) : List Byte :=
  let kw := hkdfExpand kek (ascii "flitar wrap" ++ leBytes kind 1 ++ leBytes owner 4 ++ leBytes epoch 2) 32
  (List.range 40).map (Config.aesKw kw key)

/-- Bytes 0x000 to 0x01F of a key record (R353). -/
def keyRecordHead (r : KeyRecord) : List Byte :=
  leBytes 0x4B524539 4 ++ leBytes r.kind 1 ++ leBytes r.shadows.length 1 ++ leBytes r.slot 2 ++ leBytes r.owner 4 ++
    leBytes r.epoch 2 ++ [0, 0] ++ leBytes r.chunk 8 ++ zeroBytes 8

/-- The 304 bytes of a key record (R353); all its keys are wrapped under the record's one wrapping key. -/
def keyRecordBytes (kek : List Byte) (r : KeyRecord) : List Byte :=
  let wrap := wrapKey kek r.kind r.owner r.epoch
  keyRecordHead r ++ (if r.kind = 4 then zeroBytes 40 else wrap (keyBytes (.drawn r.indexKey))) ++ wrap (keyBytes r.key) ++
    fit (r.shadows.flatMap (fun h => leBytes h.epoch 2 ++ zeroBytes 6 ++ wrap (keyBytes h.key))) 192

/-- A key record written anew while no key can be wrapped: the wrapped keys are those of its last copy (DEDUCED: log entry 198). -/
def keyRecordCarry (old r : KeyRecord) : KeyRecord :=
  let keep := fun (h : SlotShadow) => r.shadows.any (fun x => x.epoch == h.epoch)
  let kept := ((old.shadows.zipIdx).filter (fun x => keep x.1)).flatMap (fun x => (old.bytes.drop (0x70 + 48 * x.2)).take 48)
  let r := { r with key := old.key, indexKey := old.indexKey, shadows := old.shadows.filter keep }
  { r with bytes := keyRecordHead r ++ (old.bytes.drop 0x20).take 80 ++ fit kept 192 }

/-- The verifier record (R353). -/
def verifierBytes (kek : List Byte) : List Byte :=
  leBytes 0x4B524539 4 ++ leBytes 0x10 1 ++ zeroBytes 67 ++ wrapKey kek 0x10 0 0 (zeroBytes 32) ++ zeroBytes 192

/-- The key material of the next key phase of a direction (R101). -/
def nextSecret : KeyMaterial → KeyMaterial
  | .secret s => .secret (hkdfExpand s (ascii "flitar ku") 48)
  | k => k

/-- AES-256-GCM (R92): ciphertext and tag, under the nonce of a domain and a counter. -/
def gcmSeal (key : List Byte) (domain ctr : Nat) (aad plain : List Byte) : List Byte :=
  (List.range (plain.length + 16)).map (Config.gcm key (beBytes domain 4 ++ beBytes ctr 8) aad plain)

/-! ### Frames -/

/-- The 32 bytes of a frame's header (R89), in network order (R7). -/
def headBytes (h : Head) : List Byte :=
  beBytes h.version 1 ++ beBytes h.typ 1 ++ beBytes (h.mooring * 16 + h.berth) 2 ++ beBytes h.seq 4 ++ beBytes h.ack 4 ++
    beBytes h.sack.toNat 4 ++ beBytes h.flags.toNat 2 ++ beBytes h.length 2 ++ beBytes h.window 2 ++ beBytes h.reserved 2 ++
    beBytes h.nonceCtr 8

/-- The header of a handshake frame: MOORING, BERTH and the sequence fields are zero (R89). -/
def handshakeHead (typ length window ctr : Nat) : Head :=
  { version := 2, typ := typ, mooring := 0, berth := 0, seq := 0, ack := 0, sack := 0, flags := 0, length := length,
    window := window, reserved := 0, nonceCtr := ctr }

/-- A cleartext handshake frame (R90). -/
def clearFrame (typ : Nat) (payload : List Byte) : List Byte := headBytes (handshakeHead typ payload.length 0 0) ++ payload

/-- A frame with its payload sealed (R92): the header, and any cleartext part after it, is the additional data. -/
def sealedFrame (key : List Byte) (domain : Nat) (h : Head) (clear plain : List Byte) : List Byte :=
  let aad := headBytes h ++ clear
  aad ++ gcmSeal key domain h.nonceCtr aad plain

/-- A STALE frame: cleartext and empty (R90, R116). -/
def staleFrame (mooring : Nat) : List Byte := headBytes { handshakeHead 0x15 0 0 0 with mooring := mooring }

/-- The payload of REFUSE and REFUSE_SEALED (R97). -/
def refusePayload (status retryUs : Nat) : List Byte := beBytes status 2 ++ zeroBytes 2 ++ beBytes retryUs 4

/-- The payload of MOORED (R97). -/
def mooredPayload (id count domain : Nat) (berths : List Nat) (capability : List Byte) : List Byte :=
  beBytes id 2 ++ beBytes count 1 ++ [0] ++ beBytes domain 4 ++ berths.flatMap (fun n => beBytes n 2) ++ capability

/-- The payload of HOST_AUTH with one certificate (R97, R437). -/
def authPayload (cert hostSig : List Byte) : List Byte := beBytes 1 1 ++ zeroBytes 3 ++ cert ++ hostSig

/-- The bytes of a certificate of some fields, unsigned by a host: its 228 signed bytes (R94). -/
def certHead (role generation subject serial : Nat) (subjectKey issuerKey : List Byte) : List Byte :=
  beBytes 0x46434331 4 ++ beBytes role 1 ++ [0, 0, 0] ++ beBytes generation 4 ++ zeroBytes 4 ++ beBytes subject 8 ++
    beBytes serial 8 ++ subjectKey ++ issuerKey ++ zeroBytes 2

/-- The self-signed drive certificate (R96): ROLE 5, ISSUER_KEY equal to SUBJECT_KEY, GENERATION 0. -/
def selfSignedCert (dik : Nat) : List Byte :=
  let key := publicKey dik
  let body := certHead 5 0 (Config.selfSignedId 0) (Config.selfSignedId 1) key key
  body ++ identitySign dik "" body

/-! ### IP and Ethernet (R84 to R88) -/

/-- The one's complement sum of bytes taken as 16-bit words. -/
def onesSum : List Byte → Nat
  | [] => 0
  | [a] => a.toNat * 256
  | a :: b :: r =>
    let n := a.toNat * 256 + b.toNat + onesSum r
    if n < 65536 then n else n - 65535

/-- The internet checksum of bytes. -/
def checksum (bs : List Byte) : Nat := 65535 - onesSum bs

/-- The modified EUI-64 interface identifier of a MAC address, under fe80::/64 (R85). -/
def linkLocalOf (mac : Nat) : Nat :=
  0xFE80 * 2 ^ 112 + ((mac / 2 ^ 24) ^^^ 0x020000) * 2 ^ 40 + 0xFFFE * 2 ^ 24 + mac % 2 ^ 24

/-- The bytes that stand before a UDP or ICMPv6 message in its checksum. -/
def pseudoHeader (e : Envelope) (len : Nat) : List Byte :=
  if e.ipv6 then beBytes e.ipSrc 16 ++ beBytes e.ipDst 16 ++ beBytes len 4 ++ zeroBytes 3 ++ beBytes e.proto 1
  else beBytes e.ipSrc 4 ++ beBytes e.ipDst 4 ++ [0] ++ beBytes e.proto 1 ++ beBytes len 2

/-- The UDP checksum, which is never sent as zero. -/
def udpSumOf (e : Envelope) (udp : List Byte) : Nat :=
  let n := checksum (pseudoHeader e udp.length ++ udp)
  if n = 0 then 65535 else n

/-- The payload with its UDP header (R87), or the ICMP message with its checksum in place. -/
def transportBytes (e : Envelope) : List Byte :=
  if e.proto = 17 then
    let head := beBytes e.udpPort 2 ++ beBytes e.udpPort 2 ++ beBytes (8 + e.payload.length) 2
    head ++ beBytes (udpSumOf e (head ++ [0, 0] ++ e.payload)) 2 ++ e.payload
  else
    let pseudo := if e.ipv6 then pseudoHeader e e.payload.length else []
    e.payload.take 2 ++ beBytes (checksum (pseudo ++ e.payload)) 2 ++ e.payload.drop 4

/-- Traffic class or type of service: DSCP, and ECT(0) or Not-ECT (R88). -/
def trafficClass (e : Envelope) : Nat := e.dscp * 4 + (if e.ect then 2 else 0)

/-- The IP packet (R85): over IPv6 the fixed header alone, over IPv4 a header of five words, with DF and its checksum. -/
def ipBytes (e : Envelope) : List Byte :=
  let body := transportBytes e
  if e.ipv6 then
    beBytes (6 * 2 ^ 28 + trafficClass e * 2 ^ 20 + e.flow) 4 ++ beBytes body.length 2 ++ beBytes e.proto 1 ++
      beBytes e.hops 1 ++ beBytes e.ipSrc 16 ++ beBytes e.ipDst 16 ++ body
  else
    let before := [0x45] ++ beBytes (trafficClass e) 1 ++ beBytes (20 + body.length) 2 ++ [0, 0] ++
      beBytes (if e.df then 0x4000 else 0) 2 ++ beBytes e.hops 1 ++ beBytes e.proto 1
    let after := beBytes e.ipSrc 4 ++ beBytes e.ipDst 4
    before ++ beBytes (checksum (before ++ [0, 0] ++ after)) 2 ++ after ++ body

/-- The Ethernet frame up to its frame check sequence: one 802.1Q tag or none (R84), an ARP packet or an IP packet. -/
def wireBytes (e : Envelope) : List Byte :=
  let tag : List Byte := match e.vlan with
    | some (vid, pcp) => beBytes 0x8100 2 ++ beBytes (pcp * 8192 + vid) 2
    | none => []
  let ether := if e.proto = 0 then 0x0806 else if e.ipv6 then 0x86DD else 0x0800
  beBytes e.ethDst 6 ++ beBytes e.ethSrc 6 ++ tag ++ beBytes ether 2 ++ (if e.proto = 0 then e.payload else ipBytes e)

/-- An ARP reply (RFC 826): the drive's address, to the asker. -/
def arpReplyBytes (mac ip ethDst ipDst : Nat) : List Byte :=
  beBytes 1 2 ++ beBytes 0x0800 2 ++ [6, 4] ++ beBytes 2 2 ++ beBytes mac 6 ++ beBytes ip 4 ++ beBytes ethDst 6 ++ beBytes ipDst 4

/-- A neighbour advertisement (RFC 4861): solicited, overriding, with the target link-layer address. -/
def neighbourBytes (mac target : Nat) : List Byte :=
  [136, 0, 0, 0] ++ beBytes 0x60000000 4 ++ beBytes target 16 ++ [2, 1] ++ beBytes mac 6

/-- An echo reply (R86): the identifier, sequence number and data of the request. -/
def echoBytes (ipv6 : Bool) (message : List Byte) : List Byte := [if ipv6 then 129 else 0, 0, 0, 0] ++ message

/-- A beacon's 64 bytes (R434). -/
def beaconBytes (b : BeaconBody) : List Byte :=
  fit (beBytes 0x48424E39 4 ++ [1] ++ beBytes b.bflags 1 ++ beBytes b.harbourId 2 ++ beBytes b.serial 8 ++
    beBytes b.seq 4 ++ beBytes b.bootNumber 4 ++ beBytes b.fw 4 ++ beBytes b.mode 1 ++ beBytes b.space 1 ++ beBytes b.life 1 ++
    beBytes b.towFree 1 ++ beBytes b.members 2 ++ beBytes b.pstate 1 ++ [0] ++ beBytes b.towPort 2) 64

end Sys2Proof.Machine
end

