-- ==== Sys2Proof/Machine/Transport.lean ====
section
/-! DEFINITION. The transport of a mooring or a towline: tagged frames out (R91, R92, R103), fragments and windows (R102
to R105), and the sent frames kept until they are covered (R104). -/

namespace Sys2Proof.Machine

/-- The page of a port (R117). -/
def portPage : Port → Nat
  | .a => 0x00A | .b => 0x00B

/-- The number of a port. -/
def portNum : Port → Nat
  | .a => 0 | .b => 1

/-- A register of a port's page, from its address on port A's. -/
def npAddr (p : Port) (addr : Nat) : Nat := addr + 0x1000 * portNum p

/-- A port's link. -/
def linkOf (s : State) : Port → LinkState
  | .a => s.linkA | .b => s.linkB

/-- Replace a port's link. -/
def setLink (s : State) (p : Port) (l : LinkState) : State :=
  match p with
  | .a => { s with linkA := l } | .b => { s with linkB := l }

/-- The port's link is up (R82). -/
def linkUp (s : State) (p : Port) : Bool := (linkOf s p).phase == .up

/-- Send a frame on a port: it leaves only while the link is up, and it then counts in NP_TX_FRAMES. -/
def emitOn (s : State) (p : Port) (e : Envelope) (o : Output) : State :=
  if linkUp s p then bump { s with out := s.out ++ [.sent e (wireBytes e) o] } (npAddr p A.NP_TX_FRAMES) else s

/-- NP_MAC of a port: from the OTP's base (R244). -/
def portMac (s : State) (p : Port) : Nat := s.flash.otp.macBase + portNum p

/-- NP_IPV4_ADDR; 0 is none. -/
def ipv4Of (s : State) (p : Port) : Nat := (regGet s (npAddr p A.NP_IPV4_ADDR)).toNat

/-- NP_IPV6_ADDR, word 0 the highest; 0 is none. -/
def ipv6Of (s : State) (p : Port) : Nat :=
  (List.range 4).foldl (fun n k => n * 2 ^ 32 + (regGet s (npAddr p A.NP_IPV6_ADDR + 4 * k)).toNat) 0

/-- The port's link-local address (R85). -/
def linkLocal (s : State) (p : Port) : Nat := linkLocalOf (portMac s p)

/-- The harbour group ff02::1:9256 (R432). -/
def harbourGroup : Nat := 0xFF020000000000000000000000019256

/-- What a destination address is to a port (R85, R432). -/
def destOf (s : State) (p : Port) (ipv6 : Bool) (addr : Nat) : DestAddr :=
  if ipv6 then
    if addr = harbourGroup then .harbourGroup
    else if addr = linkLocal s p then .linkLocal
    else if addr = ipv6Of s p ∧ addr ≠ 0 then .own
    else .other
  else if addr = ipv4Of s p ∧ addr ≠ 0 then .own
  else .other

/-- The VLAN tag of what a port sends (R84): VID and PCP, none while VID is 0. -/
def vlanOf (s : State) (addr : Nat) : Option (Nat × Nat) :=
  let vid := fieldOf s addr 11 0
  if vid = 0 then none else some (vid, fieldOf s addr 31 29)

/-- NP_DSCP (R88): MGMT for handshake frames and the frames of Operator and Auditor moorings, DATA for others. -/
def dscpOf (s : State) (p : Port) (mgmt : Bool) : Nat :=
  if mgmt then fieldOf s (npAddr p A.NP_DSCP) 13 8 else fieldOf s (npAddr p A.NP_DSCP) 5 0

/-- The envelope of an answer to the source of a received frame, from the address that the frame was sent to. -/
def replyTo (s : State) (r : Rx) (mgmt : Bool) (flow udp : Nat) (payload : List Byte) : Envelope :=
  { ethDst := r.ethSrc, ipDst := r.ipSrc, ipv6 := r.ether == .ipv6, vlan := vlanOf s (npAddr r.port A.NP_VLAN),
    dscp := dscpOf s r.port mgmt, ect := false, hops := 64, flow := flow, udpPort := udp, ethSrc := portMac s r.port,
    ipSrc := r.ipDst, df := true, proto := 17, payload := payload }

/-- The envelope of a harbour datagram (R432): link-local, the management VLAN and NP_DSCP.MGMT. -/
def harbourEnvelope (s : State) (p : Port) (ethDst ipDst udp : Nat) (ect : Bool) (payload : List Byte) : Envelope :=
  { ethDst := ethDst, ipDst := ipDst, ipv6 := true, vlan := vlanOf s A.HB_MGMT, dscp := dscpOf s p true, ect := ect,
    hops := 64, flow := 0, udpPort := udp, ethSrc := portMac s p, ipSrc := linkLocal s p, df := true, proto := 17,
    payload := payload }

/-- The mooring of an ID. -/
def mooringOf (s : State) (m : Nat) : Option Mooring := tabGet s.moorings m

/-- Change a mooring. -/
def updMooring (s : State) (m : Nat) (f : Mooring → Mooring) : State := { s with moorings := tabUpd s.moorings m f }

/-- The transport of a line. -/
def tpOf (s : State) : Line → Option Transport
  | .mooring m => (tabGet s.moorings m).map Mooring.tp
  | .towline t => (tabGet s.harbour.towlines t).map Towline.tp

/-- Change the transport of a line. -/
def updTp (s : State) (l : Line) (f : Transport → Transport) : State :=
  match l with
  | .mooring m => updMooring s m (fun x => { x with tp := f x.tp })
  | .towline t => { s with harbour := { s.harbour with
      towlines := tabUpd s.harbour.towlines t (fun x => { x with tp := f x.tp }) } }

/-- FLAGS.LB_VOLATILE (R91): the line is an Operator's or an Auditor's and the logbook is volatile and unacknowledged. -/
def volatileFlag (s : State) : Line → Bool
  | .mooring m => match tabGet s.moorings m with
    | some x => (x.role == 1 || x.role == 2) && s.log.media == 3 && s.log.unacked
    | none => false
  | .towline _ => false

/-- The frames of the line are those of an Operator or Auditor mooring. -/
def managementLine (s : State) (m : Nat) : Bool :=
  match tabGet s.moorings m with
  | some x => x.role == 1 || x.role == 2
  | none => false

/-- The envelope of a line's frames: to the sources of the frame that last set its path (R86, R107). -/
def lineEnvelope (s : State) (l : Line) (t : Transport) (payload : List Byte) : Envelope :=
  match l with
  | .mooring m =>
    { ethDst := t.path.ethSrc, ipDst := t.path.ipSrc, ipv6 := t.path.ipv6, vlan := vlanOf s (npAddr t.path.port A.NP_VLAN),
      dscp := dscpOf s t.path.port (managementLine s m), ect := t.ecn, hops := 64, flow := if t.path.ipv6 then m else 0,
      udpPort := fieldOf s (npAddr t.path.port A.NP_UDP) 15 0, ethSrc := portMac s t.path.port, ipSrc := t.path.ipDst,
      df := true, proto := 17, payload := payload }
  | .towline _ => harbourEnvelope s t.path.port t.path.ethSrc t.path.ipSrc (fieldOf s A.HB_PORTS 31 16) t.ecn payload

/-- The send slot of a line. -/
def sendSlotOf (s : State) : Line → Nat
  | .mooring m => match tabGet s.moorings m with
    | some x => x.sendSlot
    | none => 65536
  | .towline t => match tabGet s.harbour.towlines t with
    | some x => x.sendSlot
    | none => 65536

/-- The MOORING field of what the drive sends on a line: the mooring's ID, or the peer's towline ID (R438). -/
def lineField (s : State) : Line → Nat
  | .mooring m => m
  | .towline t => ((tabGet s.harbour.towlines t).map Towline.peer).getD 0

/-- The nonce domain of the frames sent under a send slot (R343). -/
def sendDomain (slot : Nat) : Nat := 3 * 2 ^ 28 + slot

/-- The key of a slot, no bytes when the slot is free. -/
def slotKeyBytes (s : State) (k : Nat) : List Byte :=
  match tabGet s.cipher.slots k with
  | some x => keyBytes x.key
  | none => []

/-- SACK (R89): bit n tells that frame ACK + 1 + n has been received. -/
def sackOf (t : Transport) : BitVec 32 :=
  t.held.foldl (fun w f =>
    let d := seqDist (seqAdd t.recvAck 1) f.seq
    if d < 32 then w ||| BitVec.ofNat 32 (2 ^ d) else w) 0

/-- FLAGS of a frame the drive sends (R91): CWR goes on DATA frames alone (R105). -/
def flagsOf (t : Transport) (typ : Nat) (first last volatile : Bool) : BitVec 16 :=
  BitVec.ofNat 16 (flag t.sendPhase * 2 ^ 15 + flag (t.ecn && t.eceOut) * 2 ^ 14 + flag (t.cwrNext && typ == 0x10) * 2 ^ 13 +
    flag first * 2 ^ 12 + flag last * 2 ^ 11 + flag volatile * 2 ^ 9)

/-- Send one tagged frame on a line: it takes the next counter value and carries the current ACK, SACK and WINDOW, so
nothing is left to acknowledge; it is sealed under the line's send slot, its header being the additional data (R92). -/
def sendTagged (s : State) (l : Line) (typ berth seq : Nat) (first last : Bool) (payload : List Byte) : State :=
  match tpOf s l with
  | none => s
  | some t =>
    let ctr := t.sendCtr + 1
    let head : Head := { version := 2, typ := typ, mooring := lineField s l, berth := berth, seq := seq, ack := t.recvAck,
                         sack := sackOf t, flags := flagsOf t typ first last (volatileFlag s l), length := payload.length,
                         window := t.recvWindow, reserved := 0, nonceCtr := ctr }
    let slot := sendSlotOf s l
    let bytes := sealedFrame (slotKeyBytes s slot) (sendDomain slot) head [] payload
    let o := Output.frame typ l t.path.port berth seq head.ack head.sack head.flags head.window ctr payload
    let s := updTp s l (fun t => { t with sendCtr := ctr, framesUnderKey := t.framesUnderKey + 1, ackPending := 0,
                                          cwrNext := if typ = 0x10 then false else t.cwrNext, lastTx := s.sessionUs })
    emitOn s t.path.port (lineEnvelope s l t bytes) o

/-- Send an ACK frame (R103): empty, and it consumes no sequence number. -/
def sendAck (s : State) (l : Line) : State :=
  match tpOf s l with
  | none => s
  | some t => sendTagged s l 0x11 0 t.sendSeq false false []

/-- Frames sent and not yet covered. -/
def inFlight (t : Transport) : Nat := (t.unacked.filter (fun f => !f.sacked)).length

/-- Whether the windows allow one more frame (R103, R105). -/
def maySend (t : Transport) : Bool :=
  decide (inFlight t < t.cwnd) && seqLt t.sendSeq t.hostLimit

/-- Send queued frames while the windows allow, at most `fuel` of them. -/
def pumpN : Nat → State → Line → State
  | 0, s, _ => s
  | k + 1, s, l =>
    match tpOf s l with
    | none => s
    | some t =>
      match t.sendQueue with
      | [] => s
      | f :: rest =>
        if maySend t then
          let f := { f with seq := t.sendSeq, sentAt := s.sessionUs, sends := 1 }
          let s := updTp s l (fun t => { t with sendQueue := rest, unacked := t.unacked ++ [f],
                                                sendSeq := seqAdd t.sendSeq 1 })
          pumpN k (sendTagged s l f.typ f.berth f.seq f.first f.last f.payload) l
        else s

/-- Send what the windows allow. -/
def pump (s : State) (l : Line) : State :=
  match tpOf s l with
  | none => s
  | some t => pumpN t.sendQueue.length s l

/-- Cut bytes into payloads of at most `max` bytes. -/
def cutBytes (max : Nat) : Nat → List Byte → List (List Byte)
  | 0, bs => [bs]
  | k + 1, bs => if bs.length ≤ max then [bs] else bs.take max :: cutBytes max k (bs.drop max)

/-- The frames of one capsule (R102): FIRST on the first, LAST and the completion ring ticket on the last. -/
def framesOf (berth : Nat) (ticket : Option (Nat × Nat)) : Bool → List (List Byte) → List TxFrame
  | _, [] => []
  | first, [p] => [{ typ := 0x10, seq := 0, berth := berth, first := first, last := true, payload := p, ticket := ticket,
                     sentAt := 0, sends := 0, expiries := 0, sacked := false }]
  | first, p :: rest =>
    { typ := 0x10, seq := 0, berth := berth, first := first, last := false, payload := p, ticket := none, sentAt := 0, sends := 0,
      expiries := 0, sacked := false } :: framesOf berth ticket false rest

/-- Queue a capsule on a line and send what the windows allow. -/
def sendCapsule (s : State) (l : Line) (berth : Nat) (ticket : Option (Nat × Nat)) (bytes : List Byte) : State :=
  match tpOf s l with
  | none => s
  | some t =>
    let fs := framesOf berth ticket true (cutBytes t.maxPayload bytes.length bytes)
    pump (updTp s l (fun t => { t with sendQueue := t.sendQueue ++ fs })) l

/-- Retransmit a frame (R104): same SEQ and payload, a new NONCE_CTR. -/
def resend (s : State) (l : Line) (seq : Nat) : State :=
  match tpOf s l with
  | none => s
  | some t =>
    match t.unacked.find? (fun f => f.seq == seq) with
    | none => s
    | some f =>
      let s := updTp s l (fun t => { t with unacked := t.unacked.map (fun g =>
        if g.seq = seq then { g with sends := g.sends + 1, sentAt := s.sessionUs } else g) })
      bump (sendTagged s l f.typ f.berth f.seq f.first f.last f.payload) A.MO_RETX_COUNT

/-- A round trip measured on a frame sent once (R104, RFC 6298), in µs. DESIGN CHOICE (log 155): the clock granularity G of
RFC 6298 is 1 µs, and SRTT and RTTVAR are kept in whole µs, rounded down. -/
def sampleRtt (t : Transport) (r : Nat) : Transport :=
  let (srtt, var) :=
    if t.srtt = 0 ∧ t.rttvar = 0 then (r, r / 2)
    else ((7 * t.srtt + r) / 8, (3 * t.rttvar + (if t.srtt ≤ r then r - t.srtt else t.srtt - r)) / 4)
  { t with srtt := srtt, rttvar := var, rtoUs := min 100000 (max 100 (srtt + max 1 (4 * var))) }

/-- The congestion window halved, at most once per round trip (R105). -/
def halveWindow (t : Transport) (seq : Nat) : Transport :=
  if seqLt seq t.recoverSeq then t else { t with cwnd := max 2 (t.cwnd / 2), recoverSeq := t.sendSeq, cwndAcked := 0 }

/-- The congestion window grown by one frame for each window of frames acknowledged (R105). -/
def growWindow (t : Transport) (acked : Nat) : Transport :=
  let n := t.cwndAcked + acked
  if t.cwnd ≤ n then { t with cwnd := t.cwnd + 1, cwndAcked := n - t.cwnd } else { t with cwndAcked := n }

/-- Whether a received ACK and SACK cover a frame of this SEQ. -/
def covers (ack : Nat) (sack : BitVec 32) (seq : Nat) : Bool :=
  seqLt seq ack || (let d := seqDist (seqAdd ack 1) seq; decide (d < 32) && sack.getLsbD d)

/-- A fresh transport on a path, with the windows of R103 and R105. -/
def Transport.fresh (path : Path) (maxPayload recvWindow hostLimit now : Nat) (ecn : Bool) : Transport :=
  { path := path, maxPayload := maxPayload, recvWindow := recvWindow, hostLimit := hostLimit, ecn := ecn, sendSeq := 1,
    recvAck := 1, held := [], ackPending := 0, ackSince := 0, sendQueue := [], unacked := [], cwnd := 32, cwndAcked := 0,
    recoverSeq := 1, srtt := 0, rttvar := 0, rtoUs := 1000, eceOut := false, cwrNext := false, sendPhase := false,
    recvPhase := false, sendCtr := 0, framesUnderKey := 0, oldEpoch := none, rekeyRefusedSince := none, sendRefusedSince := none, lastRx := now,
    lastTx := now }

/-! ### Key slots of a line (R339 to R342, R350) -/

/-- The slot that a number names, if it is not free. -/
def slotOf (s : State) (k : Nat) : Option Slot := tabGet s.cipher.slots k

/-- Change a slot. -/
def updSlot (s : State) (k : Nat) (f : Slot → Slot) : State :=
  { s with cipher := { s.cipher with slots := tabUpd s.cipher.slots k f } }

/-- A slot allocated with its first key material: LIVE, epoch 0 (R341). -/
def putSlot (s : State) (k kind owner : Nat) (key : KeyMaterial) (indexKey : Nat) : State :=
  let x : Slot := { kind := kind, st := .live, epoch := 0, owner := owner, ctr := 0, chunk := 0, refs := 0, key := key,
                    indexKey := indexKey, shadows := [] }
  { s with cipher := { s.cipher with slots := tabPut s.cipher.slots k x } }

/-- Free a slot: its key and every shadow are zeroised (R342). -/
def freeSlot (s : State) (k : Nat) : State :=
  { s with cipher := { s.cipher with slots := tabErase s.cipher.slots k } }

/-- The lowest free slot (R340). A slot that a key record names is not free, although mount has yet to load it. -/
def lowestSlot (s : State) : Option Nat :=
  freeKey (s.flash.keyRecords.foldl (fun t p => if (tabGet t p.1).isSome then t else tabPut t p.1 (none : Option Slot))
    (s.cipher.slots.map (fun p => (p.1, some p.2)))) 65536

/-- Write new key material into a slot as epoch + 1, the old staying as a shadow with `refs` references; none when a fifth
shadow would be needed (R341). -/
def newEpoch (s : State) (k : Nat) (key : KeyMaterial) (refs : Nat) : Option State :=
  match slotOf s k with
  | none => none
  | some x =>
    if 4 ≤ x.shadows.length then none
    else
      let y := { x with key := key, epoch := (x.epoch + 1) % 65536, ctr := 0, chunk := 0,
                        shadows := x.shadows ++ [⟨x.epoch, refs, x.key⟩] }
      some (updSlot s k (fun _ => y))

/-- Rekey the drive's own send direction (R101): the phase is inverted and NONCE_CTR starts again. -/
def rekeySend (s : State) (l : Line) (slot : Nat) : Option State :=
  match slotOf s slot with
  | none => none
  | some x => (newEpoch s slot (nextSecret x.key) 0).map (fun s =>
      updTp (updSlot s slot (fun x => { x with shadows := [] })) l
        (fun t => { t with sendPhase := !t.sendPhase, sendCtr := 0, framesUnderKey := 0, sendRefusedSince := none }))

end Sys2Proof.Machine
end

