-- ==== Sys2Proof/Machine/Rules.lean ====
section
/-! DEFINITION. Where rule entries and rule bodies stand in the index and the engines (R211, R213). -/

namespace Sys2Proof.Machine

/-- Banks of a class, ascending (R204). -/
def banksOf (s : State) (cls : Nat) : List Nat := (List.range 64).filter (fun b => s.index.banks.getD b 0 == cls)

/-- The prefix hash of a rule's word (R211). -/
def ruleHash (s : State) (pfx : List Byte) : Nat := kmac (randomOf s.index.kRule) pfx "FLITAR-RULE" / 2 ^ 84

/-- Bodies that an engine holds. -/
def bodiesOn (s : State) (e : Nat) : Nat := (s.index.ruleEntries.filter (fun x => x.engine == e)).length

/-- The engine that takes a new body (R213): the fewest bodies, ties to the lower number. -/
def bodyEngine (s : State) : Nat :=
  (List.range 64).foldl (fun a e => if bodiesOn s e < bodiesOn s a then e else a) 0

/-- Entries of a rule pair, in order of offset. -/
def pairRules (s : State) (pair : Nat) : List RuleEntry :=
  let mine := fun (e : RuleEntry) => match s.flash.rules.find? (fun r => r.id == e.rule) with
    | some r => r.quay % 2 == pair
    | none => false
  sortBy RuleEntry.offset (s.index.ruleEntries.filter mine)

/-- Entries of a rule pair are written or invalidated at offsets: their cells hold what the bodies give. -/
def dropCells (s : State) (k : Nat) (offsets : List Nat) : State := match s.index.pairs[k]? with
  | some p => { s with index := { s.index with upsets := s.index.upsets.filter (fun u =>
      !((u.1 / 131072 == p.a || u.1 / 131072 == p.b) && offsets.contains (u.1 % 131072))) } }
  | none => s

/-- A member of a rule pair is migrated to the lowest spare (R220) with its entries packed, and becomes a spare; with no spare it is
packed where it is. The compaction ends in the step that starts it (DESIGN CHOICE: the spec gives it no time; log entry 169). -/
def migrateMember (k : Nat) (s : State) (b : Nat) : State :=
  let clear := fun (s : State) => { s with index := { s.index with upsets := s.index.upsets.filter (fun u => u.1 / 131072 != b) } }
  match (banksOf s 4).head? with
  | none => clear (raise s 7 1)
  | some g =>
    let put := fun (p : BankPair) => { p with a := if p.a = b then g else p.a, b := if p.b = b then g else p.b }
    clear { s with index := { s.index with banks := listSet (listSet s.index.banks g 3) b 4, pairs := s.index.pairs.modify k put } }

/-- A pair whose append offset has reached the end of its banks is compacted (R211): its live entries are packed into
ascending offsets in their order, each member in turn being migrated. -/
def compactPair (s : State) (pair : Nat) : State :=
  let s := match s.index.pairs[pair]? with
    | some p => ([p.a, p.b].filter p.holds).foldl (migrateMember pair) s
    | none => s
  let mine := pairRules s pair
  let packed := (List.range mine.length).filterMap (fun k => (mine[k]?).map (fun e => { e with offset := k }))
  let rest := s.index.ruleEntries.filter (fun e => !(mine.map RuleEntry.rule).contains e.rule)
  { s with index := { s.index with ruleEntries := rest ++ packed,
                                   appendAt := tabPut s.index.appendAt pair mine.length } }

/-- A rule takes its entry at the append offset of its pair, in both members; its body stands in an engine. -/
def enterRule (s : State) (r : Rule) (engine : Nat) : State :=
  let pair := r.quay % 2
  let s := if 131072 ≤ tabGetD s.index.appendAt pair 0 then compactPair s pair else s
  let o := tabGetD s.index.appendAt pair 0
  let e : RuleEntry := { offset := o, rule := r.id, engine := engine }
  dropCells { s with index := { s.index with ruleEntries := s.index.ruleEntries ++ [e],
                                             appendAt := tabPut s.index.appendAt pair (o + 1) } } pair [o]

/-- A new rule: its body goes to the engine that has room (R213). -/
def placeRule (s : State) (r : Rule) : State := enterRule s r (bodyEngine s)

/-- No rule is in the index. -/
def clearRules (s : State) : State :=
  { s with index := { s.index with ruleEntries := [], appendAt := [],
                                   upsets := s.index.upsets.filter (fun u => s.index.banks.getD (u.1 / 131072) 0 != 3) } }

/-- Rule entries and bodies are built afresh from the rule bodies, in ascending RULE_ID order (R211, R213). -/
def rebuildRules (s : State) : State := (sortBy Rule.id s.flash.rules).foldl placeRule (clearRules s)

/-- Rule entries are built afresh while every body stays in its engine (R213, R327). -/
def reloadRules (s : State) : State :=
  let was := s.index.ruleEntries
  (sortBy Rule.id s.flash.rules).foldl (fun s r => match was.find? (fun e => e.rule == r.id) with
    | some e => enterRule s r e.engine
    | none => placeRule s r) (clearRules s)

/-- Rules leave the index: each is invalidated at its offset. -/
def removeRules (s : State) (ids : List Nat) : State :=
  let gone := s.index.ruleEntries.filter (fun e => ids.contains e.rule)
  let s := (List.range 2).foldl (fun s k =>
    dropCells s k (((pairRules s k).filter (fun e => ids.contains e.rule)).map RuleEntry.offset)) s
  { s with index := { s.index with ruleEntries := s.index.ruleEntries.filter (fun e => !gone.contains e) } }

end Sys2Proof.Machine
end

