-- ==== Sys2Proof/Machine/Berths.lean ====
section
/-! DEFINITION. Berths: completions and their ring (R110, R131, R132, R138, R160), tags (R123), commit sequence numbers
(R33 to R36), the sequencer's slots (R35), seals (R134, R139, R140) and teardown (R114). -/

namespace Sys2Proof.Machine

/-- The berth of a global number, if some mooring owns it. -/
def berthOf (s : State) (b : Nat) : Option Berth := tabGet s.berths b

/-- Change a berth. -/
def updBerth (s : State) (b : Nat) (f : Berth → Berth) : State := { s with berths := tabUpd s.berths b f }

/-- A berth as R120 allocates it. -/
def Berth.fresh (index mooring now : Nat) : Berth :=
  { index := index, mooring := mooring, tearing := false, sq := [], sqTail := 0, cq := [], cqTail := 0, cqWait := [],
    nextTicket := 0, tags := [], asm := none, rx := .clean, lastCsn := 0, deferreds := [], overflow := false,
    lostCount := 0, unlisted := [], reset := none, lastDelivered := now, refused := 0, completed := 0 }

/-- Service is open (R385). -/
def serviceOpen (s : State) : Bool := decide (2 ≤ s.phase)

/-! ### Completions -/

/-- A completion with nothing but its tag, status and CSN. VERIFIED of a GET or EXPORT that returns no bytes with any status but
OK is all ones (R155). -/
def Completion.plain (opcode tag : Nat) (st : Status) (csn : Nat) : Completion :=
  { opcode := opcode, flags := 0, tag := tag, status := statusCode st, detail := 0, csn := csn, version := 0,
    valueLen := 0,
    verified := if (opcode = 0x01 ∨ opcode = 0x08) ∧ st ≠ .ok ∧ st ≠ .okDeferredPending then 0xFFFFFFFF else 0,
    result := zeroBytes 16, value := [], streamed := false, voidOf := 0 }

/-- Completions given to the berths in use, sent or held (R131, R132). -/
def completionsGiven (s : State) : Nat := s.berths.foldl (fun n p => n + p.2.nextTicket + p.2.cqWait.length) 0

/-- RETRY_US in RESULT (R127): the drive's estimate, at least 10. -/
def retryResult (s : State) : List Byte :=
  beBytes (max 10 (Config.retryUs s.freeN s.boardUs (completionsGiven s) % 2 ^ 32)) 4 ++ zeroBytes 12

/-- A refusal before admission (R33): CSN 0, with the hint of R127 where the status carries one. -/
def refusal (s : State) (opcode tag : Nat) (st : Status) : Completion :=
  let c := Completion.plain opcode tag st 0
  if st = .busyActivating ∨ st = .retry ∨ st = .throttled then { c with result := retryResult s } else c

/-- The bytes of a completion capsule (R110); a streamed one is followed by the trailer of R160. -/
def completionBytes (c : Completion) : List Byte :=
  let st := if c.streamed then 0 else c.status
  let det := if c.streamed then 0 else c.detail
  let ver := if c.streamed then 0 else c.verified
  beBytes c.opcode 1 ++ beBytes c.flags 1 ++ beBytes c.tag 2 ++ beBytes st 2 ++ beBytes det 2 ++ beBytes c.csn 8 ++
    beBytes c.version 8 ++ beBytes c.valueLen 4 ++ beBytes ver 4 ++ fit c.result 16 ++ c.value ++
    (if c.streamed then
      beBytes c.status 2 ++ beBytes c.detail 2 ++ beBytes c.verified 4 ++ beBytes c.value.length 4 ++ zeroBytes 4
    else [])

/-- The lowest deferred index not yet announced (R138). -/
def nextAnnounce (b : Berth) : Option Nat :=
  listMin? ((b.deferreds.filter (fun d => !d.announced)).map Deferred.index)

/-- A completion with status OK announces one deferred record (R138). -/
def announce (b : Berth) (c : Completion) : Berth × Completion :=
  match c.status, nextAnnounce b with
  | 0, some i =>
    ({ b with deferreds := b.deferreds.map (fun d => if d.index = i then { d with announced := true } else d) },
     { c with status := statusCode .okDeferredPending, detail := i })
  | _, _ => (b, c)

/-- Write a completion into the berth's ring: its tag becomes free, and its frames are queued on the mooring, unless they must
wait for a void marker (R301). -/
def writeCompletion (s : State) (n : Nat) (b : Berth) (c : Completion) : State :=
  let (b, c) := announce b c
  let ticket := b.nextTicket
  let b := { b with
    cq := b.cq ++ [(ticket, false)], cqTail := (b.cqTail + 1) % 2048, nextTicket := ticket + 1,
    tags := if c.csn = 0 then b.tags else b.tags.filter (fun t => t.csn != c.csn),
    completed := sat (b.completed + 1) 32, refused := if c.csn = 0 then sat (b.refused + 1) 32 else b.refused }
  let s := { s with berths := tabPut s.berths n b }
  if s.cmds.any (fun x => x.csn == c.voidOf && x.voidFor.isSome) then
    { s with withheld := s.withheld ++ [⟨c.voidOf, b.mooring, n, b.index, ticket, completionBytes c⟩] }
  else sendCapsule s (.mooring b.mooring) b.index (some (n, ticket)) (completionBytes c)

/-- Send what waited for a void marker (R301). -/
def sendWithheld (s : State) (csn : Nat) : State :=
  let due := s.withheld.filter (fun x => x.void == csn)
  due.foldl (fun s x => sendCapsule s (.mooring x.mooring) x.index (some (x.berth, x.ticket)) x.bytes)
    { s with withheld := s.withheld.filter (fun x => x.void != csn) }

/-- A command's completion (R131): held while the ring is full (R132), and not sent once the mooring is torn down, when its
final status is kept for MOORING_LOST (R114). -/
def complete (s : State) (n : Nat) (c : Completion) : State :=
  match berthOf s n with
  | none => s
  | some b =>
    if b.tearing then
      if c.csn = 0 then s
      else updMooring (updBerth s n (fun b => { b with tags := b.tags.filter (fun t => t.csn != c.csn) })) b.mooring
        (fun m => { m with finals := m.finals ++ [(n, c.tag, c.status, c.csn)] })
    else if 1024 ≤ b.cq.length then updBerth s n (fun b => { b with cqWait := b.cqWait ++ [c] })
    else writeCompletion s n b c

/-- Entries covered at the front of a completion ring are released. -/
def dropCovered : List (Nat × Bool) → List (Nat × Bool)
  | (_, true) :: rest => dropCovered rest
  | l => l

/-- Write what waited for the ring, while it has room. -/
def writeWaiting : List Completion → State → Nat → State
  | [], s, _ => s
  | c :: rest, s, n =>
    match berthOf s n with
    | none => s
    | some b =>
      if 1024 ≤ b.cq.length then s
      else writeWaiting rest (writeCompletion { s with berths := tabPut s.berths n { b with cqWait := rest } } n
        { b with cqWait := rest } c) n

/-- The frame carrying a completion has been covered by ACK or SACK: its ring entry is released (R121). -/
def coverTicket (s : State) (n ticket : Nat) : State :=
  match berthOf s n with
  | none => s
  | some b =>
    let cq := dropCovered (b.cq.map (fun e => if e.1 = ticket then (e.1, true) else e))
    writeWaiting b.cqWait { s with berths := tabPut s.berths n { b with cq := cq } } n

/-! ### Commit sequence numbers -/

/-- The next `n` CSNs lie in chunks that are recorded (R36). -/
def csnReady (s : State) (n : Nat) : Bool :=
  match s.flash.chunk with
  | some k => decide (s.seqr.next + n ≤ (k + 1) * 2 ^ 24)
  | none => false

/-- The next CSN assigned. -/
def takeCsn (s : State) : Nat × State :=
  (s.seqr.next, { s with seqr := { s.seqr with next := s.seqr.next + 1, last := s.seqr.next } })

/-- Admit a command of a berth (R32): it takes the next CSN and its tag becomes outstanding. -/
def admitTag (s : State) (n tag : Nat) (committed : Bool) : Nat × State :=
  let (c, s) := takeCsn s
  let s := { s with boot := { s.boot with lastAdmitted := some s.sessionUs } }
  (c, updBerth s n (fun b => { b with tags := b.tags ++ [⟨tag, c, committed⟩], lastCsn := c }))

/-! ### The sequencer's slots -/

/-- The order within a slot (R35): port, then global berth. -/
def slotKey (r : Request) : Nat := portNum r.port * 2 ^ 16 + r.berth

/-- The request at place `i` of a slot may be decided before the others (R34, R35): no capsule of its berth stands before it in
ring order; a BERTH_RESET follows every ring capsule of its berth in the slot, and the resets before it. -/
def slotReady (rs : List Request) (i : Nat) (r : Request) : Bool :=
  let before := (rs.take i).filter (fun x => x.berth == r.berth)
  if r.reset then !rs.any (fun x => x.berth == r.berth && !x.reset) && before.isEmpty
  else !before.any (fun x => !x.reset)

/-- The place of the request of a slot that is decided first: the least by port and berth among those that may be. DEDUCED (log
153): ring order holds a berth's capsule back where a later one of its ring came by port A and it by port B. -/
def slotFirst (rs : List Request) : Option Nat :=
  (List.range rs.length).foldl (fun (m : Option Nat) i =>
    match rs[i]?, m.bind (fun j => rs[j]?) with
    | some r, some q => if slotReady rs i r && decide (slotKey r < slotKey q) then some i else m
    | some r, none => if slotReady rs i r then some i else m
    | none, _ => m) none

/-- The requests of a slot in the order in which they are decided. -/
def slotOrder : Nat → List Request → List Request
  | 0, rs => rs
  | fuel + 1, rs =>
    match slotFirst rs with
    | none => rs
    | some i =>
      match rs[i]? with
      | some r => r :: slotOrder fuel (rs.eraseIdx i)
      | none => rs

/-- With no cycle running, the next slot is formed of at most 8 requests. -/
def formSlot (q : Sequencer) : Sequencer :=
  match q.cycle with
  | [] => { q with cycle := slotOrder 8 (q.collecting.take 8), collecting := q.collecting.drop 8 }
  | _ => q

/-- Present a request to the sequencer. -/
def present (s : State) (r : Request) : State :=
  { s with seqr := formSlot { s.seqr with collecting := s.seqr.collecting ++ [r] } }

/-- The request that the sequencer decides next, if admission runs. -/
def nextRequest (s : State) : Option Request :=
  if s.seqr.stopped then none else s.seqr.cycle.head?

/-- The front request has been decided: it leaves the slot and its ring. -/
def popRequest (s : State) : State :=
  match s.seqr.cycle with
  | [] => s
  | r :: rest =>
    let s := { s with seqr := formSlot { s.seqr with cycle := rest } }
    if r.reset then s else updBerth s r.berth (fun b => { b with sq := b.sq.drop 1 })

/-- Requests of some berths are withdrawn. -/
def withdraw (s : State) (p : Request → Bool) : State :=
  { s with seqr := formSlot { s.seqr with cycle := s.seqr.cycle.filter (fun r => !p r),
                                          collecting := s.seqr.collecting.filter (fun r => !p r) } }

/-- Submission ring entries in use (R121). -/
def sqUsed (b : Berth) : Nat :=
  b.sq.length + (match b.asm with
    | some p => flag p.entry
    | none => 0)

/-! ### Seals -/

/-- Posted writes not yet durable (R133). -/
def undurable (s : State) : List Item := s.flash.items.filter (fun i => i.pseq != 0 && !i.durable)

/-- Whether a posted write lies in a seal's scope (R134). -/
def inScope (q : Seal) (quay berth : Nat) : Bool :=
  match q.scope with
  | 0 => berth == q.berth
  | 1 => quay == q.quay
  | _ => true

/-- Deferred errors outstanding (R139): CSN, quay, berth, index. -/
def outstandingErrors (s : State) : List (Nat × Nat × Nat × Nat) :=
  s.berths.flatMap (fun p =>
    p.2.deferreds.map (fun d => (d.csn, d.quay, p.1, d.index)) ++
    (if p.2.overflow then p.2.unlisted.map (fun u => (u.1, u.2, p.1, 0xFFFF)) else []))

/-- What a seal would end with now (R134, R139, R140): none while it must wait; a status, DETAIL and RESULT. -/
def sealVerdict (s : State) (q : Seal) : Option (Status × Nat × List Byte) :=
  match berthOf s q.berth with
  | some b =>
    if q.scope ≤ 2 ∧ b.overflow then some (.deferredOverflow, 0, [])
    else match listMin? (b.deferreds.map Deferred.index) with
      | some i => some (.deferred, i, [])
      | none => pendingVerdict
  | none => pendingVerdict
where
  /-- The second case of R139, and the completion of R134. -/
  pendingVerdict : Option (Status × Nat × List Byte) :=
    match (sortBy (fun e : Nat × Nat × Nat × Nat => e.1)
        ((outstandingErrors s).filter (fun e => decide (e.1 < q.csn) && inScope q e.2.1 e.2.2.1))).head? with
    | some e => some (.deferred, e.2.2.2, beBytes e.1 8 ++ beBytes e.2.2.1 2)
    | none =>
      if (undurable s).any (fun i => decide (i.csn < q.csn) && inScope q i.quay i.berth) then none
      else some (.ok, 0, [])

/-- The outcome of a register write that was sent late: a capsule's completion, or a single write's outcome. -/
def registerDone (s : State) (w : Nat × Nat × Option (Nat × Nat)) (st : Status) : State :=
  match w.2.2 with
  | some (n, tag) => complete s n (Completion.plain 0x51 tag st w.2.1)
  | none => { s with out := s.out ++ [Output.writeDone w.1 w.2.1 (statusCode st)] }

/-- Answer a SEAL capsule. -/
def finishSeal (s : State) (q : Seal) (v : Status × Nat × List Byte) : State :=
  match q.purpose with
  | .capsule n tag =>
    complete s n { Completion.plain 0x40 tag v.1 q.csn with detail := v.2.1, result := fit v.2.2 16 }
  | .modeChange =>
    let w := s.mode.waiter
    let more := s.mode.cause == 0x0A && s.seals.any (fun x => x.purpose == .shutdown)
    let s := { s with mode := { s.mode with changing := more, waiter := none } }
    match w with
    | some w => registerDone s w .ok
    | none => s
  | .shutdown => { s with mode := { s.mode with changing := s.mode.waiter.isSome } }
  | .activation => { s with update := { s.update with sealed := true } }

/-- End every pending seal whose verdict is in, in order of CSN. -/
def reviewSeals (s : State) : State :=
  s.seals.foldl (fun s q =>
    match sealVerdict s q with
    | none => s
    | some v => finishSeal { s with seals := s.seals.filter (fun x => x != q) } q v) s

/-- Begin a seal; it ends at once where its verdict is in. -/
def beginSeal (s : State) (q : Seal) : State := reviewSeals { s with seals := s.seals ++ [q] }

/-! ### Resets, endings -/

/-- Admitted commands of a berth that are not complete, a pending reset's own tag apart. -/
def runningTags (b : Berth) : Nat := b.tags.length

/-- The deferred record as a MOORING_LOST entry (R369, KIND 2). -/
def deferredEntry (n : Nat) (d : Deferred) : List Byte :=
  leBytes n 2 ++ leBytes d.tag 2 ++ leBytes 2 1 ++ leBytes d.index 1 ++ leBytes d.status 2 ++ leBytes d.csn 8 ++
    leBytes d.digest 16

/-- Cut a list into lists of at most `k`. -/
def chunksOf {α : Type} (k : Nat) : Nat → List α → List (List α)
  | 0, _ => []
  | fuel + 1, xs => if xs.length ≤ k then [xs] else xs.take k :: chunksOf k fuel (xs.drop k)

/-- MOORING_LOST records (R369): parts of at most 126 entries. -/
def mooringLost (s : State) (id : Nat) (m : Mooring) : State :=
  let entries := m.finals.map (fun f => leBytes f.1 2 ++ leBytes f.2.1 2 ++ leBytes 0 2 ++ leBytes f.2.2.1 2 ++
      leBytes f.2.2.2 8 ++ zeroBytes 16) ++
    m.discarded.map (fun d => leBytes d.1 2 ++ leBytes d.2 2 ++ leBytes 1 2 ++ zeroBytes 26) ++
    m.berths.flatMap (fun n => match berthOf s n with
      | some b => b.deferreds.map (deferredEntry n)
      | none => [])
  let parts := chunksOf 126 (entries.length + 1) entries
  (List.range parts.length).foldl (fun s i =>
    logRecord s 0x0031 (src 12 0) false (leBytes id 2 ++ leBytes m.role 1 ++ leBytes m.cause 1 ++ leBytes m.subject 8 ++
      leBytes i 2 ++ leBytes parts.length 2 ++ (parts.getD i []).flatten)) s

/-- A set that is not committed is discarded and its lock released (R413): UPDATE_ABANDONED with its cause. -/
def abandonStaging (s : State) (cause : Nat) : State :=
  let u := s.update
  let s := { s with update := { u with st := .empty, owner := 0, manifest := none, staged := 0 },
                    flash := { s.flash with update := none, deltas := [] } }
  raise (logRecord s 0x0071 (src 5 0) true (leBytes u.owner 2 ++ leBytes cause 1 ++ [0] ++ leBytes u.staged 4)) 4 5

/-- What a mooring owns is released when it ends (R59, R374, R413): shadows, the freeze and the staging lock. -/
def releaseOwned (s : State) (id : Nat) : State :=
  let mine := s.shadows.filter (fun h => h.owner == id)
  let s := { s with shadows := s.shadows.filter (fun h => h.owner != id) }
  let s := mine.foldl (fun s h => logRecord s 0x0021 (src (blockOfPage h.page) (pageInstance h.page)) false
    (leBytes h.page 2 ++ leBytes h.owner 2)) s
  let s : State := match s.log.frozen with
    | some f => if f.owner = id then endFreeze s id 1 else s
    | none => s
  if s.update.st = .staging ∧ s.update.owner = id then abandonStaging s 3 else s

/-- Free a mooring's ID, slots and berths; the slots of a torn-down mooring went at its teardown (R114, step 3). -/
def freeMooring (s : State) (id : Nat) (m : Mooring) : State :=
  let s := if m.st = .tearingDown then s else freeSlot (freeSlot s m.sendSlot) m.recvSlot
  let mine := fun (n : Nat) => m.berths.contains n
  { s with
    moorings := tabErase s.moorings id
    berths := s.berths.filter (fun p => !mine p.1)
    seals := s.seals.filter (fun q => match q.purpose with
      | .capsule n _ => !mine n
      | _ => true)
    flash := { s.flash with items := s.flash.items.map (fun i =>
      if mine i.berth then { i with berth := 16384 } else i) } }

/-- Tags that a berth's undecided capsules carry (R114, step 1). -/
def undecidedTags (b : Berth) : List Nat :=
  b.sq.map (fun e => beAt (fit e.bytes 32) 2 2) ++ (match b.asm with
    | some p => if p.entry then [beAt (fit p.bytes 32) 2 2] else []
    | none => [])

/-- The teardown point of a mooring (R114, steps 1 to 4). -/
def teardown (s : State) (id cause : Nat) : State :=
  match mooringOf s id with
  | none => s
  | some m =>
    if m.st = .tearingDown then s
    else
      let s := withdraw s (fun r => m.berths.contains r.berth)
      let gone := m.berths.flatMap (fun n => match berthOf s n with
        | some b => (undecidedTags b).map (fun t => (n, t))
        | none => [])
      let held := m.berths.flatMap (fun n => match berthOf s n with
        | some b => (b.cqWait.filter (fun c => c.csn != 0)).map (fun c => (n, c.tag, c.status, c.csn))
        | none => [])
      let close := fun (b : Berth) =>
        let left := b.tags.filter (fun t => !b.cqWait.any (fun c => c.csn == t.csn))
        { b with tearing := true, sq := [], asm := none, rx := .clean, cqWait := [], tags := left }
      let s := { s with berths := s.berths.map (fun p => if m.berths.contains p.1 then (p.1, close p.2) else p) }
      let s := if cause = 7 then s else sendTagged s (.mooring id) 0x14 0 m.tp.sendSeq false false [BitVec.ofNat 8 cause]
      let s := freeSlot (freeSlot s m.sendSlot) m.recvSlot
      let dead := { m with st := .tearingDown, cause := cause, goneSent := true, discarded := gone, finals := held }
      let s := updMooring s id (fun _ => dead)
      let s := updTp s (.mooring id) (fun t => { t with sendQueue := [], unacked := [], held := [] })
      let s := { s with withheld := s.withheld.filter (fun x => x.mooring != id) }
      let s := releaseOwned s id
      raise (bump s A.MO_LOST_COUNT) 0x0C 1

/-- Every admitted command of the mooring has completed. -/
def mooringDrained (s : State) (m : Mooring) : Bool :=
  m.berths.all (fun n => match berthOf s n with
    | some b => b.tags.isEmpty
    | none => true)

/-! ### Acknowledgement (R103 to R105, R121) -/

/-- A frame's ACK, SACK, WINDOW, ECE and CWR take effect on what the drive has sent. -/
def processAck (s : State) (l : Line) (ack : Nat) (sack : BitVec 32) (window : Nat) (ece cwr : Bool) : State :=
  match tpOf s l with
  | none => s
  | some t =>
    let newly := t.unacked.filter (fun f => !f.sacked && covers ack sack f.seq)
    let t := newly.foldl (fun t f => if f.sends = 1 then sampleRtt t (s.sessionUs - f.sentAt) else t) t
    let kept := (t.unacked.map (fun f => if covers ack sack f.seq then { f with sacked := true } else f)).filter
      (fun f => !seqLt f.seq ack)
    let t := { t with unacked := kept }
    let t := if newly.isEmpty then t else growWindow t newly.length
    let limit := seqAdd ack window
    let t := { t with hostLimit := if seqLt t.hostLimit limit ∨ t.hostLimit = limit then limit else t.hostLimit }
    let t : Transport := if t.ecn && ece then { halveWindow t ack with cwrNext := true } else t
    let t : Transport := if t.ecn && cwr then { t with eceOut := false } else t
    -- fast retransmit: three frames with higher SEQ acknowledged, this one not (R104)
    let lost := t.unacked.filter (fun f => !f.sacked && f.sends == 1 &&
      decide (3 ≤ (t.unacked.filter (fun g => g.sacked && seqLt f.seq g.seq)).length))
    let t := lost.foldl (fun t f => halveWindow t f.seq) t
    let s := updTp s l (fun _ => t)
    let s := lost.foldl (fun s f => resend s l f.seq) s
    let s := (newly.filterMap TxFrame.ticket).foldl (fun s k => coverTicket s k.1 k.2) s
    pump s l

/-! ### Power states (R322 to R325) -/

/-- Enter power state `k` (R322): in P2 and deeper the engines other than pilots are parked, the rail is at MIN_MV and the
hot-key banks are off and lose their entries (R218); from P4 the map cache is dropped. -/
def setPState (s : State) (k : Nat) : State :=
  if s.pstate.cur = k then s
  else
    let was := s.pstate.cur
    let s := { s with tide := { s.tide with frozenUntil := s.sessionUs + 100000 } }
    let s := raise { s with pstate := { s.pstate with prev := was, cur := k } } 1 3
    if 2 ≤ k ∧ was < 2 then
      { s with
        pstate := { s.pstate with railSaved := s.tide.rail }
        tide := { s.tide with rail := fieldOf s A.HM_RAIL_CTRL 9 0 }
        index := { s.index with powered := false, hot := [], chains := if k = 4 then [] else s.index.chains,
                                upsets := s.index.upsets.filter (fun u => s.index.banks.getD (u.1 / 131072) 0 == 3) } }
    else if 2 ≤ k then
      { s with index := { s.index with chains := if k = 4 then [] else s.index.chains } }
    else if 2 ≤ was then
      let s := { s with tide := { s.tide with rail := s.pstate.railSaved }, index := { s.index with powered := true } }
      if was = 4 then reloadRules { s with index := { s.index with dir := (s.flash.saved.map (fun k => k.tables.dir)).getD [] } } else s
    else s

/-- The delivery of a FIRST frame ends a state from P1 to P4 (R325). -/
def wake (s : State) : State :=
  let s := if s.pstate.excursion.isSome then { s with pstate := { s.pstate with excursion := none } } else s
  setPState s 0

end Sys2Proof.Machine
end

