-- ==== Sys2Proof/Machine/Derive.lean ====
section
/-! DEFINITION. Figures the drive computes from its state: regions and sensors (R303 to R305), ballast, fill and the space
conditions (R286, R288), life (R261, R262), the tide's ceiling (R306) and dry-dock limit (R309), the horizon (R198),
roles of engines (R18, R22). -/

namespace Sys2Proof.Machine

/-- The drive runs: its controller is out of reset and no power fail has been declared. -/
def live (s : State) : Bool := s.power.running && s.power.phase == .running

/-! ### Dies, planes, blocks (R224, R230) -/

/-- The channel of a global die. -/
def chanOf (die : Nat) : Nat := die / 16

/-- The hull parity stripe of a die (R230). -/
def stripeOf (die : Nat) : Nat := 16 * (chanOf die / 16) + die % 16

/-- A die's stripe position. -/
def stripePos (die : Nat) : Nat := chanOf die % 16

/-- The 16 dies of a stripe. -/
def stripeDies (s : Nat) : List Nat := (List.range 16).map (fun c => 16 * (16 * (s / 16) + c) + s % 16)

/-- The global number of a block: its die, plane and block within the plane. -/
def blockNo (die plane block : Nat) : Nat := die * 4096 + plane * 1024 + block

/-- The die of a block. -/
def dieOfBlock (b : Nat) : Nat := b / 4096

/-- The plane of a block, as 4 × die + plane. -/
def planeOfBlock (b : Nat) : Nat := b / 1024

/-- A block of a mirrored region (R226): eight of each plane of die 15 for the checkpoint region (R292), the logbook's
(R363), and the banks, markers and staging area of die 13 (R406). -/
def mirrored (b : Nat) : Bool :=
  let ch := dieOfBlock b / 16
  let d := dieOfBlock b % 16
  let plane := b / 1024 % 4
  let n := b % 1024
  if d = 15 then decide (1016 ≤ n)
  else if d = 14 then
    decide (1020 ≤ n) && (ch == 4 || ch == 20 || ch == 36 || ch == 52 || ((ch == 12 || ch == 44) && plane == 0))
  else if d = 13 then
    decide (1020 ≤ n) && ((ch % 16 == 0 && plane == 0) || ((ch == 8 || ch == 40) && plane == 1))
  else false

/-- The blocks of the mirrored regions, in rising order. -/
def mirroredBlocks : List Nat := (List.range 64).flatMap (fun ch => [13, 14, 15].flatMap (fun d => (List.range 4).flatMap (fun plane =>
  ((List.range 8).map (fun k => blockNo (16 * ch + d) plane (1016 + k))).filter mirrored)))

/-- How many they are. -/
def mirroredTotal : Nat := 2144

/-- A die that has never been written about: serving and idle. -/
def Die.fresh : Die :=
  { st := 0, op := 0, suspends := 0, plane := 0, block := 0, runSince := 0, suspendedAt := 0, readsServed := 0,
    queuedReads := 0, readSec := 0, reads1 := 0, retried1 := 0, calAt := 0, calTemp := 0, calDue := false }

/-- A block that has never been used. -/
def Block.fresh : Block :=
  { tlc := false, erases := 0, wear := 0, careens := 0, s0 := 0, residue := 0, reads := 0, bad := false,
    retired := false, unfinished := false, eraseFails := 0, firstCycle := true }

/-- A plane in service. -/
def Plane.fresh : Plane := { st := 0, careens := 0, retired := 0, drift := 0, measured := false, gone := false }

/-- A die out of any dock. -/
def Dock.fresh : Dock :=
  { phase := 0, plane := 0, pulses := 0, verified := 0, retired := 0, since := 0, heated := false, aborted := false,
    retryAt := 0, next := 0, overran := false }

/-- The die of a number. -/
def dieOf (s : State) (d : Nat) : Die := tabGetD s.dies d Die.fresh

/-- Change a die. -/
def updDie (s : State) (d : Nat) (f : Die → Die) : State := { s with dies := tabPut s.dies d (f (dieOf s d)) }

/-- The block of a number. -/
def blockOf (s : State) (b : Nat) : Block := tabGetD s.flash.blocks b Block.fresh

/-- Change a block. -/
def updBlock (s : State) (b : Nat) (f : Block → Block) : State :=
  { s with flash := { s.flash with blocks := tabPut s.flash.blocks b (f (blockOf s b)) } }

/-- The plane of 4 × die + plane. -/
def planeOf (s : State) (p : Nat) : Plane := tabGetD s.flash.planes p Plane.fresh

/-- Change a plane. -/
def updPlane (s : State) (p : Nat) (f : Plane → Plane) : State :=
  { s with flash := { s.flash with planes := tabPut s.flash.planes p (f (planeOf s p)) } }

/-- A die's dock. -/
def dockOf (s : State) (d : Nat) : Dock := tabGetD s.careen.docks d Dock.fresh

/-- The activation has fired and has not ended. -/
def activating (s : State) : Bool :=
  s.update.st == .preparing || s.update.st == .prepared || s.update.st == .switching

/-- A background operation may start: none does from the raising of the barrier (R420; which those are, DEDUCED: log entry 205). -/
def mayBegin (s : State) : Bool := !s.seqr.barrier

/-- An accepted test or diagnostic read waits for the end of the activation (R331, R420). -/
def heldBack (s : State) (k : Nat) : Bool := activating s && s.update.held.contains k

/-- A test or diagnostic read is accepted: while an activation has fired it is held. -/
def holdTest (s : State) (k : Nat) : State :=
  if activating s then { s with update := { s.update with held := k :: s.update.held } } else s

/-- Pulses completed (R255, R268): while the train runs, one every 12 ms. -/
def pulsesDone (s : State) (k : Dock) : Nat :=
  if k.phase = 4 then min (fieldOf s A.CA_ANNEAL 15 8) ((s.sessionUs - k.since) / 12000) else k.pulses

/-- Change a die's dock. -/
def updDock (s : State) (d : Nat) (f : Dock → Dock) : State :=
  { s with careen := { s.careen with docks := tabPut s.careen.docks d (f (dockOf s d)) } }

/-- A die is unavailable while in dry dock, calibrating or failed (R232). -/
def dieUnavailable (s : State) (d : Nat) : Bool := (dieOf s d).st != 0

/-- No other die of the same stripe is unavailable (R232). -/
def stripeFree (s : State) (d : Nat) : Bool :=
  (stripeDies (stripeOf d)).all (fun x => x == d || !dieUnavailable s x)

/-- Failed dies in the stripe of a die. -/
def failedInStripe (s : State) (stripe : Nat) : Nat :=
  (s.flash.failedDies.filter (fun d => stripeOf d == stripe)).length

/-! ### Space (R286, R288) -/

/-- Stripes in which a die has failed. -/
def failedStripes (s : State) : List Nat := (s.flash.failedDies.map stripeOf).dedup

/-- A plane that can be careened no more: its heater has failed, or a die of its stripe has (R256, R261). -/
def noCareen (s : State) (p : Nat) : Bool := (planeOf s p).st == 3 || s.flash.failedHeaters.contains p

/-- Blocks that have reached their threshold in a no-careen plane (R286). -/
def wornBlocks (s : State) : Nat :=
  (s.flash.blocks.filter (fun p => noCareen s (planeOfBlock p.1) && !p.2.retired &&
    decide (fieldOf s A.CA_TRIGGER 15 0 ≤ p.2.wear))).length

/-- ballast_remaining (R286). -/
def ballast (s : State) : Nat := 131072 - (s.flash.retired + wornBlocks s + 65536 * (failedStripes s).length)

/-- Granules used and reserved. -/
def committedGranules (s : State) : Nat := s.space.used + s.space.reserved

/-- The capacity of the drive in granules (R158). -/
def capacity : Nat := 3125000000000

/-- fill in permille (R288). -/
def fill (s : State) : Nat := 1000 * committedGranules s / capacity

/-- usable free (R288). -/
def usableFree (s : State) : Nat := s.flash.freeBlocks - (ballast s + 64)

/-- The entry condition of a space state: 1 AMBER, 2 RED, 3 FULL, 4 READ_ONLY. -/
def spaceEntry (s : State) : Nat → Bool
  | 1 => decide (fieldOf s A.DR_SPACE_THR 9 0 ≤ fill s) || decide (usableFree s < fieldOf s A.DR_FREE_THR 15 0)
  | 2 => decide (fieldOf s A.DR_SPACE_THR 25 16 ≤ fill s) || decide (usableFree s < fieldOf s A.DR_FREE_THR 31 16)
  | 3 => decide (1000 ≤ fill s) || decide (usableFree s = 0)
  | 4 => decide (ballast s = 0)
  | _ => true

/-- The leave condition of a space state. -/
def spaceLeave (s : State) : Nat → Bool
  | 1 => decide (fill s + 10 < fieldOf s A.DR_SPACE_THR 9 0) &&
      decide (fieldOf s A.DR_FREE_THR 15 0 + 4096 ≤ usableFree s)
  | 2 => decide (fill s + 10 < fieldOf s A.DR_SPACE_THR 25 16) &&
      decide (2 * fieldOf s A.DR_FREE_THR 31 16 ≤ usableFree s)
  | 3 => decide (fill s < 995) && decide (2048 ≤ usableFree s)
  | _ => false

/-- The most severe space state whose entry condition holds. -/
def spaceWorst (s : State) : Nat :=
  if spaceEntry s 4 then 4 else if spaceEntry s 3 then 3 else if spaceEntry s 2 then 2 else if spaceEntry s 1 then 1
  else 0

/-- The space state that R288 gives now. -/
def spaceNext (s : State) : Nat :=
  let w := spaceWorst s
  if s.space.state = 4 then 4
  else if s.space.state < w then w
  else if s.space.state ≠ 0 ∧ spaceLeave s s.space.state then w
  else s.space.state

/-! ### Life (R261, R262) -/

/-- The highest residue among good blocks in service, with its block. -/
def worstResidue (s : State) : Nat × Nat :=
  s.flash.blocks.foldl (fun acc p =>
    if !p.2.bad && !p.2.retired && decide (acc.1 < p.2.residue) then (p.2.residue, p.1) else acc) (0, 0)

/-- The health of a heater with a drift (R261). -/
def healthOf (s : State) (drift : Nat) : Nat := 65536 - 65536 * drift / max 1 (fieldOf s A.CA_HEATER_LIMIT 23 0)

/-- heater_health with the plane that sets it: 65,536 when no heater has been measured. -/
def heaterHealth (s : State) : Nat × Nat :=
  s.flash.planes.foldl (fun acc p =>
    if p.2.measured && !s.flash.failedHeaters.contains p.1 && decide (healthOf s p.2.drift < acc.1)
    then (healthOf s p.2.drift, p.1) else acc) (65536, 0)

/-- LIFE (R262). -/
def lifeOf (s : State) : Nat :=
  let b := min 65536 (65536 * ballast s / 131072)
  let r := 65536 - (worstResidue s).1
  100 * min b (min r (heaterHealth s).1) / 65536

/-! ### Sensors and regions (R303 to R305) -/

/-- The key of a sensor. -/
def sensorKey (cls num : Nat) : Nat := 4096 * cls + num

/-- Sensors of each class: the index dies and DRAM channels are numbered after the flash packages of class 2, as R64 gives
them no class of their own. -/
def sensorCount : Nat → Nat
  | 0 => 1 | 1 => 1 | 2 => 144 | 3 => 4096 | 4 => 16 | 5 => 2 | 6 => 2 | _ => 6

/-- A sensor whose sampling starts at session time `t`: at power-on, or for a heater-local one at its die's entry to dry
dock. -/
def Sensor.fresh (sampling : Bool) (t : Nat) : Sensor :=
  { samples := [], median := none, lastGood := t, failed := false, goodSince := none, sampling := sampling, sampledAt := none }

/-- The sensor of a class and number. -/
def sensorOf (s : State) (cls num : Nat) : Sensor := tabGetD s.sensors (sensorKey cls num) (Sensor.fresh (cls != 3) 0)

/-- Change a sensor. -/
def updSensor (s : State) (cls num : Nat) (f : Sensor → Sensor) : State :=
  { s with sensors := tabPut s.sensors (sensorKey cls num) (f (sensorOf s cls num)) }

/-- Sampling of a die's heater-local sensors starts or stops (R303). -/
def sampleHeaters (s : State) (die : Nat) (on : Bool) : State :=
  (List.range 4).foldl (fun s p => updSensor s 3 (4 * die + p) (fun x =>
    { x with samples := [], median := none, lastGood := s.sessionUs, goodSince := none, sampling := on, sampledAt := none })) s

/-- The interval at which a sensor is sampled, in µs (R303). -/
def sampleInterval (cls num : Nat) : Nat :=
  if cls = 2 then (if num < 136 then 1000 else 10000) else if cls = 3 then 1000 else if cls = 5 ∨ cls = 6 then 10000 else 100

/-- A sensor's interval has passed since its last sample. -/
def sampleDue (s : State) (cls num : Nat) : Bool := match (sensorOf s cls num).sampledAt with
  | some t => decide (t + sampleInterval cls num ≤ s.sessionUs)
  | none => true

/-- The median of three samples. -/
def median3 (a b c : Int) : Int := max (min a b) (min (max a b) c)

/-- A median lies in its class's plausibility window (R64). -/
def plausible (s : State) (cls : Nat) (m : Int) : Bool :=
  decide (signed (regGet s (regKey A.BW_PLAUS_LO cls)) ≤ m) && decide (m ≤ signed (regGet s (regKey A.BW_PLAUS_HI cls)))

/-- The sensors of a region (R304). -/
def regionSensors (r : Nat) : List Nat :=
  if r = 0 then (List.range 16).map (sensorKey 4)
  else if r ≤ 16 then (List.range 8).map (fun k => sensorKey 2 (8 * (r - 1) + k))
  else if r = 17 then (List.range 16).map (fun k => sensorKey 2 (128 + k))
  else (List.range 2).map (sensorKey 5)

/-- A sensor has been declared failed. -/
def sensorDown (s : State) (k : Nat) : Bool := match tabGet s.sensors k with
  | some x => x.failed
  | none => false

/-- The plausible median of a sensor that has not failed. -/
def sensorValue (s : State) (k : Nat) : Option Int := match tabGet s.sensors k with
  | some x => if x.failed then none else x.median
  | none => none

/-- Step threshold of a region, in 0.1 °C. -/
def stepThreshold (s : State) (r : Nat) : Int :=
  if r = 18 then 400 else (if r = 0 then 1050 else 850) - (fieldOf s A.HM_THERM_MARGIN 15 0 : Int)

/-- Emergency threshold of a region. -/
def emergThreshold (s : State) (r : Nat) : Int :=
  if r = 18 then 450 else (if r = 0 then 1050 else 850) - (fieldOf s A.HM_THERM_MARGIN 31 16 : Int)

/-- The hottest plausible reading among some sensors. -/
def hottestOf (s : State) (ks : List Nat) : Option Int :=
  ks.foldl (fun m k => match m, sensorValue s k with
    | none, v => v
    | m, none => m
    | some a, some b => some (max a b)) none

/-- A region's hottest reading; its step threshold when all its sensors have failed (R304, R305). -/
def regionHottest (s : State) (r : Nat) : Option Int :=
  let ks := regionSensors r
  if ks.all (sensorDown s) then some (stepThreshold s r) else hottestOf s ks

/-- A sensor of classes 0, 1, 2 or 4 to 7 is failed (R305). -/
def anySensorFailed (s : State) : Bool := s.sensors.any (fun p => p.2.failed && decide (p.1 / 4096 ≠ 3))

/-! ### The tide (R306, R309) -/

/-- Effective ceiling in mJ (R306). -/
def effectiveCeiling (s : State) : Nat :=
  let e := min (fieldOf s A.HM_TIDE_CEIL 9 0) s.tide.stepCeil
  let e := if anySensorFailed s then min e (fieldOf s A.HM_TIDE_CEIL 29 20) else e
  let e := if s.mode.cur = 1 then min e (fieldOf s A.HM_TIDE_CEIL 19 10) else e
  if s.pstate.cur = 1 then min e (fieldOf s A.HM_TIDE_P1 9 0) else e

/-- An emergency is declared. -/
def emergency (s : State) : Bool := s.tide.emThermal || s.tide.emSupply

/-- The tide's dry-dock limit (R309). -/
def dockLimit (s : State) : Nat :=
  if 1 ≤ s.tide.step ∨ emergency s then 0
  else
    let e := effectiveCeiling s
    if 250 ≤ e then 64 else if 200 ≤ e then 16 else if 150 ≤ e then 4 else 0

/-- Dies in dry dock. -/
def docked (s : State) : Nat := (s.dies.filter (fun p => p.2.st == 1)).length

/-! ### The index -/

/-- Chains that are dirty or have pending registrations (R198). -/
def liveChains (s : State) : List Chain :=
  (s.index.chains.map Prod.snd).filter (fun c => c.dirtySince.isSome || !c.pending.isEmpty)

/-- The write-back horizon (R198). -/
def horizon (s : State) : Nat := (listMin? ((liveChains s).map Chain.cleanCsn)).getD s.seqr.next

/-! ### Engines (R18, R22) -/

/-- An engine that nothing has happened to. -/
def Engine.fresh : Engine :=
  { deconfigured := false, testing := false, role := none }

/-- The engine of a number. -/
def engineOf (s : State) (n : Nat) : Engine := tabGetD s.engines n Engine.fresh

/-- Change an engine. -/
def updEngine (s : State) (n : Nat) (f : Engine → Engine) : State :=
  { s with engines := tabPut s.engines n (f (engineOf s n)) }

/-- The role that counts give an engine (R18): roles are filled in ascending engine number, in the order 0 pilot, 1 command,
2 media, 3 maintenance; with the engine's index in its role. -/
def roleByCounts (cs : List Nat) (n : Nat) : Nat × Nat :=
  let p := cs.getD 0 8
  let c := p + cs.getD 1 32
  let m := c + cs.getD 2 16
  if n < p then (0, n) else if n < c then (1, n - p) else if n < m then (2, n - c) else (3, n - m)

/-- The bounds of R18, and the sum of 64. -/
def rolesLegal (cs : List Nat) : Bool :=
  match cs with
  | [p, c, m, x] => p == 8 && decide (16 ≤ c) && decide (c ≤ 40) && decide (12 ≤ m) && decide (m ≤ 24) && decide (4 ≤ x) &&
      decide (x ≤ 12) && p + c + m + x == 64
  | _ => false

/-- The default counts of R18. -/
def defaultCounts : List Nat := [8, 32, 16, 8]

/-- An engine's role and its index in it; a replacement has taken another (R22). -/
def roleOf (s : State) (n : Nat) : Nat × Nat := (engineOf s n).role.getD (roleByCounts s.boot.roleCounts n)

/-- Healthy engines of a role, in rising order. -/
def healthy (s : State) (role : Nat) : List Nat :=
  (List.range 64).filter (fun n => !(engineOf s n).deconfigured && (roleOf s n).1 == role)

/-- The media engine that serves a flash channel (R21): number c mod m of the m healthy ones, so that the channels of a lost
one are redistributed (R22). -/
def mediaEngine (s : State) (c : Nat) : Option Nat := (healthy s 2)[c % (healthy s 2).length]?

/-- The channels that an engine serves. -/
def channelsOf (s : State) (n : Nat) : List Nat := (List.range 64).filter (fun c => mediaEngine s c == some n)

/-- Operations queued to a media engine: reads that wait for a die of its channels, and landing pages that wait to be
transferred to one. -/
def mediaQueued (s : State) (n : Nat) : Nat :=
  let cs := channelsOf s n
  listSum ((s.dies.filter (fun p => cs.contains (chanOf p.1))).map (fun p => p.2.queuedReads)) +
    (s.space.pages.filter (fun p => !p.2.closed && cs.contains (chanOf p.2.die))).length

/-- Commands that an engine holds (R21). -/
def engineCmds (s : State) (n : Nat) : List Cmd := s.cmds.filter (fun c => c.engine == n)

/-- The command engine that takes the next command (R21): the fewest outstanding, ties to the lower number. -/
def dispatchEngine (s : State) : Nat :=
  (((healthy s 1).filter (fun n => !(engineOf s n).testing)).foldl (fun (m : Option Nat) n => match m with
    | none => some n
    | some a => if (engineCmds s n).length < (engineCmds s a).length then some n else some a) none).getD 0

/-- STATE of an engine (R334): parked in P2 and P3, powered off in P4, pilots apart. -/
def engineState (s : State) (n : Nat) : Nat :=
  let e := engineOf s n
  if e.deconfigured then 3 else if e.testing then 2
  else if (roleOf s n).1 ≠ 0 ∧ s.pstate.cur = 4 then 4
  else if (roleOf s n).1 ≠ 0 ∧ 2 ≤ s.pstate.cur then 1 else 0

/-! ### Identity -/

/-- HB_ID: whether it is valid, its source and the ID (R430). -/
def harbourId (s : State) : Bool × Nat × Nat :=
  if s.harbour.idSet then (true, 1, fieldOf s A.HB_ID 11 0)
  else if s.power.strapValid then (true, 0, (fieldOf s A.HB_ENCL 11 0 + s.power.slotFirst) % 4096)
  else (false, 0, 0)

/-- HB_STATUS.MEMBERS (R435): the PRESENT and CONFLICT entries, and the drive itself once it has an ID. -/
def harbourMembers (s : State) : Nat :=
  (s.harbour.members.filter (fun p => p.2.st == .present || p.2.st == .conflict)).length + flag (harbourId s).1

/-- The ROOT slots as R245 forms them: one on which the copies disagree is empty. -/
def rootSlots (s : State) : List (Option Nat) :=
  (List.range 4).map (fun k => if s.boot.rootsOut.contains k then none else s.flash.otp.roots.getD k none)

/-- OTP root slots that hold a key and are enabled (R95, R118): slot and hash. -/
def enabledRoots (s : State) : List (Nat × Nat) :=
  (List.range 4).filterMap (fun k => match (rootSlots s).getD k none with
    | some h => if bit (regGet s A.MO_ROOT_SLOTS) k then some (k, h) else none
    | none => none)

/-- The drive is idle (R150): no capsule assembles or waits, no tag is outstanding, nothing posted is undurable and no
seal is pending. A capsule that R122 turns away is not in assembly. -/
def idle (s : State) : Bool :=
  s.berths.all (fun p => p.2.sq.isEmpty && p.2.tags.isEmpty && (match p.2.asm with
    | some a => !a.entry && beAt a.bytes 0 1 != 0x42
    | none => true)) &&
  (undurable s).isEmpty && s.seals.isEmpty && s.seqr.cycle.isEmpty

/-- Rules of a quay. -/
def rulesOf (s : State) (q : Nat) : List Rule := s.flash.rules.filter (fun r => r.quay == q)

/-- Distinct prefix lengths of a quay's rules, ascending (R183). -/
def prefixLens (s : State) (q : Nat) : List Nat := (sortBy id ((rulesOf s q).map (fun r => r.pfx.length))).dedup

/-- An item as a command with CSN `c` sees it: one admitted before a deferred error has taken the posted write's state (R136). -/
def asSeen (c : Nat) (i : Item) : Item :=
  match i.taken with
  | some t => if c < t.below then { i with kind := t.kind, version := t.version, value := t.value } else i
  | none => i

/-- The newest settled item of a key with a CSN below `c`: the key's state as of `c` (R129, R157). -/
def newestItem (items : List Item) (quay : Nat) (key : List Byte) (c : Nat) : Option Item :=
  (items.foldl (fun (m : Option Item) i =>
    if i.quay = quay ∧ i.key = key ∧ i.settled ∧ i.csn < c then
      match m with
      | some y => if y.csn < i.csn then some i else m
      | none => some i
    else m) none).map (asSeen c)

/-- Keys of a quay that are lost now (R157). -/
def lostKeys (s : State) (q : Nat) : Nat :=
  (s.flash.items.filter (fun i => i.quay == q && i.settled && i.kind == .lost &&
    (match newestItem s.flash.items q i.key (2 ^ 64) with
      | some y => y.csn == i.csn
      | none => false))).length

/-! ### Reviews -/

/-- The space state moves by its entry and leave conditions (R288). -/
def reviewSpace (s : State) : State :=
  let n := spaceNext s
  if s.space.state = n then s
  else
    let s := raise { s with space := { s.space with state := n } } 8 0
    if n = 4 then raise s 8 1 else s

/-- LIFE is recomputed (R262): a change is logged and raises LIFE_CHANGED; LOW_WATER never rises. -/
def recomputeLife (s : State) : State :=
  let n := lifeOf s
  let s := { s with careen := { s.careen with lifeAt := s.sessionUs } }
  if s.careen.life = n then s
  else
    let low := min s.flash.lowWater n
    let b := min 65536 (65536 * ballast s / 131072)
    let r := 65536 - (worstResidue s).1
    let s := { s with careen := { s.careen with life := n }, flash := { s.flash with lowWater := low } }
    raise (logRecord s 0x0046 (src 10 0) false
      (leBytes n 1 ++ leBytes low 1 ++ leBytes b 4 ++ leBytes r 4 ++ leBytes (heaterHealth s).1 4)) 9 3

/-- An arming lapses (R418): UPDATE_DISARMED with its cause; the set stays staged. -/
def disarm (s : State) (cause : Nat) : State :=
  if s.update.st = .armed then
    let c := s.update.cohort
    let s := { s with update := { s.update with st := .staged, cohort := 0, switchMs := 0, deadline := 0 } }
    raise (logRecord s 0x0073 (src 5 0) true (leBytes c 4 ++ leBytes cause 1 ++ zeroBytes 3)) 4 2
  else s

/-- SY_PHASE takes a new value (R61). -/
def setPhase (s : State) (p : Nat) : State :=
  if s.phase = p then s
  else
    let was := s.phase
    let s := raise { s with phase := p } 0 2
    if was = 2 then disarm s 4 else s

/-! ### The division of the DRAM (R17) -/

/-- The regions of the 256 GiB of DRAM. -/
inductive DramRegion where
  | mapCache | valueStaging | postedBuffer | blockTables | engineOverflow | berthRings
  deriving DecidableEq, Repr

/-- The size of a region in GiB. -/
def DramRegion.gib : DramRegion → Nat
  | .mapCache => 192 | .valueStaging => 32 | .postedBuffer => 16 | .blockTables => 10 | .engineOverflow => 4 | .berthRings => 2

/-- The size of a region in bytes. -/
def DramRegion.bytes (r : DramRegion) : Nat := r.gib * 2 ^ 30

/-! ### Digests (R186) -/

/-- The bucket of a digest (R186). -/
def bucketOf (digest : Nat) : Nat := digest / 2 ^ 100

/-- The in-flight pair of a digest (R186). -/
def pairOf (digest : Nat) : Nat := digest / 2 ^ 126

/-- Two digests of one quay give one associative word (R186). -/
def sameWord (a b : Nat) : Bool := a / 4096 == b / 4096

/-- The entry writes its key. -/
def opWrites (o : KeyOp) : Bool := o.change != .check

/-! ### Order on keys and windows (R129, R171) -/

/-- The last bucket of a SCAN page's window (R170). -/
def windowEnd (cursor log : Nat) : Nat := min (cursor / 2 ^ 100 + 2 ^ log - 1) (2 ^ 28 - 1)

/-- A digest lies in a page's window. -/
def inPage (cursor log digest : Nat) : Bool := decide (cursor ≤ digest) && decide (bucketOf digest ≤ windowEnd cursor log)

/-- Keys that a job writes. -/
def jobWrites : Job → List KeyOp
  | .write ops => ops.filter opWrites
  | _ => []

/-- Keys that a job reads or writes, by key and digest. -/
def jobKeys : Job → List (List Byte × Nat)
  | .get k d _ _ => [(k, d)]
  | .exist k d => [(k, d)]
  | .exportSegs k d _ _ _ _ _ => [(k, d)]
  | .scan _ _ _ _ _ => []
  | .write ops => ops.map (fun o => (o.key, o.digest))

/-- Two commands of a quay meet on a key: it is the same, or its in-flight word is, which causes a wait and nothing else
(R209). -/
def keysMeet (o : KeyOp) (k : List Byte × Nat) : Bool := o.key == k.1 || sameWord o.digest k.2

/-- A page's window holds a key that a job writes. -/
def pageMeets (page job : Job) : Bool := match page with
  | .scan cursor _ log _ _ => (jobWrites job).any (fun o => inPage cursor log o.digest)
  | _ => false

/-- An earlier command `d` holds back a later command `c` (R129, R171). An aborted write holds back nothing. -/
def holdsBack (d c : Cmd) : Bool :=
  decide (d.csn < c.csn) && d.quay == c.quay && d.voidFor.isNone &&
    ((jobWrites d.job).any (fun o => (jobKeys c.job).any (keysMeet o)) || pageMeets c.job d.job || pageMeets d.job c.job)

/-! ### Leaf chains (R191, R193) -/

/-- The copy of a chain that the leaf directory names. -/
def currentCopy (s : State) (bucket : Nat) : Option LeafCopy :=
  (tabGet s.index.dir bucket).bind (fun loc => (tabGetD s.flash.leaves bucket []).find? (fun l => l.locs.head? == some loc))

/-- Frames that are dirty. -/
def dirtyFrames (s : State) : Nat := listSum (s.index.chains.map (fun c => (c.2.leaves.filter Leaf.dirty).length))


end Sys2Proof.Machine
end

