-- ==== Sys2Proof/Machine/RegRead.lean ====
section
/-! DEFINITION. What a register reads (R42 to R55): stored words, words computed from the drive's state, record pages, and
the _LO registers whose reading latches the _HI partner. -/

namespace Sys2Proof.Machine

/-- Fields put together into a word: value, lowest bit and width of each; a value too wide saturates (R9). -/
def pack (fs : List (Nat × Nat × Nat)) : Word := word (fs.foldl (fun a f => a + sat f.1 f.2.2 * 2 ^ f.2.1) 0)

/-! ### Selectors of windowed registers -/

/-- The selector's value under which a windowed register's word is stored; 0 for every other register. -/
def selOf (s : State) (addr : Nat) : Nat :=
  if addr = A.HM_CLASS then fieldOf s A.HM_CLASS_SEL 2 0
  else if addr = A.BW_PLAUS_LO ∨ addr = A.BW_PLAUS_HI then fieldOf s A.BW_PLAUS_IDX 2 0
  else if addr = A.CF_OVL_TARGET ∨ addr = A.CF_OVL_MASK ∨ addr = A.CF_OVL_VALUE then fieldOf s A.CF_OVL_IDX 6 0
  else if addr = A.MO_DRIVE_CERT_DATA then fieldOf s A.MO_DRIVE_CERT_IDX 6 0
  else if addr = A.HB_HCERT_DATA then fieldOf s A.HB_HCERT_IDX 6 0
  else if addr = A.LB_FAULT_CFG ∨ addr = A.LB_FAULT_N then fieldOf s A.LB_FAULT_SEL 23 16
  else if addr / 0x1000 ≥ 0x10 ∧ addr / 0x1000 ≤ 0x4F ∧ (addr % 0x1000 = 0xB0 ∨ addr % 0x1000 = 0xB4) then
    fieldOf s (addr - addr % 0x1000 + 0xAC) 7 0
  else 0

/-- The key under which a register's word is stored now. -/
def keyOf (s : State) (addr : Nat) : Nat := regKey addr (selOf s addr)

/-! ### Records of the logbook window (R376) -/

/-- The first ledger record at or after a sequence. -/
def ledgerFrom (s : State) (seq : Nat) : Option LogRec := s.flash.ledger.recs.find? (fun r => decide (seq ≤ r.seq))

/-- The record that the window shows on a path: in-band by LB_WIN_SEQ, on the sideband by its cursor. -/
def windowRecord (s : State) (sideband : Bool) : Option LogRec :=
  if sideband then
    match s.sideband.cursor with
    | some q => s.flash.ledger.recs.find? (fun r => r.seq == q)
    | none => none
  else ledgerFrom s ((regGet s A.LB_WIN_SEQ_LO).toNat + 2 ^ 32 * (regGet s A.LB_WIN_SEQ_HI).toNat)

/-- The newest sequence of a stream. -/
def lastOf (x : LogStream) : Nat := match x.recs.getLast? with
  | some r => r.seq
  | none => 0

/-! ### 64-bit figures -/

/-- The figure whose lower half a _LO register reads, with the address of its _HI partner and whether a read latches it. -/
def wideReg (s : State) (sideband : Bool) (addr : Nat) : Option (Nat × Nat × Bool) :=
  let lat := fun (n : Nat) => some (n, addr + 4, true)
  if addr = A.SY_CSN_LO then lat s.seqr.last
  else if addr = A.HM_SESSION_US_LO then lat s.sessionUs
  else if addr = A.HM_POWERED_S_LO then lat (s.poweredUs / 1000000)
  else if addr = A.LB_FROZEN_SEQ_LO then lat s.log.frozenSeq
  else if addr = A.LB_FIRST_SEQ_LO then lat s.flash.general.first
  else if addr = A.LB_LAST_SEQ_LO then lat (s.log.nextSeq - 1)
  else if addr = A.LB_LEDGER_FIRST_LO then lat s.flash.ledger.first
  else if addr = A.LB_LEDGER_LAST_LO then lat (lastOf s.flash.ledger)
  else if addr = A.LB_NONCE_SEQ_LO then lat s.log.nonceSeq
  else if addr = A.LB_WIN_SHOWN_LO then lat (match windowRecord s sideband with
    | some r => r.seq
    | none => 0)
  else if addr = A.LB_BOOT_SEQ_LO then lat s.boot.bootSeq
  else if addr = A.CP_SLOT_CTR_LO then lat (match slotOf s (fieldOf s A.CP_SLOT_SEL 15 0) with
    | some x => if x.kind = 2 then (match mooringOf s x.owner with
        | some m => m.tp.sendCtr
        | none => 0) else x.ctr
    | none => 0)
  else if addr = A.CM_HORIZON_LO then lat (if s.boot.readyUnits then horizon s else 0)
  else if addr = A.CA_CAREENS_LO then lat (listSum (s.flash.planes.map (fun p => p.2.careens)))
  else if addr = A.DR_USED_LO then lat s.space.used
  else if addr = A.DR_KEYS_LO then lat s.space.keys
  else if addr = A.DR_DURABLE_LO then lat s.space.durableCsn
  else if addr = A.DR_CKPT_SEQ_LO then lat s.space.ckptSeq
  else if addr = A.HB_MEMBER_SERIAL_LO then lat (match tabGet s.harbour.members (fieldOf s A.HB_MEMBER_SEL 11 0) with
    | some m => m.serial
    | none => 0)
  else if addr = A.SY_SERIAL_LO then some (s.flash.otp.serial, addr + 4, false)
  else none

/-! ### Record pages (R119, R151, R183) -/

/-- Word k of the record of mooring n (R119). -/
def mooringWord (s : State) (n k : Nat) : Word :=
  match mooringOf s n with
  | none => 0
  | some m =>
    let st := match m.st with
      | .moored => 2 | .closing => 3 | .tearingDown => 4
    let berth := fun (j : Nat) => m.berths.getD j 0xFFFF
    match k with
    | 0 => pack [(st, 28, 4), (m.role, 24, 4), (m.berths.length, 16, 5), (n % 8, 8, 3), (flag m.tp.ecn, 2, 1),
        (flag m.tp.path.ipv6, 1, 1), (portNum m.tp.path.port, 0, 1)]
    | 1 => pack [(m.tp.maxPayload, 0, 16)]
    | 2 => word m.subject
    | 3 => word (m.subject / 2 ^ 32)
    | 4 => word m.generation
    | 5 => pack [(m.sendSlot, 16, 16), (m.recvSlot, 0, 16)]
    | 6 => word m.tp.sendSeq
    | 7 => word m.tp.recvAck
    | k => pack [(berth (2 * (k - 8) + 1), 16, 16), (berth (2 * (k - 8)), 0, 16)]

/-- Word k of the record of berth n (R151). -/
def berthWord (s : State) (n k : Nat) : Word :=
  match berthOf s n with
  | none => 0
  | some b =>
    let mask := listSum (b.deferreds.map (fun d => 2 ^ d.index))
    match k with
    | 0 => pack [(if b.tearing then 3 else if b.reset.isSome then 2 else 1, 28, 4), (b.index, 24, 4), (b.mooring, 12, 12)]
    | 1 => pack [((b.sqTail + 2048 - sqUsed b) % 2048, 0, 11)]
    | 2 => pack [(b.sqTail, 0, 11)]
    | 3 => pack [((b.cqTail + 2048 - b.cq.length) % 2048, 0, 11)]
    | 4 => pack [(b.cqTail, 0, 11)]
    | 5 => pack [((s.cmds.filter (fun c => c.berth == n && c.stage == .waiting && s.cmds.any (fun d => holdsBack d c))).length, 16, 11), (b.tags.length, 0, 11)]
    | 6 => word b.lastCsn
    | 8 => word (((undurable s).filter (fun i => i.berth == n)).map Item.csn).dedup.length
    | 9 => pack [(flag b.overflow, 31, 1), (b.deferreds.length, 16, 7), (b.lostCount, 0, 16)]
    | 10 => word mask
    | 11 => word (mask / 2 ^ 32)
    | 12 => pack [((s.seals.filter (fun q => match q.purpose with
        | .capsule m _ => m == n
        | _ => false)).length, 0, 16)]
    | 13 => word (sat ((s.sessionUs - b.lastDelivered) / 1000) 32)
    | 14 => word b.refused
    | 15 => word b.completed
    | _ => 0

/-- Word k of the record of quay q (R183). -/
def quayWord (s : State) (q k : Nat) : Word :=
  match tabGet s.flash.quays q with
  | none => 0
  | some y =>
    let len := fun (i : Nat) => (prefixLens s q).getD i 0xFF
    match k with
    | 0 => pack [(if y.erasing then 2 else 1, 28, 4), (flag y.posted, 24, 1)]
    | 1 => word y.maxValue
    | 2 => word y.guarGib
    | 3 => word y.limitGib
    | 4 => word y.used
    | 6 => word y.keys
    | 8 => word y.slot
    | 9 => word (rulesOf s q).length
    | 10 => pack [(len 3, 24, 8), (len 2, 16, 8), (len 1, 8, 8), (len 0, 0, 8)]
    | 11 => word (sat y.reserved 32)
    | 12 => word y.createCsn
    | 14 => word y.refused
    | 15 => word (lostKeys s q)
    | _ => 0

/-- The record pages' latched pairs: the figure of a _LO word. -/
def recordWide (s : State) (addr : Nat) : Option Nat :=
  let page := addr / 0x1000
  let k := addr % 0x40 / 4
  if blockOfPage page = 16 ∧ k = 6 then
    some (match berthOf s ((addr - 0x100000) / 0x40) with
      | some b => b.lastCsn
      | none => 0)
  else if blockOfPage page = 17 ∧ (k = 4 ∨ k = 6 ∨ k = 12) then
    some (match tabGet s.flash.quays ((addr - 0x200000) / 0x40) with
      | some y => if k = 4 then y.used else if k = 6 then y.keys else y.createCsn
      | none => 0)
  else none

/-! ### The common header (R45 to R53) -/

/-- The instance of a page has been deconfigured (R49). -/
def pageDown (s : State) (page : Nat) : Bool :=
  if 0x50 ≤ page ∧ page ≤ 0x8F then (engineOf s (page - 0x50)).deconfigured
  else if page = 10 ∨ page = 11 then (if page = 10 then s.linkA.heldDown else s.linkB.heldDown)
  else false

/-- READY of a block page (R49). -/
def pageReady (s : State) (page : Nat) : Bool :=
  !pageDown s page &&
  (let b := blockOfPage page
   if b = 1 ∨ b = 2 ∨ b = 3 ∨ b = 4 then s.boot.readyCore
   else if b = 9 ∨ b = 10 then s.boot.readySpace
   else s.boot.readyUnits)

/-- The pending shadow of a page. -/
def shadowOf (s : State) (page : Nat) : Option Shadow := s.shadows.find? (fun h => h.page == page)

/-- PG_LOCK.LOCK of a page. -/
def pageLocked (s : State) (page : Nat) : Bool := bit (regGet s (page * 0x1000 + 0x20)) 0

/-- A word of the common header. -/
def headerWord (s : State) (page off : Nat) : Word :=
  if off = 0 then pack [(blockOfPage page, 16, 16), (pageInstance page, 0, 16)]
  else if off = 4 then 0x100
  else if off = 8 then
    let own := match shadowOf s page with
      | some h => h.owner
      | none => 0
    pack [(own, 16, 12), (flag (pageDown s page), 3, 1), (flag (pageLocked s page), 2, 1),
      (flag (shadowOf s page).isSome, 1, 1), (flag (pageReady s page), 0, 1)]
  else regGet s (page * 0x1000 + off)

/-! ### Pages -/

/-- The SY page (R61). -/
def wordSY (s : State) (addr : Nat) : Word :=
  if addr = A.SY_FW_VERSION then word (s.flash.banks.release % 2 ^ 24)
  else if addr = A.SY_PHASE then word s.phase
  else if addr = A.SY_MODE then
    pack [(flag s.mode.changing, 31, 1), (s.mode.cause, 16, 8), (s.mode.prev, 8, 3), (s.mode.cur, 0, 3)]
  else if addr = A.SY_EVT_SUMMARY then word (evtSummary s)
  else regGet s addr

/-- A temperature or other reading as a two's complement half, 0x8000 for none. -/
def half (v : Option Int) : Nat := match v with
  | some i => twos i 16
  | none => 0x8000

/-- The starting estimate of an operation in tenths of a nanojoule (R315, R217). -/
def costStart : Nat → Nat
  | 0 => 20000 | 1 => 8000 | 2 => 2000 | 3 => 120000 | 4 => 400000 | 5 => 600000 | 6 => 9000000 | 7 => 3500 | 8 => 13000
  | 9 => 1000 | 10 => 3 | 11 => 15 | 12 => 6 | _ => 0

/-- The current estimate of an operation in a region, in tenths of a nanojoule. -/
def costOf (s : State) (region op : Nat) : Nat := tabGetD s.tide.costs (16 * region + op) (costStart op)

/-- HM registers whose figures are not yet formed while the page is not READY (R49). -/
def formedLate (addr : Nat) : Bool :=
  addr == A.HM_TIDE_NOW || addr == A.HM_THERM || addr == A.HM_COST || addr == A.HM_DOCK

/-- The HM page (R333). -/
def wordHM (s : State) (addr : Nat) : Word :=
  if formedLate addr && !s.boot.readyCore then regGet s addr
  else if addr = A.HM_TIDE_NOW then pack [(effectiveCeiling s, 16, 10), (s.tide.spent, 0, 10)]
  else if addr = A.HM_BURST then word (twos s.tide.credit 11)
  else if addr = A.HM_STEP then
    pack [(s.tide.region.getD 0xFF, 16, 8), (flag (anySensorFailed s), 10, 1), (flag s.tide.supply, 9, 1),
      (flag s.tide.thermal, 8, 1), (s.tide.step, 0, 3)]
  else if addr = A.HM_EMERG then
    pack [(flag (emergency s), 31, 1), (flag s.tide.emThermal + 2 * flag s.tide.emSupply, 16, 2),
      (fieldOf s A.HM_EMERG 15 0, 0, 16)]
  else if addr = A.HM_VIN then word (match sensorValue s (sensorKey 0 0) with
    | some v => twos v 17
    | none => 0)
  else if addr = A.HM_IIN then word (match sensorValue s (sensorKey 1 0) with
    | some v => twos v 14
    | none => 0)
  else if addr = A.HM_RAIL then pack [(s.tide.rail, 16, 10), (s.tide.railMeasured, 0, 10)]
  else if addr = A.HM_FSI then pack [(fieldOf s A.HM_FSI 31 16, 16, 16), (s.tide.fsi, 0, 16)]
  else if addr = A.HM_FSI_RING then pack [(s.tide.fsiRing, 16, 6), (s.tide.fsiWorst, 0, 16)]
  else if addr = A.HM_THERM then
    let r := fieldOf s A.HM_THERM_SEL 4 0
    let room := match regionHottest s r with
      | some h => half (some (stepThreshold s r - h))
      | none => 0x8000
    pack [(half (regionHottest s r), 16, 16), (room, 0, 16)]
  else if addr = A.HM_AIR then
    let a := fun (c : Nat) => match hottestOf s [sensorKey c 0, sensorKey c 1] with
      | some v => twos v 16
      | none => 0
    pack [(a 6, 16, 16), (a 5, 0, 16)]
  else if addr = A.HM_CLASS_STAT then
    let c := fieldOf s A.HM_CLASS_SEL 2 0
    let total := listSum (s.tide.served.map listSum)
    let mine := listSum (s.tide.served.map (fun w => w.getD c 0))
    pack [(if total = 0 then 0 else 1000 * mine / total, 16, 10), (sat (s.tide.queued.getD c 0) 16, 0, 16)]
  else if addr = A.HM_ENERGY then word (sat (s.tide.energyMj / 1000) 32)
  else if addr = A.HM_COST then 
    word (costOf s (fieldOf s A.HM_COST_SEL 20 16) (fieldOf s A.HM_COST_SEL 3 0) / 10)
  else if addr = A.HM_PSTATE then
    pack [(s.pstate.prev, 8, 3), (flag s.pstate.excursion.isSome, 4, 1), (s.pstate.cur, 0, 3)]
  else if addr = A.HM_DOCK then pack [(dockLimit s, 16, 7),
    ((s.dies.filter (fun p => p.2.st == 1 || p.2.st == 2)).length, 0, 7)]
  else regGet s (keyOf s addr)

/-- The BW page (R67). -/
def wordBW (s : State) (addr : Nat) : Word :=
  if addr = A.BW_SENSOR_FAIL then
    word (listSum ((List.range 8).map (fun c => 2 ^ c * flag (s.sensors.any (fun p => p.2.failed && p.1 / 4096 == c)))))
  else if addr = A.BW_STRAP then
    pack [(flag s.power.strapFailed, 9, 1), (flag s.power.strapValid, 8, 1), (fieldOf s A.BW_STRAP 5 0, 0, 6)]
  else if addr = A.BW_PINS then word (flag s.power.pwrdis)
  else regGet s (keyOf s addr)

/-- The LB page (R384, R404), as a path reads it. -/
def wordLB (s : State) (sideband : Bool) (addr : Nat) : Word :=
  let l := s.log
  if addr = A.LB_STATUS then
    pack [(flag (l.media == 3), 31, 1), (flag l.unacked, 30, 1), (flag (l.media == 2), 29, 1),
      (flag (someSingle s), 28, 1), (flag l.frozen.isSome, 27, 1), (copyFailedBits s, 0, 6)]
  else if addr = A.LB_FREEZE then
    let own := match l.frozen with
      | some f => f.owner
      | none => 0
    pack [(flag l.frozen.isSome, 31, 1), (own, 16, 12), (fieldOf s A.LB_FREEZE 15 0, 0, 16)]
  else if addr = A.LB_STAGING then pack [(l.staging.length, 16, 14), (l.highWater, 0, 14)]
  else if addr = A.LB_HOLDING then pack [(l.holding.length, 16, 10), (l.lostTotal, 0, 16)]
  else if A.LB_CLEAR_NONCE ≤ addr ∧ addr < A.LB_NONCE_SEQ_LO then
    match l.nonceDraw with
    | some d => word (beNat ((List.range 4).map (fun k => Config.drawn d (addr - A.LB_CLEAR_NONCE + k))))
    | none => 0
  else if addr = A.LB_FAULT_STAT then
    let row := fieldOf s A.LB_FAULT_SEL 23 16
    let inst := fieldOf s A.LB_FAULT_SEL 15 0
    let c := faultCount s row inst
    pack [(flag c.lasting, 31, 1), ((faultWindow s row inst).length, 16, 15), (c.total, 0, 16)]
  else if addr = A.LB_WIN_INFO then
    match windowRecord s sideband with
    | some r => pack [(1, 31, 1), (recLength r.payload, 0, 12)]
    | none => 0
  else if addr = A.LB_BOOT_NUMBER then word s.boot.bootNumber
  else if addr = A.LB_BOOT_RESULT then pack [(s.boot.result, 16, 16), (s.boot.bflags, 0, 16)]
  else if addr = A.LB_QUOTE_STATUS then
    pack [(flag s.boot.quoteBusy, 31, 1), (flag s.boot.quoteReady, 30, 1), (flag s.boot.quoteFailed, 29, 1),
      (s.boot.quoteIgnored, 0, 16)]
  else if addr = A.LB_UNLOCK then
    let f := s.boot.unlockFails
    let ends := s.boot.unlockFailAt + 1000000 * min (2 ^ (f - 1)) 3600
    pack [(s.boot.unlockTotal, 16, 16), (if f = 0 then 0 else ceilDiv (ends - s.sessionUs) 1000000, 0, 16)]
  else if A.LB_QUOTE ≤ addr ∧ addr < A.LB_QUOTE + 208 then word (beAt s.boot.quoteBytes (addr - A.LB_QUOTE) 4)
  else if A.LB_WIN ≤ addr then
    match windowRecord s sideband with
    | some r => word (leAt (recBytes r) (addr - A.LB_WIN) 4)
    | none => 0
  else regGet s (keyOf s addr)

/-- The CF page (R80). -/
def wordCF (s : State) (addr : Nat) : Word :=
  let c := s.flash.config
  if addr = A.CF_BASE_VERSION then pack [(c.schema, 16, 16), (c.revision, 0, 16)]
  else if addr = A.CF_BASE_STATUS then pack [(c.loadStatus, 16, 16), (c.source, 8, 2), (flag c.defaultsPending, 0, 1)]
  else if A.CF_BASE_DIGEST ≤ addr ∧ addr < A.CF_BOOT_MODE then
    word (beAt (beBytes c.digest 48) (addr - A.CF_BASE_DIGEST) 4)
  else if addr = A.CF_OVL_FAIL then c.ovlFail
  else regGet s (keyOf s addr)

/-- The NP pages (R117). -/
def wordNP (s : State) (p : Port) (off : Nat) : Word :=
  let l := linkOf s p
  let mac := portMac s p
  if off = 0x40 then
    let mask := if l.phase = .up then (2 ^ l.lanes - 1) * 2 ^ l.firstLane else 0
    pack [(flag (l.phase == .up), 31, 1), (mask, 16, 4), (listSum (l.laneFailed.map (fun k => 2 ^ k)), 12, 4),
      (if l.phase = .up then l.lanes else 0, 0, 8)]
  else if off = 0x48 then word mac
  else if off = 0x4C then word (mac / 2 ^ 32 % 65536)
  else regGet s (portPage p * 0x1000 + off)

/-- The MO page (R118). -/
def wordMO (s : State) (addr : Nat) : Word :=
  if addr = A.MO_COUNT then pack [(s.handshakes.length, 24, 8), (s.moorings.length, 0, 13)]
  else if addr = A.MO_BERTHS_FREE then word (16384 - s.berths.length)
  else if addr = A.MO_DRIVE_CERT_STATUS then
    pack [(flag s.flash.driveCert.isNone, 1, 1), (flag s.flash.driveCert.isSome, 0, 1)]
  else regGet s (keyOf s addr)

/-- The UP page (R429). -/
def wordUP (s : State) (addr : Nat) : Word :=
  let u := s.update
  if addr = A.UP_STATUS then
    let st := match u.st with
      | .empty => 0 | .staging => 1 | .staged => 2 | .armed => 3 | .preparing => 4 | .prepared => 5 | .switching => 6
    let cold := match u.manifest with
      | some m => m.cold
      | none => false
    pack [(st, 28, 4), (if st = 1 then u.owner else 0, 16, 12), (flag cold, 0, 1)]
  else if addr = A.UP_STAGED_BYTES then word u.staged
  else if addr = A.UP_TOTAL_BYTES then word (match u.manifest with
    | some m => m.deltaTotal
    | none => 0)
  else if addr = A.UP_IDLE_MS then word (if u.st = .staging then sat ((s.sessionUs - u.lastAccepted) / 1000) 32 else 0)
  else if A.UP_SET_DIGEST ≤ addr ∧ addr < A.UP_COHORT then
    word (beAt (beBytes (match u.manifest with
      | some m => m.digest
      | none => 0) 48) (addr - A.UP_SET_DIGEST) 4)
  else if addr = A.UP_COHORT then word u.cohort
  else if addr = A.UP_DEADLINE_S then word (if u.st = .armed then ceilDiv (u.deadline - s.sessionUs) 1000000 else 0)
  else if addr = A.UP_SWITCH then word u.switchMs
  else if addr = A.UP_LAST then u.last
  else if addr = A.UP_PAUSE_US then word u.pauseUs
  else if addr = A.UP_ACTIVATIONS then pack [(u.failures, 16, 16), (u.activations, 0, 16)]
  else if addr = A.UP_BANK then pack [(s.flash.banks.active, 31, 1), (s.flash.banks.generation, 0, 31)]
  else if addr = A.UP_SEC_VERSION then
    pack [(match u.manifest with
      | some m => m.secVersion
      | none => 0, 8, 8), (s.flash.otp.secVersion, 0, 8)]
  else if addr = A.UP_TRIG_IGNORED then word u.trigIgnored
  else regGet s addr

/-- Progress of a rekey sweep in permille (R346, R361): of the records of the quay that have segments, those that name the current
epoch. -/
def sweepDone (s : State) (q k : Nat) : Nat :=
  let e := ((slotOf s k).map Slot.epoch).getD 0
  let mine := s.flash.items.filter (fun i => i.quay == q && !i.value.isEmpty)
  if mine.isEmpty then 1000 else 1000 * (mine.filter (fun i => i.epoch == e)).length / mine.length

/-- KIND, STATE and the other figures of the slot selected (R361). -/
def wordCP (s : State) (addr : Nat) : Word :=
  let c := s.cipher
  let sel := slotOf s (fieldOf s A.CP_SLOT_SEL 15 0)
  let pipe := c.pipes.getD (fieldOf s A.CP_PIPE_SEL 2 0) ⟨true, none, [], [], ⟨0, 0⟩⟩
  if addr = A.CP_STATUS then
    let ok := listSum ((List.range 8).map (fun p => match c.pipes[p]? with
      | some x => 2 ^ p * flag (s.boot.readyUnits && !x.deconfigured && (p == 0 || decide (s.pstate.cur < 2)))
      | none => 0))
    pack [(flag c.locked, 31, 1), (flag c.meshTripped, 30, 1), (flag c.entropyFailed, 29, 1), (ok, 0, 8)]
  else if addr = A.CP_SLOTS then word (65536 - c.slots.length)
  else if addr = A.CP_SLOT_INFO then
    match sel with
    | some x =>
      let st := match x.st with
        | .live => 1 | .sealed => 2 | .erasing => 3
      pack [(x.kind, 28, 4), (st, 24, 4), (x.shadows.length, 20, 3), (x.epoch, 0, 16)]
    | none => 0
  else if addr = A.CP_SLOT_DOMAIN then
    match sel with
    | some x =>
      if x.kind = 1 then word (2 ^ 28 + x.epoch * 4096 + x.owner % 4096)
      else if x.kind = 4 then word (2 * 2 ^ 28 + x.owner % 2 ^ 28)
      else if x.kind = 2 then word (3 * 2 ^ 28 + fieldOf s A.CP_SLOT_SEL 15 0) else 0
    | none => 0
  else if addr = A.CP_SLOT_REFS then
    match sel with
    | some x => pack [(listSum (x.shadows.map SlotShadow.refs), 16, 16), (x.refs, 0, 16)]
    | none => 0
  else if addr = A.CP_LINEAGE then
    pack [(fieldOf s A.CP_LINEAGE 3 2, 2, 2), (flag s.flash.otp.chosen, 1, 1), (flag s.flash.otp.lineage, 0, 1)]
  else if addr = A.CP_ALARM then pack [(c.alarmCause, 28, 4), (c.alarmCount, 0, 16)]
  else if addr = A.CP_ZEROISE then word (sat c.zeroiseNs 16)
  else if addr = A.CP_PIPE_STAT then
    let st := if pipe.deconfigured then 2 else if 2 ≤ s.pstate.cur ∧ fieldOf s A.CP_PIPE_SEL 2 0 ≠ 0 then 1 else 0
    pack [(st, 30, 2), (pipe.saved.length, 16, 7)]
  else if addr = A.CP_PIPE_BLOCKS ∨ addr = A.CP_PIPE_FAULTS ∨ addr = A.CP_PIPE_SUSPENDS then
    regGet s (regKey addr (fieldOf s A.CP_PIPE_SEL 2 0))
  else if addr = A.CP_REKEY then
    match c.rekey with
    | some (q, k) => pack [(1, 31, 1), (q, 16, 12), (sweepDone s q k, 0, 10)]
    | none => 0
  else regGet s (keyOf s addr)

/-- Overflow leaves of the index (R190): of each bucket, those of its chain in the map cache, or else of its copy on flash. -/
def overflowLeaves (s : State) : Nat :=
  let held := s.index.chains.filter (fun c => !c.2.fetching)
  let away := (s.index.dir.map Prod.fst).filter (fun b => !held.any (fun c => c.1 == b))
  listSum (held.map (fun c => c.2.leaves.length - 1)) +
    listSum (away.map (fun b => ((currentCopy s b).map (fun l => l.leaves.length - 1)).getD 0))

/-- The CM page (R223). -/
def wordCM (s : State) (addr : Nat) : Word :=
  let x := s.index
  let nibbles := fun (l : List Nat) (i : Nat) =>
    word (listSum ((List.range 8).map (fun k => 16 ^ k * l.getD (8 * i + k) 0)))
  if A.CM_BANK_MAP ≤ addr ∧ addr < A.CM_HOT_PART then nibbles x.banks ((addr - A.CM_BANK_MAP) / 4)
  else if A.CM_HOT_PART ≤ addr ∧ addr < A.CM_PAIR then nibbles x.parts ((addr - A.CM_HOT_PART) / 4)
  else if A.CM_PAIR ≤ addr ∧ addr < A.CM_STATUS then
    match x.pairs[(addr - A.CM_PAIR) / 4]? with
    | some p => pack [(flag p.single, 15, 1), (p.b, 8, 6), (p.a, 0, 6)]
    | none => 0
  else if addr = A.CM_STATUS then
    pack [((banksOf s 0).length, 16, 8), (if s.boot.readyUnits then (banksOf s 4).length else 0, 8, 8),
      (if s.boot.readyUnits then listSum ((List.range 8).map (fun d => 2 ^ d * flag (!x.diesLost.contains d))) else 0, 0, 8)]
  else if addr = A.CM_TEST then
    let b := match x.test with
      | some t => t.bank
      | none => x.lastTested
    pack [(b, 16, 6), (flag x.test.isSome, 15, 1), (fieldOf s A.CM_TEST 7 0, 0, 8)]
  else if addr = A.CM_OCC_HOT then word x.hot.length
  else if addr = A.CM_OCC_INFLIGHT then word x.inflight.length
  else if addr = A.CM_OCC_RULE then word s.flash.rules.length
  else if addr = A.CM_OVF_LEAVES then word (overflowLeaves s)
  else if addr = A.CM_MC_DIRTY then word (dirtyFrames s)
  else regGet s addr

/-- The DR page (R302). -/
def wordDR (s : State) (addr : Nat) : Word :=
  let p := s.space
  if !s.boot.readySpace && decide (addr ≠ A.DR_CKPT) && decide (addr ≠ A.DR_LANDING) then regGet s addr
  else if addr = A.DR_STATE then
    let free := (decide (usableFree s < fieldOf s A.DR_FREE_THR 15 0) || decide (usableFree s = 0))
    let full := decide (fieldOf s A.DR_SPACE_THR 9 0 ≤ fill s)
    pack [(flag (decide (ballast s = 0)), 18, 1), (flag free, 17, 1), (flag full, 16, 1),
      (flag (decide (p.reserveLeft < 64)), 3, 1), (p.state, 0, 3)]
  else if addr = A.DR_FILL then word (sat (fill s) 10)
  else if addr = A.DR_FREE then word (usableFree s)
  else if addr = A.DR_RESERVE then word p.reserveLeft
  else if addr = A.DR_LANDING then
    pack [((s.flash.sets.filter (fun x => x.2.pool == .landing)).length, 16, 16), (fieldOf s A.DR_LANDING 15 0, 0, 16)]
  else if addr = A.DR_VICTIM then word p.victim
  else if addr = A.DR_RETIRED then word s.flash.retired
  else if addr = A.DR_LOST then word p.lost
  else if addr = A.DR_CKPT then
    pack [(flag p.ckpt.isSome, 30, 1), ((s.sessionUs - p.ckptAt) / 1000, 0, 16)]
  else if addr = A.DR_MOUNT then pack [(s.boot.mountKind, 30, 2), (s.boot.mountMs, 0, 20)]
  else if addr = A.DR_REPLAYED then word p.replayed
  else if addr = A.DR_DISCARDED then word p.discarded
  else if addr = A.DR_WAF then 
    let recent := p.programmed.filter (fun e => decide (s.sessionUs ≤ e.1 + 60000000))
    let host := listSum (recent.map (fun e => e.2.1))
    word (if host = 0 then 0 else sat (1000 * listSum (recent.map (fun e => e.2.2)) / host) 16)
  else if addr = A.DR_SWEEP then pack [(flag (s.flash.sets.any (fun x => x.2.sweepPending)), 31, 1)]
  else regGet s addr

/-- The CA page (R268). -/
def wordCA (s : State) (addr : Nat) : Word :=
  let c := s.careen
  let pl := (regGet s A.CA_PLANE_SEL).toNat % 4096
  let inPlane := s.flash.blocks.filter (fun p => planeOfBlock p.1 == pl)
  if addr = A.CA_STATUS then
    pack [(docked s, 16, 7), (c.campaigns.length, 8, 7), ((c.docks.filter (fun d => d.2.phase == 7)).length, 0, 7)]
  else if addr = A.CA_DOCK_STATE then
    let d := dockOf s (fieldOf s A.CA_DOCK_SEL 9 0)
    pack [(d.phase, 28, 4), (d.plane, 26, 2), (pulsesDone s d, 16, 5), (d.verified, 0, 11)]
  else if addr = A.CA_SURVEY then
    let y := c.survey
    let done := if y.total = 0 then 0 else 1000 * (y.total - y.work.length) / y.total
    pack [(flag y.active, 31, 1), (flag (!y.escalated.isEmpty), 30, 1), (fieldOf s A.CA_SURVEY 19 16, 16, 4), (done, 0, 10)]
  else if addr = A.CA_SURVEY_FAIL then word (listSum c.survey.failing)
  else if !s.boot.readySpace then regGet s addr
  else if addr = A.CA_LIFE then pack [(s.flash.lowWater, 16, 8), (c.life, 0, 8)]
  else if addr = A.CA_BALLAST_INIT then 131072
  else if addr = A.CA_BALLAST_REM then word (ballast s)
  else if addr = A.CA_WORST_RESIDUE then word (worstResidue s).1
  else if addr = A.CA_WORST_BLOCK then word (worstResidue s).2
  else if addr = A.CA_HEALTH then word (heaterHealth s).1
  else if addr = A.CA_WORST_HEATER then word (heaterHealth s).2
  else if addr = A.CA_MAX_CAREENS then word (listMax (s.flash.planes.map (fun p => p.2.careens)))
  else if addr = A.CA_PATROL then
    let total := (s.flash.sets.filter (fun x => !x.2.isOpen)).length + mirroredTotal
    pack [(fieldOf s A.CA_PATROL 23 16, 16, 8), (min 1000 (1000 * c.patrolCount / total), 0, 10)]
  else if addr = A.CA_PLANE_INFO0 then
    let p := planeOf s pl
    pack [(p.careens, 16, 16), (p.st, 14, 2), (p.retired, 0, 11)]
  else if addr = A.CA_PLANE_INFO1 then word (planeOf s pl).drift
  else if addr = A.CA_PLANE_INFO2 then pack [(listMax (inPlane.map (fun p => p.2.residue)), 0, 16)]
  else if addr = A.CA_PLANE_INFO3 then pack [(listMax (inPlane.map (fun p => p.2.wear)), 0, 16)]
  else regGet s addr

/-- The FC pages (R247). -/
def wordFC (s : State) (ch off : Nat) : Word :=
  let base := 0x10000 + ch * 0x1000
  let die := fun (k : Nat) => dieOf s (16 * ch + k)
  if off = 0x40 then
    pack [(listSum ((List.range 16).map (fun k => 2 ^ k * flag ((die k).st == 3))), 16, 16),
      (listSum ((List.range 16).map (fun k => 2 ^ k * flag ((die k).st != 0))), 0, 16)]
  else if 0x44 ≤ off ∧ off < 0x84 then
    let d := die ((off - 0x44) / 4)
    pack [(d.st, 28, 4), (d.op, 24, 4), (d.suspends, 16, 5), (d.plane, 12, 2), (d.block, 0, 10)]
  else if off = 0xA8 then
    let last := fieldOf s (base + 0xA8) 27 24
    let k := if (die last).st = 2 then last else ((List.range 16).find? (fun j => (die j).st == 2)).getD last
    pack [(flag ((die k).st == 2), 31, 1), (k, 24, 4), ((s.poweredUs - (die k).calAt) / 1000000, 0, 24)]
  else if 0x800 ≤ off then
    let sl := fieldOf s (base + 0xC8) 3 0
    regGet s (regKey (base + off) sl)
  else regGet s (keyOf s (base + off))

/-- The EN pages (R334). -/
def wordEN (s : State) (e off : Nat) : Word :=
  let base := 0x50000 + e * 0x1000
  if off = 0x40 then
    let r := roleOf s e
    pack [(r.1, 16, 2), (if r.1 = 0 then r.2 / 4 else 0, 8, 1), (r.2, 0, 6)]
  else if off = 0x44 then pack [(engineState s e, 28, 4)]
  else if off = 0x48 then 
    let mine := engineCmds s e
    let queued := if (roleOf s e).1 = 2 then mediaQueued s e else (mine.filter (fun c => c.stage == .waiting)).length
    pack [(queued, 16, 16), (mine.length, 0, 16)]
  else if off = 0x64 then pack [(flag (engineOf s e).testing, 15, 1), (fieldOf s (base + 0x64) 1 0, 0, 2)]
  else regGet s (base + off)

/-- The HB page (R449). -/
def wordHB (s : State) (addr : Nat) : Word :=
  let h := s.harbour
  let m := tabGet h.members (fieldOf s A.HB_MEMBER_SEL 11 0)
  if addr = A.HB_ID then
    let i := harbourId s
    pack [(flag i.1, 31, 1), (i.2.1, 16, 1), (i.2.2, 0, 12)]
  else if addr = A.HB_STATUS then
    pack [(flag h.selfConflictAt.isSome, 31, 1), (flag (s.power.strapFailed && !(harbourId s).1), 30, 1),
      (harbourMembers s, 0, 13)]
  else if addr = A.HB_TOWLINES then
    let half := (h.towlines.filter (fun t => t.2.st == .helloSent || t.2.st == .authSent)).length +
      (s.handshakes.filter (fun x => x.towline)).length
    pack [(half, 8, 8), ((h.towlines.filter (fun t => t.2.st == .open)).length, 0, 8)]
  else if addr = A.HB_MEMBER_STATE then
    match m with
    | some x =>
      let st := match x.st with
        | .present => 1 | .lost => 2 | .conflict => 3
      pack [(st, 30, 2), (x.mode, 27, 3), (x.space, 24, 3), (x.life, 16, 8),
        (min 65535 ((s.sessionUs - x.at_) / 1000), 0, 16)]
    | none => 0
  else if addr = A.HB_MEMBER_FW then word (match m with
    | some x => x.fw
    | none => 0)
  else if A.HB_MEMBER_ADDR ≤ addr ∧ addr < A.HB_BEACON_RX then
    word (beAt (beBytes (match m with
      | some x => x.address
      | none => 0) 16) (addr - A.HB_MEMBER_ADDR) 4)
  else if addr = A.HB_TOW_LAST then h.towLast
  else if addr = A.HB_HCERT_STATUS then word (flag s.flash.harbourCert.isSome)
  else regGet s (keyOf s addr)

/-- The fields that read as zero (R9): WO fields of a register word are masked out. -/
def maskWO (fs : List Field) (w : Word) : Word :=
  fs.foldl (fun w f => if f.access = .wo then insertBits w f.hi f.lo 0 else w) w

/-- The word at an aligned mapped address, as a path reads it; a reserved offset reads as zero. -/
def regWord (s : State) (sideband : Bool) (addr : Nat) : Word :=
  let page := addr / 0x1000
  let off := addr % 0x1000
  let b := blockOfPage page
  match regAt addr with
  | none => 0
  | some (r, _) =>
    match wideReg s sideband addr with
    | some (n, _, _) => word n
    | none =>
      match wideReg s sideband (addr - 4) with
      | some (n, hi, latched) => if hi = addr ∧ !latched then word (n / 2 ^ 32) else tabGetD s.latches addr 0
      | none =>
        if b = 16 then
          (if off % 0x40 = 0x1C ∧ (berthOf s ((addr - 0x100000) / 0x40)).isSome then tabGetD s.latches addr 0 else berthWord s ((addr - 0x100000) / 0x40) (off % 0x40 / 4))
        else if b = 17 then
          (if (off % 0x40 = 0x14 ∨ off % 0x40 = 0x1C ∨ off % 0x40 = 0x34) ∧
              (tabGet s.flash.quays ((addr - 0x200000) / 0x40)).isSome then tabGetD s.latches addr 0
           else quayWord s ((addr - 0x200000) / 0x40) (off % 0x40 / 4))
        else if b = 18 then mooringWord s ((addr - 0x300000) / 0x40) (off % 0x40 / 4)
        else if off < 0x40 then maskWO r.fields (headerWord s page off)
        else maskWO r.fields (match b with
          | 1 => wordSY s addr | 2 => wordHM s addr | 3 => wordBW s addr | 4 => wordLB s sideband addr
          | 5 => wordUP s addr | 6 => wordCF s addr | 7 => wordCP s addr | 8 => wordCM s addr | 9 => wordDR s addr
          | 10 => wordCA s addr | 11 => wordNP s (if page = 11 then .b else .a) off | 12 => wordMO s addr
          | 13 => wordHB s addr | 14 => wordFC s (page - 0x10) off | _ => wordEN s (page - 0x50) off)

/-- The latch that reading an address sets (R55): the _HI partner's address and the upper half. -/
def latchOf (s : State) (sideband : Bool) (addr : Nat) : Option (Nat × Word) :=
  match wideReg s sideband addr with
  | some (n, hi, true) => some (hi, word (n / 2 ^ 32))
  | _ => (recordWide s addr).map (fun n => (addr + 4, word (n / 2 ^ 32)))

/-- Read one register: its word, and the latch set. -/
def readReg (s : State) (sideband : Bool) (addr : Nat) : State × Word :=
  match latchOf s sideband addr with
  | some (hi, w) => ({ s with latches := tabPut s.latches hi w }, regWord s sideband addr)
  | none => (s, regWord s sideband addr)

/-- Read consecutive registers in ascending order. -/
def readRegs (sideband : Bool) : Nat → State → Nat → State × List Word
  | 0, s, _ => (s, [])
  | k + 1, s, addr =>
    let (s, w) := readReg s sideband addr
    let (s, ws) := readRegs sideband k s (addr + 4)
    (s, w :: ws)

end Sys2Proof.Machine
end

