-- ==== Sys2Proof/Machine/Modes.lean ====
section
/-! DEFINITION. Which values of a register are legal (check 8 of R57), overlays (R73 to R75) and mode changes (R75 to R79,
R500). -/

namespace Sys2Proof.Machine

/-- A field of a word lies in a range. -/
def within (n lo hi : Nat) : Bool := decide (lo ≤ n) && decide (n ≤ hi)

/-- Empty OTP root slots under MO_ROOT_SLOTS: a write may not set the bit of one whose bit is clear (R118). -/
def rootSlotsLegal (s : State) (old new : Nat) : Bool :=
  new % 16 != 0 && (List.range 4).all (fun k =>
    !(natBits new k k == 1 && natBits old k k == 0 && ((rootSlots s).getD k none).isNone))

/-- Check 8 of R57 for the value `w` written to a register: `c` is the drive with every word of the access in place, `s`
the drive before it. Values tied to the state in other ways are in `stateRefuses`. -/
def legalValue (s c : State) (addr : Nat) (w : Word) : Bool :=
  let f := fun (a hi lo : Nat) => fieldOf c a hi lo
  let ceil := f A.HM_TIDE_CEIL 9 0
  let page := addr / 0x1000
  let off := addr % 0x1000
  if addr = A.SY_MODE_REQ then decide (bits w 2 0 ≤ 5)
  else if addr = A.SY_PWR_CTRL then decide (bits w 2 0 ≤ 4)
  else if addr = A.BW_CAPSULE_TMO then within (bits w 15 0) 10 1000
  else if addr = A.BW_I3C_TMO then within (bits w 15 0) 100 10000
  else if addr = A.CF_BOOT_MODE then bits w 2 0 == 0 || bits w 2 0 == 2 || bits w 2 0 == 5
  else if addr = A.CF_OVL_MODE then decide (bits w 2 0 ≤ 5)
  else if addr = A.MO_IDLE_TMO then within (bits w 15 0) 1 600
  else if addr = A.MO_RECV_WINDOW then within (bits w 12 0) 64 4096
  else if addr = A.MO_HS_TMO then within (bits w 15 0) 100 10000
  else if A.MO_CERT_GEN_MIN ≤ addr ∧ addr < A.MO_KILL then decide ((regGet s addr).toNat ≤ w.toNat)
  else if addr = A.MO_ROOT_SLOTS then rootSlotsLegal s (regGet s addr).toNat w.toNat
  else if addr = A.MO_DRIVE_CERT_IDX ∨ addr = A.HB_HCERT_IDX then decide (bits w 6 0 ≤ 80)
  else if addr = A.HM_TIDE_CEIL then
    within (bits w 9 0) 100 300 && within (bits w 29 20) 60 (bits w 9 0) && within (bits w 19 10) 60 (bits w 9 0) &&
      decide (f A.HM_TIDE_P1 9 0 ≤ bits w 9 0)
  else if addr = A.HM_TIDE_P1 then within (bits w 9 0) 60 ceil
  else if addr = A.HM_EMERG then within (bits w 15 0) 100 5000
  else if addr = A.HM_SUPPLY then within (bits w 31 16) 36000 45000 && within (bits w 15 0) 6000 10000
  else if addr = A.HM_RAIL_CTRL then within (bits w 9 0) 600 750 && within (bits w 25 16) (bits w 9 0) 900
  else if addr = A.HM_FSI then within (bits w 31 16) 460 1000
  else if addr = A.HM_THERM_SEL then decide (bits w 4 0 ≤ 18)
  else if addr = A.HM_THERM_MARGIN then within (bits w 15 0) 30 200 && within (bits w 31 16) 10 (bits w 15 0 - 10)
  else if addr = A.HM_COST_SEL then decide (bits w 20 16 ≤ 17) && decide (bits w 3 0 ≤ 12)
  else if addr = A.LB_FREEZE then within (bits w 15 0) 10 3600
  else if addr = A.LB_FLUSH then within (bits w 15 0) 1 1000
  else if addr = A.LB_CONTROL then !(bit w 29 && bit w 28)
  else if addr = A.LB_FAULT_SEL then decide (bits w 23 16 ≤ 14)
  else if addr = A.LB_FAULT_CFG then
    let b := (faultDefault (f A.LB_FAULT_SEL 23 16)).2.2.2.2
    within (bits w 23 0) b.1 b.2
  else if addr = A.LB_FAULT_N then
    let b := (faultDefault (f A.LB_FAULT_SEL 23 16)).2
    within (bits w 15 0) b.1 b.2.1
  else if addr = A.CM_TEST then within (bits w 7 0) 1 168
  else if addr = A.CM_MC_DIRTY_MAX then within (bits w 25 0) 1000000 24000000
  else if addr = A.CM_MC_AGE_MAX then within (bits w 7 0) 2 30
  else if addr = A.CA_CTRL then within (bits w 22 16) 1 64 && within (bits w 6 0) 1 64
  else if addr = A.CA_TRIGGER then within (bits w 15 0) 10000 30000
  else if addr = A.CA_ANNEAL then within (bits w 27 16) 1800 2350 && within (bits w 15 8) 16 22
  else if addr = A.CA_THERM then
    within (bits w 31 16) 500 800 && within (bits w 15 0) 500 800 && decide (bits w 15 0 ≤ bits w 31 16)
  else if addr = A.CA_HEATER_LIMIT then within (bits w 23 0) 20000 80000
  else if addr = A.CA_RD_CTRL then within (bits w 31 16) 50 200 && within (bits w 15 0) 500 2000
  else if addr = A.CA_PATROL then within (bits w 23 16) 1 7
  else if addr = A.CA_SURVEY then within (bits w 19 16) 3 8
  else if addr = A.DR_SPACE_THR then within (bits w 9 0) 800 990 && within (bits w 25 16) (bits w 9 0 + 1) 995
  else if addr = A.DR_FREE_THR then within (bits w 31 16) 2048 16384 && decide (bits w 31 16 < bits w 15 0)
  else if addr = A.DR_DREDGE then within (bits w 15 0) 1024 16384 && within (bits w 31 16) (bits w 15 0 + 1) 32768
  else if addr = A.DR_PACE then within (bits w 20 0) 16384 1048576
  else if addr = A.DR_LANDING then within (bits w 15 0) 4096 15728
  else if addr = A.CP_LINEAGE then decide (bits w 3 2 ≤ 2)
  else if addr = A.UP_BUDGET then within (bits w 9 0) 100 850
  else if addr = A.HB_MGMT then decide (bits w 11 0 ≠ 0xFFF)
  else if addr = A.HB_PORTS then
    let b := bits w 15 0
    let t := bits w 31 16
    within b 1024 65535 && within t 1024 65535 && b != t && b != f A.NP_UDP 15 0 && b != f (A.NP_UDP + 0x1000) 15 0 &&
      t != f A.NP_UDP 15 0 && t != f (A.NP_UDP + 0x1000) 15 0
  else if addr = A.HB_TOW_IDLE then within (bits w 15 0) 5 3600
  else if off = 0x10 ∧ blockOfPage page < 16 then !(bit w 0 && bit w 1)
  else if page = 10 ∨ page = 11 then
    if off = 0x44 then decide (bits w 2 0 ≠ 0)
    else if off = 0x50 then decide (bits w 11 0 ≠ 0xFFF)
    else if off = 0x54 then decide (1024 ≤ bits w 15 0)
    else if off = 0x5C then decide (bits w 1 0 ≠ 0)
    else true
  else if blockOfPage page = 14 then
    if off = 0xA0 then within (bits w 31 16) 200 2000 && decide (bits w 10 8 ≤ 4) && within (bits w 4 0) 1 16
    else if off = 0xA4 then within (bits w 15 8) 1 168 && within (bits w 7 0) 5 40
    else if off = 0xBC then decide (bits w 9 8 ≤ 2)
    else if off = 0xC8 then decide (bits w 3 0 ≤ 8)
    else true
  else true

/-! ### Shadowed groups: the value a COMMIT would make live -/

/-- A word of a page's group as its COMMIT would leave it. -/
def mergedWord (s : State) (page key : Nat) : Word :=
  match shadowOf s page with
  | some h => tabGetD h.words key (regGet s key)
  | none => regGet s key

/-- Hard window and operating span of a sensor class (R64). -/
def plausHard : Nat → Int × Int × Int × Int
  | 0 => (0, 100000, 36000, 75000) | 1 => (0, 16000, 0, 10000) | 2 => (-400, 1500, 0, 850)
  | 3 => (-400, 4000, 0, 2500) | 4 => (-400, 1600, 0, 1050) | 5 => (-400, 1000, 50, 400)
  | 6 => (-400, 1200, 50, 700) | _ => (0, 1500, 600, 900)

/-- The plausibility windows that a COMMIT would leave are legal (R64). DESIGN CHOICE (log 148): "narrow but not widen" is
measured against the hard window, the only bound that R64 puts on a committed window, not against the default one. -/
def plausLegal (s : State) : Bool :=
  (List.range 8).all (fun c =>
    let lo := signed (mergedWord s 2 (regKey A.BW_PLAUS_LO c))
    let hi := signed (mergedWord s 2 (regKey A.BW_PLAUS_HI c))
    let h := plausHard c
    decide (lo < hi) && decide (h.1 ≤ lo) && decide (hi ≤ h.2.1) && decide (lo ≤ h.2.2.1) && decide (h.2.2.2 ≤ hi))

/-- The class settings that a COMMIT would leave are legal (R311). -/
def classesLegal (s : State) : Bool :=
  let w := fun (c : Nat) => mergedWord s 1 (regKey A.HM_CLASS c)
  let floor := fun (c : Nat) => bits (w c) 23 16
  (List.range 8).all (fun c => decide (floor c ≤ 40) && within (bits (w c) 7 0) 1 255) && decide (10 ≤ floor 0) &&
    decide (10 ≤ floor 1) && decide (listSum ((List.range 8).map floor) ≤ 70)

/-- The idle timers that a COMMIT would leave are legal (R333). -/
def idleLegal (s : State) : Bool :=
  let t := fun (k : Nat) => (mergedWord s 1 (A.HM_IDLE_T + 4 * k)).toNat
  within (t 0) 1 1000 && decide (t 0 < t 1) && decide (t 1 < t 2) && decide (t 2 < t 3) && decide (t 3 ≤ 86400000)

/-- The addresses that a COMMIT would leave on a port are legal (R117). -/
def addressLegal (s : State) (page : Nat) : Bool :=
  let v4 := (mergedWord s page (page * 0x1000 + 0x60)).toNat
  let v6 := fun (k : Nat) => (mergedWord s page (page * 0x1000 + 0x64 + 4 * k)).toNat
  !(within (v4 / 2 ^ 24) 224 239) && decide (v4 ≠ 2 ^ 32 - 1) && decide (v4 / 2 ^ 24 ≠ 127) &&
    decide (v6 0 / 2 ^ 24 ≠ 255) && !(v6 0 == 0 && v6 1 == 0 && v6 2 == 0 && v6 3 == 1)

/-- A COMMIT would change the address of a family that some mooring's path on the port uses (R117). -/
def addressInUse (s : State) (page : Nat) : Bool :=
  let p : Port := if page = 11 then .b else .a
  let changed := fun (a : Nat) => mergedWord s page a != regGet s a
  let used := fun (v6 : Bool) => s.moorings.any (fun m => m.2.tp.path.port == p && m.2.tp.path.ipv6 == v6)
  (changed (page * 0x1000 + 0x60) && used false) ||
    ((List.range 4).any (fun k => changed (page * 0x1000 + 0x64 + 4 * k)) && used true)

/-- The 324 bytes of a certificate that a COMMIT would make live. -/
def certBytes (s : State) (page data : Nat) : List Byte :=
  (List.range 81).flatMap (fun k => beBytes (mergedWord s page (regKey data k)).toNat 4)

/-- The certificate that 324 bytes spell (R94). -/
def certOf (bs : List Byte) : Cert :=
  { format := beAt bs 0 4, role := beAt bs 4 1, depth := beAt bs 5 1,
    reservedZero := beAt bs 6 2 == 0 && beAt bs 12 4 == 0 && beAt bs 0xE2 2 == 0,
    generation := beAt bs 8 4, subject := beAt bs 0x10 8, serial := beAt bs 0x18 8,
    subjectKey := Config.sha384 ((bs.drop 0x20).take 97), issuerKey := Config.sha384 ((bs.drop 0x81).take 97),
    sigOk := Config.sigVerifies ((bs.drop 0x81).take 97) (bs.take 0xE4) ((bs.drop 0xE4).take 96), bytes := bs.take 324 }

/-- Checks 1, 3 and 4 of R95 for one certificate. -/
def certSound (s : State) (c : Cert) : Bool :=
  c.format == 0x46434331 && c.reservedZero && (enabledRoots s).any (fun r => r.2 == c.issuerKey) && c.sigOk

/-- The drive's identity key, named by the SHA-384 of its 97-byte public key (R96). -/
def identityKey (s : State) : Nat := Config.sha384 (publicKey s.boot.keyStore.dik)

/-- A certificate that MO_DRIVE_CERT_DATA may install (R118). -/
def driveCertOk (s : State) (c : Cert) : Bool :=
  c.role == 5 && c.subjectKey == identityKey s && (c.serial == 0 || c.serial == s.flash.otp.serial) &&
    c.depth == 0 && certSound s c

/-- A certificate that HB_HCERT_DATA may install (R436). -/
def harbourCertOk (s : State) (c : Cert) : Bool :=
  c.role == 4 && c.depth == 0 && c.subjectKey == identityKey s && c.serial == s.flash.otp.serial && certSound s c

/-- The shadowed groups of a page hold legal values together (R64, R117, R311, R333). -/
def groupLegal (c : State) (page : Nat) : Bool :=
  if page = 1 then classesLegal c && idleLegal c
  else if page = 2 then plausLegal c
  else if page = 10 ∨ page = 11 then addressLegal c page
  else true

/-! ### Rejections (R44, R50, R56, R57) -/

/-- A rejected access is recorded: on the page, or on the SY page where the page has no PG_LAST_ERROR. -/
def recordReject (s : State) (path addr : Nat) (st : Status) : State :=
  let page := addr / 0x1000
  if pageMapped page && !isRecordPage page && decide (addr % 4 = 0) then
    regSet s (page * 0x1000 + 0x0C) (pack [(path, 30, 2), (addr % 0x1000, 16, 12), (statusCode st, 0, 16)])
  else
    let s := regSet s A.SY_ADDR_ERR_STATUS (pack [(path, 30, 2), (statusCode st, 0, 16)])
    raise (regSet s A.SY_ADDR_ERR_ADDR (word addr)) 0 1

/-! ### Overlays -/

/-- Bits of a register's fields of some kind. -/
def fieldMask (fs : List Field) (p : Field → Bool) : Nat :=
  fs.foldl (fun m f => if p f then m ||| ((2 ^ (f.hi - f.lo + 1) - 1) <<< f.lo) else m) 0

/-- The address an entry names. -/
def entryAddr (e : Entry) : Nat := e.page * 0x1000 + e.offset

/-- Put an entry's bits into the register word of a key. -/
def putEntry (s : State) (k : Nat) (e : Entry) : State := regSet s k ((regGet s k &&& ~~~e.mask) ||| (e.value &&& e.mask))

/-- Put an entry's bits into its register. -/
def applyEntry (s : State) (e : Entry) : State := putEntry s (keyOf s (entryAddr e)) e

/-- The key of the register word that each entry of a list takes when the list is applied in order: a selector that an entry
sets holds for those after it. -/
def entryKeys : State → List Entry → List (Nat × Entry)
  | _, [] => []
  | s, e :: rest => (keyOf s (entryAddr e), e) :: entryKeys (applyEntry s e) rest

/-- The drive with every register at its base value (R73, R75): its Reset value with the loaded base's entries. -/
def atBase (s : State) : State := s.flash.config.baseEntries.foldl applyEntry { s with regs := [] }

/-- Give the bits that an overlay owns their base values again (R75, step 1). -/
def restoreBase (s : State) (es : List (Nat × Entry)) : State :=
  let b := atBase s
  es.foldl (fun s e => regSet s e.1 ((regGet s e.1 &&& ~~~e.2.mask) ||| (regGet b e.1 &&& e.2.mask))) s

/-- Put an overlay in force over the base values, each entry with the key it takes. -/
def putOverlay (s : State) (es : List Entry) : State :=
  let ks := entryKeys s es
  let s := es.foldl applyEntry s
  { s with mode := { s.mode with active := ks } }

/-- Checks 1, 2, 4, 5 and 6 of one overlay entry (R73). -/
def entryBreach (e : Entry) : Option Status :=
  let blk := blockOfPage e.page
  let a := entryAddr e
  if blk = 6 ∨ blk = 5 ∨ blk = 4 ∨ 16 ≤ blk ∨ e.offset < 0x40 ∨ a = A.SY_MODE_REQ ∨ a = A.SY_PWR_CTRL then some .auth
  else if blk = 0 ∨ e.offset % 4 ≠ 0 ∨ 0x1000 ≤ e.offset then some .range
  else
    let fs := match regAt a with
      | some (r, _) => r.fields
      | none => [rsv 31 0]
    let m := e.mask.toNat
    if m &&& fieldMask fs (fun f => f.reserved) ≠ 0 ∨ e.value &&& ~~~e.mask ≠ 0 then some .reservedBits
    else if m &&& fieldMask fs (fun f => !f.reserved && (f.access == .ro || f.access == .wo || f.access == .w1c)) ≠ 0 then
      some .readOnly
    else if m &&& fieldMask fs (fun f => f.access == .rwl) ≠ 0 then some .locked
    else none

/-- The value that an entry leaves in its register word passes check 8 (R73): alone and with the other fields it is checked
against, and with its shadowed group. -/
def entryLegal (s c : State) (x : Nat × Entry) : Bool :=
  legalValue s c (entryAddr x.2) (regGet c x.1) && groupLegal { c with shadows := [] } x.2.page

/-- The first entry of an overlay that breaks R73, with its status; `s` holds the base values. -/
def overlayBreach (s : State) (es : List Entry) : Option (Nat × Status) :=
  let c := es.foldl applyEntry s
  let ks := entryKeys s es
  (List.range ks.length).findSome? (fun i =>
    match ks[i]? with
    | none => none
    | some x =>
      match entryBreach x.2 with
      | some st => some (i, st)
      | none =>
        if (ks.take i).any (fun y => entryAddr y.2 == entryAddr x.2 && y.2.mask &&& x.2.mask != 0) then some (i, .range)
        else if entryLegal s c x then none else some (i, .range))

/-- The stored overlay of a mode. -/
def overlayOf (s : State) (mode : Nat) : List Entry := s.flash.config.overlays.getD mode []

/-- CF_OVL_FAIL for a failing entry (R80). -/
def ovlFailWord (mode : Nat) (f : Nat × Status) : Word :=
  pack [(statusCode f.2, 16, 16), (mode, 8, 3), (1, 7, 1), (f.1, 0, 7)]

/-- Record an overlay entry that fails when its overlay is applied (R57, R75): CF_OVL_FAIL, the rejection on the entry's own
page with PATH 2, the record and the event. -/
def ovlApplyFailed (s : State) (mode : Nat) (es : List Entry) (f : Nat × Status) (csn : Nat) : State :=
  let w := ovlFailWord mode f
  let s := { s with flash := { s.flash with config := { s.flash.config with ovlFail := w } } }
  let s := match es[f.1]? with
    | some e => recordReject s 2 (entryAddr e) f.2
    | none => s
  let s := bump s (A.BW_REJ_COUNT + 24)
  raise (logRecord s 0x0022 (src 6 0) false (leBytes w.toNat 4 ++ leBytes csn 8)) 5 1

/-- The entry that would fail if the mode changed now (R75, step 2). -/
def modeBreach (s : State) (dst : Nat) : Option (Nat × Status) :=
  overlayBreach (restoreBase s s.mode.active) (overlayOf s dst)

/-! ### Mode changes (R75 to R79, R500) -/

/-- The mode becomes `to` (R75, R79): overlays are switched all or nothing, and MODE_CHANGED is written. -/
def enterMode (s : State) (dst cause csn : Nat) : State :=
  let old := s.mode.cur
  let base := restoreBase s s.mode.active
  let s : State := match modeBreach s dst with
    | some f => ovlApplyFailed { base with mode := { base.mode with active := [] } } dst (overlayOf s dst) f csn
    | none => putOverlay base (overlayOf s dst)
  let low := if dst = 1 ∧ (cause = 5 ∨ cause = 6) then some old else none
  let s := { s with mode := { s.mode with
    cur := dst, prev := old, cause := cause, autoLow := low, rebuild := s.mode.rebuild || dst == 4,
    operatorRebuild := s.mode.operatorRebuild || (dst == 4 && cause == 1 && !s.mode.rebuild) } }
  raise (logRecord s 0x0020 (src 1 0) false
    (leBytes old 1 ++ leBytes dst 1 ++ leBytes cause 1 ++ [0] ++ leBytes csn 8)) 0 0

/-- An automatic trigger that changes no mode is logged (R77). -/
def modeTrigger (s : State) (cause : Nat) : State :=
  logRecord s 0x0026 (src 1 0) false (leBytes s.mode.cur 1 ++ leBytes cause 1 ++ zeroBytes 2)

/-- An automatic mode change (R77): it takes effect between two admissions, and only from the modes its trigger names. -/
def autoMode (s : State) (dst cause : Nat) (allowed : List Nat) : State :=
  if allowed.contains s.mode.cur then enterMode s dst cause s.seqr.next else modeTrigger s cause

/-- The command role has fallen below 16 engines (R23, cause 0x04): MAINTENANCE, permanently. DESIGN CHOICE (log 152): where
the drive is in MAINTENANCE already there is no change of mode, and no MODE_TRIGGER record either, since this trigger takes
effect from every mode. -/
def permanentMaintenance (s : State) : State :=
  if s.mode.permanent then s
  else
    let s := { s with mode := { s.mode with permanent := true } }
    if s.mode.cur = 5 then s else enterMode s 5 4 s.seqr.next

/-- The rebuild completes (R500) where every hull rebuild has moved its sets and the operator's rebuild has ended. -/
def reviewRebuild (s : State) : State :=
  if s.mode.rebuild ∧ s.mode.hull.isEmpty ∧ !s.mode.operatorRebuild then
    let s := { s with mode := { s.mode with rebuild := false } }
    autoMode s 0 9 [4]
  else s

/-- A mode change that an operator requests, once every check has passed (R78): into AUDIT or QUIESCE it completes with a
drive-scope seal. -/
def requestMode (s : State) (dst mooring csn : Nat) (tag : Option (Nat × Nat)) : State :=
  if dst = s.mode.cur then s
  else
    let s := enterMode s dst 1 csn
    if dst = 2 ∨ dst = 3 then
      beginSeal { s with mode := { s.mode with changing := true, waiter := some (mooring, csn, tag) } }
        { csn := csn, scope := 2, quay := 0, berth := 16384, purpose := .modeChange }
    else s

/-- Begin an orderly shutdown (R62, step 1), written or started by a thermal trip. -/
def beginShutdown (s : State) (csn : Nat) : State :=
  let s := setPhase s 3
  let s : State := if s.mode.cur = 3 then s
    else
      let s := enterMode s 3 0x0A csn
      { s with mode := { s.mode with changing := true } }
  beginSeal s { csn := csn, scope := 2, quay := 0, berth := 16384, purpose := .shutdown }

end Sys2Proof.Machine
end

