-- ==== Sys2Proof/Machine/RegWrite.lean ====
section
/-! DEFINITION. Register writes: the checks of R57 word by word, shadows and their COMMIT (R58, R59, R362), and what a
write that passes sets off. -/

namespace Sys2Proof.Machine

/-! ### Fields of a write -/

/-- The fields at an address; LB_FAULT_CFG and LB_FAULT_N are read-only for rows 11 and 14 (R384). -/
def fieldsAt (s : State) (addr : Nat) : List Field :=
  match regAt addr with
  | none => [rsv 31 0]
  | some (r, _) =>
    let row := fieldOf s A.LB_FAULT_SEL 23 16
    if (addr = A.LB_FAULT_CFG ∨ addr = A.LB_FAULT_N) ∧ (row = 11 ∨ row = 14) then
      r.fields.map (fun f => { f with access := .ro })
    else r.fields

/-- The bits of a word that lie in fields of some kind. -/
def pick (w : Word) (fs : List Field) (p : Field → Bool) : Word := w &&& word (fieldMask fs p)

/-- The register belongs to a shadowed group. -/
def isShadowed (fs : List Field) : Bool := fs.any Field.shadowed

/-- A plainly stored field. -/
def storedField (f : Field) : Bool := !f.reserved && !f.shadowed && (f.access == .rw || f.access == .rwl)

/-- A word goes to the page's shadow (R58). -/
def shadowPut (s : State) (m page key : Nat) (w : Word) : State :=
  match shadowOf s page with
  | some _ => { s with shadows := s.shadows.map (fun h =>
      if h.page = page then { h with lastWrite := s.sessionUs, words := tabPut h.words key w } else h) }
  | none => { s with shadows := s.shadows ++ [{ page := page, owner := m, lastWrite := s.sessionUs,
                                                words := [(key, w)] }] }

/-- Put a word's stored fields in place, or into the shadow; what it sets off besides is in `trigger`. -/
def storeWord (m : Nat) (s : State) (addr : Nat) (w : Word) : State :=
  let fs := fieldsAt s addr
  let k := keyOf s addr
  if isShadowed fs then shadowPut s m (addr / 0x1000) k (pick w fs Field.shadowed)
  else if fs.any storedField then
    let live := regGet s k
    regSet s k ((live &&& ~~~(word (fieldMask fs storedField))) ||| pick w fs storedField)
  else s

/-- Put consecutive words in place, in ascending order. -/
def storeWords (m : Nat) : State → Nat → List Word → State
  | s, _, [] => s
  | s, addr, w :: ws => storeWords m (storeWord m s addr w) (addr + 4) ws

/-! ### COMMIT -/

/-- The overlay that the CF edit buffer would hold after a COMMIT (R80). -/
def editBuffer (s : State) : List Entry :=
  (List.range (bits (mergedWord s 5 A.CF_OVL_LEN) 7 0)).map (fun k =>
    let t := mergedWord s 5 (regKey A.CF_OVL_TARGET k)
    { page := bits t 23 12, offset := bits t 11 0, mask := mergedWord s 5 (regKey A.CF_OVL_MASK k),
      value := mergedWord s 5 (regKey A.CF_OVL_VALUE k) })

/-- The entry for which the definition of the edit buffer's overlay fails, with its status (R73). -/
def bufferBreach (s : State) : Option (Nat × Status) := overlayBreach (atBase s) (editBuffer s)

/-- The entry for which the overlay of the current mode fails when the COMMIT re-applies it (R75, R80). -/
def reapplyBreach (s : State) : Option (Nat × Status) :=
  if fieldOf s A.CF_OVL_MODE 2 0 = s.mode.cur then overlayBreach (restoreBase s s.mode.active) (editBuffer s) else none

/-- Entries that the edit buffer's CF_OVL_LEN claims. -/
def bufferLength (s : State) : Nat := bits (mergedWord s 5 A.CF_OVL_LEN) 7 0

/-- The status with which a COMMIT of the edit buffer fails (R73, R75, R80). DESIGN CHOICE (log 151): an overlay of the current
mode that passes over the base values and fails over the live ones rejects the COMMIT whole; nothing is stored. -/
def bufferStatus (s : State) : Option Status :=
  if 128 < bufferLength s then some .range else ((bufferBreach s).orElse (fun _ => reapplyBreach s)).map Prod.snd

/-- The fields of the key group as a COMMIT would leave them (R361): OP, SLOT, EXPORT_ID. -/
def keyGroup (s : State) : Nat × Nat × Nat :=
  (bits (mergedWord s 6 A.CP_KEY_OP) 2 0, bits (mergedWord s 6 A.CP_KEY_SLOT) 15 0,
    bits (mergedWord s 6 A.CP_KEY_DOMAIN) 27 0)

/-- Operation references to an epoch of a slot: admitted commands that have not ended (R341). -/
def epochRefs (s : State) (k epoch : Nat) : Nat :=
  (s.cmds.filter (fun c =>
    (c.epoch == epoch && (match tabGet s.flash.quays c.quay with
      | some q => q.slot == k
      | none => false)) ||
    (match c.job with
      | .exportSegs _ _ _ slot _ e _ => slot == k && e == epoch
      | _ => false))).length

/-- Shadows that a rewrite of a slot would leave: those still referenced, and the epoch that is current now if anything
refers to it. -/
def shadowsAfter (s : State) (k : Nat) (x : Slot) : List SlotShadow :=
  let old := x.shadows.filter (fun h => x.kind == 1 || epochRefs s k h.epoch != 0)
  if x.kind = 1 ∨ epochRefs s k x.epoch ≠ 0 then old ++ [⟨x.epoch, epochRefs s k x.epoch, x.key⟩] else old

/-- The checks of R362. -/
def keyCommitStatus (s : State) : Option Status :=
  let (op, k, ex) := keyGroup s
  let x := slotOf s k
  let kind := match x with
    | some y => y.kind
    | none => 0
  let live : Bool := match x with
    | some y => y.st == .live
    | none => false
  let full : Bool := match x with
    | some y => decide (4 < (shadowsAfter s k y).length)
    | none => false
  if 3 < op then some .range
  else if (op = 1 ∨ op = 2) ∧ s.cipher.locked then some .keyLost
  else if op = 1 ∧ kind ≠ 0 ∧ kind ≠ 4 then some .state
  else if op = 2 ∧ ¬(kind = 1 ∧ live) then some .state
  else if op = 3 ∧ kind ≠ 4 then some .state
  else if op = 1 ∧ s.cipher.slots.any (fun p => p.1 != k && p.2.kind == 4 && p.2.owner == ex) then some .range
  else if (op = 1 ∨ op = 2) ∧ full then some .keyBusy
  else none

/-- What a COMMIT of a page fails with (R58, check 8 of R57 over the whole shadow). -/
def commitStatus (s : State) (page : Nat) : Option Status :=
  if page = 1 then (if classesLegal s && idleLegal s then none else some .range)
  else if page = 2 then (if plausLegal s then none else some .range)
  else if page = 5 then bufferStatus s
  else if page = 6 then keyCommitStatus s
  else if page = 10 ∨ page = 11 then (if addressLegal s page then none else some .range)
  else if page = 12 then
    (if driveCertOk s (certOf (certBytes s 12 A.MO_DRIVE_CERT_DATA)) then none else some .auth)
  else if page = 13 then
    (if harbourCertOk s (certOf (certBytes s 13 A.HB_HCERT_DATA)) then none else some .auth)
  else none

/-! ### The checks of R57 -/

/-- Check 1: the path and role may write the register (R54, R384). -/
def mayWrite (path role addr : Nat) (w : Word) : Bool :=
  if path = 1 then addr == A.SY_PWR_CTRL && !bit w 8
  else if role = 1 then true
  else if role = 2 then
    addr == A.LB_FAULT_SEL || addr == A.LB_WIN_SEQ_LO || addr == A.LB_WIN_SEQ_HI ||
      (addr == A.LB_CONTROL && !bit w 31 && !bit w 30)
  else false

/-- Bits of a register word that an overlay in force owns and that a write would change (R74). -/
def ownedByOverlay (s : State) (key : Nat) (live w : Word) : Bool :=
  s.mode.active.any (fun e => e.1 == key && (w ^^^ live) &&& e.2.mask != 0)

/-- A COMMIT of a page's shadow would change bits that an overlay in force owns (R74). -/
def shadowOwned (s : State) (page : Nat) : Bool := match shadowOf s page with
  | some h => h.words.any (fun p => ownedByOverlay s p.1 (regGet s p.1) p.2)
  | none => false

/-- AUDIT accepts the write (R76): it changes no field and sets no write-only bit outside the registers named. -/
def auditAllows (s : State) (addr : Nat) (w : Word) : Bool :=
  let fs := fieldsAt s addr
  if addr = A.SY_MODE_REQ ∨ addr = A.SY_PWR_CTRL ∨ addr = A.LB_FAULT_SEL ∨ addr = A.LB_WIN_SEQ_LO ∨
      addr = A.LB_WIN_SEQ_HI then true
  else if addr = A.LB_CONTROL then !bit w 31 && !bit w 30
  else if addr = A.MO_KILL then false
  else
    let held := mergedWord s (addr / 0x1000) (keyOf s addr)
    pick (w ^^^ held) fs (fun f => !f.reserved && (f.access == .rw || f.access == .rwl)) == 0 &&
      pick w fs (fun f => !f.reserved && f.access == .wo) == 0 &&
      pick (w &&& held) fs (fun f => f.access == .w1c) == 0

/-- The page's shadow belongs to another mooring (R59). -/
def shadowForeign (s : State) (m page : Nat) : Bool := match shadowOf s page with
  | some h => h.owner != m
  | none => false

/-- EN_TEST.START is refused (R332). -/
def engineTestRefused (s : State) (e : Nat) : Bool :=
  let r := (roleOf s e).1
  ((r == 0 || r == 2) && serviceOpen s) || (engineOf s e).deconfigured ||
    (List.range 64).any (fun k => k != e && (engineOf s k).testing) ||
    (r == 1 && decide ((healthy s 1).length < 17))

/-- Check 7 for a register with a rule of its own; `w` is the word written, by mooring `m` of role `role`. -/
def stateRefuses (s : State) (m role addr : Nat) (w : Word) : Option Status :=
  let no := fun (b : Bool) => if b then some Status.state else none
  let page := addr / 0x1000
  let off := addr % 0x1000
  if off = 0x10 ∧ !isRecordPage page then
    no ((bit w 0 || bit w 1) && ((shadowOf s page).isNone || shadowForeign s m page ||
      (bit w 0 && (shadowOwned s page || ((page == 10 || page == 11) && addressInUse s page)))))
  else if addr = A.SY_MODE_REQ then
    no (s.mode.changing || decide (s.phase = 3) || decide (s.phase = 4) ||
      (s.mode.cur == 5 && bits w 2 0 != 5 && (s.mode.permanent || s.flash.config.defaultsPending)))
  else if addr = A.SY_PWR_CTRL then no (bit w 8 && (decide (s.phase = 3) || decide (s.phase = 4)))
  else if addr = A.CF_OVL_MODE then no (shadowOf s 5).isSome
  else if addr = A.CF_DEFAULTS_ACCEPT then no (bit w 0 && !s.flash.config.defaultsPending)
  else if addr = A.MO_KILL then
    no (bits w 11 0 == m || (match mooringOf s (bits w 11 0) with
      | some x => x.st != .moored
      | none => true))
  else if A.MO_CERT_GEN_MIN ≤ addr ∧ addr < A.MO_KILL then
    no (match mooringOf s m with
      | some x => x.role == (addr - A.MO_CERT_GEN_MIN) / 4 + 1 && decide (x.generation < w.toNat)
      | none => false)
  else if addr = A.LB_CONTROL then
    no ((bit w 28 && (match s.log.frozen with
        | some f => f.owner != m && role != 1
        | none => true)) ||
      (bit w 31 && !s.log.unacked))
  else if addr = A.CM_TEST then no (bit w 31 && s.index.test.isSome)
  else if addr = A.HB_CTRL then
    no ((bit w 31 && s.mode.cur != 0) || (bit w 30 && (!s.harbour.tows.isEmpty || !s.mode.rebuild)))
  else if addr = A.HB_ID then
    if !s.harbour.towlines.isEmpty || s.handshakes.any Handshake.towline then some .state
    else
      let clash : Bool := match tabGet s.harbour.members (bits w 11 0) with
        | some x => x.st == MemberState.present && x.serial != s.flash.otp.serial
        | none => false
      if clash then some .state
      else if 4096 ≤ (s.harbour.members.filter (fun p : Nat × Member => p.2.st == MemberState.present &&
          (p.1 != (harbourId s).2.2 || !(harbourId s).1))).length then some .tableFull
      else none
  else if blockOfPage page = 14 ∧ off = 0xA4 then no (bit w 31 && dieUnavailable s (16 * (page - 0x10) + bits w 27 24))
  else if blockOfPage page = 15 ∧ off = 0x64 then no (bit w 31 && engineTestRefused s (page - 0x50))
  else none

/-- The part of check 8 that looks beyond the word (R58, R75): a COMMIT over the page's shadow, a mode request over the
overlays. -/
def checkWhole (s : State) (addr : Nat) (w : Word) : Option Status :=
  if addr % 0x1000 = 0x10 ∧ bit w 0 then commitStatus s (addr / 0x1000)
  else if addr = A.SY_MODE_REQ ∧ bits w 2 0 ≠ s.mode.cur then (modeBreach s (bits w 2 0)).map Prod.snd
  else none

/-- Checks 1 to 8 for one word: `s` is the drive before the access, `c` with the words before it in place, `all` with
every word in place. The answer tells besides whether it is `checkWhole` that failed. -/
def checkWord (s c all : State) (path m role addr : Nat) (w : Word) (lengthOk : Bool) : Option (Status × Bool) :=
  let page := addr / 0x1000
  let off := addr % 0x1000
  let fs := fieldsAt c addr
  let k := keyOf c addr
  let live := regGet c k
  let cur := regWord s false addr
  if !mayWrite path role addr w then some (.auth, false)
  else if !pageMapped page || decide (addr % 4 ≠ 0) then some (.range, false)
  else if !lengthOk then some (.badLength, false)
  else if pick w fs Field.reserved != 0 then some (.reservedBits, false)
  else if pick (w ^^^ cur) fs (fun f => !f.reserved && f.access == .ro) != 0 then some (.readOnly, false)
  else if pageLocked s page && (off == 0x20 || pick (w ^^^ live) fs (fun f => f.access == .rwl) != 0) &&
      !isRecordPage page then some (.locked, false)
  else if ownedByOverlay s k live w || (path == 0 && s.mode.cur == 2 && !auditAllows c addr w) ||
      (isShadowed fs && shadowForeign s m page) then some (.state, false)
  else match stateRefuses s m role addr w with
    | some st => some (st, false)
    | none =>
      if isShadowed fs then none
      else if !legalValue s all addr w then some (.range, false)
      else (checkWhole s addr w).map (fun st => (st, true))

/-- The first word that fails, with its address and status. -/
def checkWords (s all : State) (path m role : Nat) (lengthOk : Bool) :
    State → Nat → List Word → Option (Nat × Status × Bool)
  | _, _, [] => none
  | c, addr, w :: ws =>
    match checkWord s c all path m role addr w lengthOk with
    | some st => some (addr, st)
    | none => checkWords s all path m role lengthOk (storeWord m c addr w) (addr + 4) ws

/-- A block of a mirrored region that is used in TLC mode: the logbook's (R363), a firmware bank's or the staging area's (R406). -/
def tlcRegion (b : Nat) : Bool :=
  let ch := dieOfBlock b / 16
  let d := dieOfBlock b % 16
  let plane := b / 1024 % 4
  let n := b % 1024
  if d = 14 then
    decide (1020 ≤ n) && (ch == 4 || ch == 20 || ch == 36 || ch == 52 || ((ch == 12 || ch == 44) && plane == 0))
  else if d = 13 then
    (ch % 16 == 0 && plane == 0 && (n == 1020 || n == 1021)) || ((ch == 8 || ch == 40) && plane == 1 && decide (1020 ≤ n))
  else false

/-- The checks of R248 on a diagnostic read that the access would start: `all` holds the values it would leave. -/
def diagRefused (s all : State) (ch : Nat) : Option Status :=
  let base := 0x10000 + ch * 0x1000
  let t := regGet all (base + 0xB8)
  let die := 16 * ch + bits t 27 24
  let b := blockNo die (bits t 23 22) (bits t 21 12)
  let mode := fieldOf all (base + 0xBC) 9 8
  let x := blockOf s b
  let d := dieOf s die
  if bit (regGet s (base + 0xC4)) 31 then some .state
  else if x.bad ∨ (if x.tlc ∨ tlcRegion b then 4096 else 1365) ≤ bits t 11 0 then some .range
  else if (d.op = 5 ∨ d.op = 6) ∧ d.plane = bits t 23 22 ∧ d.block = bits t 21 12 then some .blockErasing
  else if mode ≠ 0 ∧ dieUnavailable s die then some .state
  else none

/-- The diagnostic reads that an access starts, checked once every word has passed. -/
def diagCheck (s all : State) : Nat → List Word → Option (Nat × Status × Bool)
  | _, [] => none
  | addr, w :: ws =>
    if blockOfPage (addr / 0x1000) = 14 ∧ addr % 0x1000 = 0xBC ∧ bit w 31 then
      (diagRefused s all (addr / 0x1000 - 0x10)).map (fun st => (addr, st, false))
    else diagCheck s all (addr + 4) ws

/-- The verdict on an access of no words: checks 1 to 3 (R57). -/
def emptyVerdict (path role addr : Nat) : Status :=
  if !mayWrite path role addr 0 then .auth
  else if !pageMapped (addr / 0x1000) || decide (addr % 4 ≠ 0) then .range
  else .badLength

/-- The verdict on an access: none when every word passes. -/
def writeVerdict (s : State) (path m role addr : Nat) (ws : List Word) : Option (Nat × Status × Bool) :=
  if ws.isEmpty then some (addr, emptyVerdict path role addr, false)
  else
  let lengthOk := decide (1 ≤ ws.length) && decide (ws.length ≤ 64) && decide (addr % 0x1000 + 4 * ws.length ≤ 0x1000)
  let all := storeWords m s addr ws
  match checkWords s all path m role lengthOk s addr ws with
  | some f => some f
  | none => diagCheck s all addr ws

/-! ### A rejection -/

/-- The key words of a shadow of the CP page are zeroised (R362). -/
def zeroKeyData (s : State) : State :=
  { s with shadows := s.shadows.map (fun h =>
      if h.page = 6 then { h with words := h.words.filter (fun p =>
        !(decide (A.CP_KEY_DATA ≤ p.1) && decide (p.1 < A.CP_KEY_DATA + 32))) } else h) }

/-- What a COMMIT or mode request that `checkWhole` rejects leaves behind (R75, R80, R362). -/
def rejectedCommit (s : State) (addr : Nat) (w : Word) (csn : Nat) : State :=
  if addr = 0x5010 ∧ bit w 0 then
    let mode := fieldOf s A.CF_OVL_MODE 2 0
    if 128 < bufferLength s then s
    else match bufferBreach s, reapplyBreach s with
      | some f, _ => { s with flash := { s.flash with config := { s.flash.config with ovlFail := ovlFailWord mode f } } }
      | none, some f => ovlApplyFailed s mode (editBuffer s) f csn
      | none, none => s
  else if addr = 0x6010 ∧ bit w 0 then
    let s := zeroKeyData s
    if keyCommitStatus s = some .keyBusy then bumpHalf s A.CP_KEY_REFUSED 16 else s
  else if addr = A.SY_MODE_REQ then
    match modeBreach s (bits w 2 0) with
    | some f => ovlApplyFailed s (bits w 2 0) (overlayOf s (bits w 2 0)) f csn
    | none => s
  else s

/-! ### What an accepted write sets off -/

/-- A slot's key record as it is stored (R353). -/
def recordOf (k : Nat) (x : Slot) : KeyRecord :=
  { slot := k, kind := x.kind, owner := x.owner, epoch := x.epoch, chunk := x.chunk, key := x.key,
    indexKey := x.indexKey, shadows := if x.kind = 4 then [] else x.shadows, bytes := [] }

/-- A slot's key record with its bytes: its keys are wrapped where the slot holds them and the KEK is there. -/
def wrappedRecord (s : State) (k : Nat) (x : Slot) : KeyRecord :=
  let r := recordOf k x
  match s.cipher.kek, x.st, tabGet s.flash.keyRecords k with
  | some kek, .live, _ => { r with bytes := keyRecordBytes kek r }
  | _, _, some old => keyRecordCarry old r
  | _, _, none => r

/-- Write a slot's key record, or erase it with the slot (R353). -/
def saveKey (s : State) (k : Nat) : State :=
  match slotOf s k with
  | some x => { s with flash := { s.flash with keyRecords := tabPut s.flash.keyRecords k (wrappedRecord s k x) } }
  | none => { s with flash := { s.flash with keyRecords := tabErase s.flash.keyRecords k } }

/-- A quay's slot is rekeyed (R346): a drawn key becomes its next epoch and a sweep begins. -/
def rekeySlot (s : State) (k : Nat) : State :=
  match slotOf s k with
  | none => s
  | some x =>
    let y := { x with key := .drawn s.draws, epoch := (x.epoch + 1) % 65536, ctr := 0, chunk := 0,
                      shadows := shadowsAfter s k x }
    let s := saveKey (updSlot { s with draws := s.draws + 1 } k (fun _ => y)) k
    { s with cipher := { s.cipher with rekey := s.cipher.rekey.orElse (fun _ => some (x.owner, k)) } }

/-- The live key group does its work (R339, R341, R342, R362). -/
def keyCommit (s : State) (ws : List Word) : State :=
  let (op, k, ex) := keyGroup s
  match op with
  | 1 =>
    let s : State := match slotOf s k with
      | none => putSlot s k 4 ex (.words ws) 0
      | some x =>
        let y := { x with key := .words ws, epoch := (x.epoch + 1) % 65536, ctr := 0, chunk := 0, owner := ex,
                          shadows := shadowsAfter s k x }
        updSlot s k (fun _ => y)
    saveKey s k
  | 2 => rekeySlot s k
  | 3 => saveKey (freeSlot s k) k
  | _ => s

/-- The words of a page's shadow become live and the shadow is released. -/
def shadowLive (s : State) (page : Nat) : State :=
  match shadowOf s page with
  | none => s
  | some h =>
    let keep := h.words.filter (fun p => !(decide (A.CP_KEY_DATA ≤ p.1) && decide (p.1 < A.CP_KEY_DATA + 32)))
    let s := { s with shadows := s.shadows.filter (fun x => x.page != page) }
    keep.foldl (fun s p => regSet s p.1 p.2) s

/-- An accepted COMMIT (R58, R80, R118, R362, R436). -/
def commitPage (s : State) (page : Nat) : State :=
  if page = 5 then
    let es := editBuffer s
    let mode := fieldOf s A.CF_OVL_MODE 2 0
    let s := shadowLive s 5
    let s := { s with flash := { s.flash with config := { s.flash.config with
      overlays := listSet s.flash.config.overlays mode es } } }
    let s : State := if mode = s.mode.cur then
        putOverlay (restoreBase s s.mode.active) es
      else s
    raise s 5 0
  else if page = 6 then
    let ws := (List.range 8).map (fun i => mergedWord s 6 (A.CP_KEY_DATA + 4 * i))
    shadowLive (keyCommit s ws) 6
  else if page = 12 then
    let c := certOf (certBytes s 12 A.MO_DRIVE_CERT_DATA)
    let s := shadowLive s 12
    { s with flash := { s.flash with driveCert := some c } }
  else if page = 13 then
    let c := certOf (certBytes s 13 A.HB_HCERT_DATA)
    let s := shadowLive s 13
    { s with flash := { s.flash with harbourCert := some c } }
  else shadowLive s page

/-- A shadow is released without a COMMIT (R59). -/
def discardShadow (s : State) (page : Nat) : State :=
  match shadowOf s page with
  | none => s
  | some h =>
    logRecord { s with shadows := s.shadows.filter (fun x => x.page != page) } 0x0021
      (src (blockOfPage page) (pageInstance page)) false (leBytes page 2 ++ leBytes h.owner 2)

/-- CF_OVL_MODE loads the edit buffer with the overlay of the mode (R80). -/
def loadEdit (s : State) (mode : Nat) : State :=
  let es := overlayOf s mode
  let s := regSet s A.CF_OVL_LEN (word es.length)
  let clear := s.regs.filter (fun p =>
    !(let a := p.1 % 2 ^ 24; a == A.CF_OVL_TARGET || a == A.CF_OVL_MASK || a == A.CF_OVL_VALUE))
  (List.range es.length).foldl (fun s k =>
    match es[k]? with
    | some e =>
      let s := regSet s (regKey A.CF_OVL_TARGET k) (pack [(e.page, 12, 12), (e.offset, 0, 12)])
      regSet (regSet s (regKey A.CF_OVL_MASK k) e.mask) (regKey A.CF_OVL_VALUE k) e.value
    | none => s) { s with regs := clear }

/-- The lowest lane of the set that a mode of `k` lanes would use: none when every set holds a failed lane (R81, R82). -/
def laneSet (l : LinkState) (k : Nat) : Option Nat :=
  ((List.range (4 / k)).map (fun i => i * k)).find? (fun f =>
    (List.range k).all (fun j => !l.laneFailed.contains (f + j)))

/-- A mode is allowed and has a usable lane set. -/
def modeUsable (s : State) (p : Port) (k : Nat) : Bool :=
  bit (regGet s (npAddr p A.NP_LINK_CTRL)) (if k = 1 then 0 else if k = 2 then 1 else 2) &&
    (laneSet (linkOf s p) k).isSome

/-- The port has a usable lane set. -/
def portUsable (s : State) (p : Port) : Bool := modeUsable s p 1 || modeUsable s p 2 || modeUsable s p 4

/-- The link goes down, from whatever phase (R82): bring-up starts again with every allowed mode advertised, unless no lane
set is usable or the port is held down. -/
def linkDown (s : State) (p : Port) : State :=
  let l := linkOf s p
  let phase : LinkPhase := if l.heldDown || !portUsable s p then .down else .detect
  let s := setLink s p { l with phase := phase, lanes := 0, firstLane := 0, tryLanes := 0, trainFails := 0, dropped := [] }
  if l.phase = .up then raise s (portPage p) 1 else s

/-- The bank that a test takes next (R220): the next in ascending number, in service as a rule, in-flight, hot-key or
spare bank. -/
def nextTestBank (s : State) : Option Nat :=
  let first := if s.index.testedAt.isEmpty then 0 else s.index.lastTested + 1
  let order := (List.range 64).map (fun k => (first + k) % 64)
  order.find? (fun b => decide (1 ≤ s.index.banks.getD b 0) && decide (s.index.banks.getD b 0 ≤ 4))

/-- Start a bank test (R220, step 1): the lowest spare becomes the migration target; with none, testing pauses. -/
def startBankTest (s : State) : State :=
  match nextTestBank s with
  | none => s
  | some t =>
    match (banksOf s 4).find? (fun b => b != t) with
    | none => raise s 7 1
    | some g => { s with index := { s.index with test := some { bank := t, target := g },
                                                 banks := listSet s.index.banks g 6 } }

/-- LB_CONTROL's bits do their work (R373, R374, R377, R380). -/
def lbControl (s : State) (w : Word) (m csn : Nat) (tag : Option (Nat × Nat)) : State :=
  let s : State := if bit w 31 then
      logRecord { s with log := { s.log with unacked := false } } 0x000B (src 4 0) true (leBytes m 2)
    else s
  let s : State := if bit w 30 then
      let q := s.log.nextSeq - 1
      { s with draws := s.draws + 1, log := { s.log with
        nonce := some { draw := s.draws, seq := q, issuedAt := s.sessionUs },
        nonceDraw := some s.draws, nonceSeq := q } }
    else s
  if bit w 29 then
    let last := s.log.nextSeq - 1
    let wait := if s.log.media = 3 then none else some (m, csn, tag)
    let s := { s with log := { s.log with frozen := some { owner := m, since := s.sessionUs }, frozenSeq := last,
                                          freezeWait := wait } }
    logRecord s 0x0009 (src 4 0) false (leBytes m 2 ++ leBytes last 8)
  else if bit w 28 then endFreeze s m 0
  else s

/-- Moorings of a role below a generation are torn down (R114, cause 0x05). -/
def cullMoorings (s : State) (role gen : Nat) : State :=
  s.moorings.foldl (fun s p =>
    if p.2.role = role ∧ p.2.generation < gen then teardown s p.1 5 else s) s

/-- What one accepted word sets off, once it is in place: `m` and `csn` are the writer and the write's CSN. -/
def trigger (s : State) (addr : Nat) (w : Word) (m csn : Nat) (tag : Option (Nat × Nat)) : State :=
  let page := addr / 0x1000
  let off := addr % 0x1000
  if off = 0x10 ∧ !isRecordPage page then
    let s := if bit w 0 then commitPage s page else s
    let s := if bit w 1 then discardShadow s page else s
    if bit w 2 then regSet s (page * 0x1000 + 0x0C) 0 else s
  else if off = 0x14 ∧ !isRecordPage page then regSet s addr (regGet s addr &&& ~~~w)
  else if addr = A.SY_MODE_REQ then requestMode s (bits w 2 0) m csn tag
  else if addr = A.SY_PWR_CTRL then
    let s := if bits w 2 0 < s.pstate.cur then setPState s (bits w 2 0) else s
    if bit w 8 then beginShutdown s csn else s
  else if addr = A.CF_OVL_MODE then loadEdit s (bits w 2 0)
  else if addr = A.CF_BOOT_MODE then
    { s with flash := { s.flash with config := { s.flash.config with bootMode := regGet s A.CF_BOOT_MODE } } }
  else if addr = A.CF_DEFAULTS_ACCEPT ∧ bit w 0 then
    { s with flash := { s.flash with config := { s.flash.config with defaultsPending := false } } }
  else if addr = A.MO_KILL then teardown s (bits w 11 0) 4
  else if A.MO_CERT_GEN_MIN ≤ addr ∧ addr < A.MO_KILL then
    cullMoorings s ((addr - A.MO_CERT_GEN_MIN) / 4 + 1) w.toNat
  else if addr = A.LB_CONTROL then lbControl s w m csn tag
  else if addr = A.CM_TEST ∧ bit w 31 then startBankTest s
  else if addr = A.DR_CKPT ∧ bit w 31 then { s with space := { s.space with ckptQueued := true } }
  else if addr = A.HB_CTRL then
    let s : State := if bit w 31 then
        let s := enterMode s 4 8 csn
        { s with mode := { s.mode with operatorRebuild := true } }
      else s
    if bit w 30 then reviewRebuild { s with mode := { s.mode with operatorRebuild := false } } else s
  else if addr = A.HB_ID then { s with harbour := { s.harbour with idSet := true } }
  else if (page = 10 ∨ page = 11) ∧ off = 0x44 ∧ bit w 8 then linkDown s (if page = 11 then .b else .a)
  else if blockOfPage page = 14 ∧ off = 0xA4 ∧ bit w 31 then
    updDie s (16 * (page - 0x10) + bits w 27 24) (fun d => { d with calDue := true })
  else if blockOfPage page = 14 ∧ off = 0xBC ∧ bit w 31 then
    holdTest { regSet s (page * 0x1000 + 0xC4) (word (2 ^ 31)) with space := { s.space with
      diag := tabPut s.space.diag (page - 0x10) (regGet s (page * 0x1000 + 0xB8), bits w 9 8) } } (64 + (page - 0x10))
  else if blockOfPage page = 15 ∧ off = 0x64 ∧ bit w 31 then
    holdTest (updEngine s (page - 0x50) (fun e => { e with testing := true })) (page - 0x50)
  else s

/-- Apply the words of an accepted access, in ascending order. -/
def applyWords (m csn : Nat) (tag : Option (Nat × Nat)) : State → Nat → List Word → State
  | s, _, [] => s
  | s, addr, w :: ws => applyWords m csn tag (trigger (storeWord m s addr w) addr w m csn tag) (addr + 4) ws

/-- The completion of the access waits: a mode change that seals (R78), or a freeze (R373). -/
def completionWaits (s : State) (addr : Nat) (w : Word) : Bool :=
  (addr == A.SY_MODE_REQ && (bits w 2 0 == 2 || bits w 2 0 == 3) && bits w 2 0 != s.mode.cur) ||
    (addr == A.LB_CONTROL && bit w 29 && s.log.media != 3)

/-- Whether the completion of an access waits on one of its words. -/
def anyWaits (s : State) : Nat → List Word → Bool
  | _, [] => false
  | addr, w :: ws => completionWaits s addr w || anyWaits s (addr + 4) ws

/-- The word at an address of an access. -/
def wordAt (addr : Nat) (ws : List Word) (a : Nat) : Word := ws.getD ((a - addr) / 4) 0

/-- A register write, checked whole and then applied (R55, R57): the state after it, its status, and whether its
completion waits. -/
def writeRegs (s : State) (path m role addr csn : Nat) (tag : Option (Nat × Nat)) (ws : List Word) :
    State × Status × Bool :=
  match writeVerdict s path m role addr ws with
  | some (a, st, whole) =>
    let s := if whole then rejectedCommit s a (wordAt addr ws a) csn else s
    (bump (recordReject s path a st) (A.BW_REJ_COUNT + 20), st, false)
  | none =>
    let waits := anyWaits s addr ws
    (reviewSpace (applyWords m csn tag s addr ws), .ok, waits)

end Sys2Proof.Machine
end

