-- ==== Sys2Proof/Machine/Base.lean ====
section
/-! DEFINITION. The base configuration's image: its layout (R68, R69), the role counts it assigns (R18), and the checks of
R70 to R72 on a copy. -/

namespace Sys2Proof.Machine

/-! ### The image (R68, R69) -/

/-- An entry's twelve bytes (R69). -/
def entryBytes (e : Entry) : List Byte :=
  leBytes e.page 2 ++ leBytes e.offset 2 ++ leBytes e.mask.toNat 4 ++ leBytes e.value.toNat 4

/-- The entry that twelve bytes spell, with the four bits of PAGE and of OFFSET that R69 keeps zero. -/
def entryOf (bs : List Byte) : Entry :=
  { page := leAt bs 0 2, offset := leAt bs 2 2, mask := word (leAt bs 4 4), value := word (leAt bs 8 4) }

/-- `n` entries from an offset. -/
def entriesAt (bs : List Byte) : Nat → Nat → List Entry
  | 0, _ => []
  | n + 1, off => entryOf (bs.drop off) :: entriesAt bs n (off + 12)

def imgMagic (b : BaseImage) : Nat := leAt b.bytes 0 4

def imgSchema (b : BaseImage) : Nat := leAt b.bytes 4 2

def imgRevision (b : BaseImage) : Nat := leAt b.bytes 6 2

def imgHwType (b : BaseImage) : Nat := leAt b.bytes 8 2

/-- BASE_COUNT. -/
def imgBaseCount (b : BaseImage) : Nat := leAt b.bytes 0x0A 2

/-- OVL_COUNT[0:5]. The field has one byte a mode. -/
def imgOvlCounts (b : BaseImage) : List Nat := (List.range 6).map (fun k => leAt b.bytes (0x0C + k) 1)

/-- ROOT_SLOT. -/
def imgRootSlot (b : BaseImage) : Nat := leAt b.bytes 0x12 1

/-- Entries of the image. -/
def imgCount (b : BaseImage) : Nat := imgBaseCount b + listSum (imgOvlCounts b)

/-- Offset of the CRC. -/
def imgCrcAt (b : BaseImage) : Nat := 0x18 + 12 * imgCount b

/-- The base entries. -/
def imgEntries (b : BaseImage) : List Entry := entriesAt b.bytes (imgBaseCount b) 0x18

/-- The default overlays of modes 0 to 5. -/
def imgOverlays (b : BaseImage) : List (List Entry) :=
  (List.range 6).map (fun k =>
    entriesAt b.bytes ((imgOvlCounts b).getD k 0) (0x18 + 12 * (imgBaseCount b + listSum ((imgOvlCounts b).take k))))

/-- The image is at most 64 KiB, and its length agrees with its counts. -/
def imgLengthOk (b : BaseImage) : Bool := decide (b.bytes.length ≤ 65536) && b.bytes.length == imgCrcAt b + 4 + 97 + 96

/-- CRC is the CRC-32C of every preceding byte. -/
def imgCrcOk (b : BaseImage) : Bool := leAt b.bytes (imgCrcAt b) 4 == crc32c (b.bytes.take (imgCrcAt b))

/-- PUBKEY. -/
def imgPubkey (b : BaseImage) : List Byte := (b.bytes.drop (imgCrcAt b + 4)).take 97

/-- SIG verifies over every preceding byte. -/
def imgSigOk (b : BaseImage) : Bool :=
  Config.sigVerifies (imgPubkey b) (b.bytes.take (imgCrcAt b + 101)) ((b.bytes.drop (imgCrcAt b + 101)).take 96)

/-- SHA-384 of the image. -/
def imgDigest (b : BaseImage) : Nat := Config.sha384 b.bytes

/-- The reserved bytes are zero. -/
def imgReservedZero (b : BaseImage) : Bool := leAt b.bytes 0x13 5 == 0

/-! ### The checks of R70 to R72 -/

/-- A PG_LOCK entry of the base (R60). -/
def lockEntry (e : Entry) : Bool := e.offset == 0x20

/-- Base entries in the order in which they are applied: those for PG_LOCK last. -/
def baseOrder (es : List Entry) : List Entry := es.filter (fun e => !lockEntry e) ++ es.filter lockEntry

/-- The bits of a base entry that its register keeps. -/
def keptEntry (e : Entry) : Entry :=
  let keep := match regAt (entryAddr e) with
    | some (r, _) => word (fieldMask r.fields (fun f => !f.reserved && (f.access == .rw || f.access == .rwl || lockEntry e)))
    | none => 0
  { e with mask := e.mask &&& keep, value := e.value &&& keep }

/-- The checks of R57 and R72 for one base entry: `s` is the drive before the base, `c` with the entries before this one in
place, `at_` with it in place too, `all` with every entry in place. Each entry is judged on the value it gives itself, with the
other fields as the whole image leaves them. -/
def baseEntryStatus (s c at_ all : State) (e : Entry) : Option Status :=
  let blk := blockOfPage e.page
  let a := entryAddr e
  let low := decide (e.offset < 0x40) && e.offset != 0x18 && e.offset != 0x20
  if 16 ≤ blk ∨ blk = 5 ∨ blk = 6 ∨ low then some .auth
  else if blk = 0 ∨ e.offset % 4 ≠ 0 ∨ 0x1000 ≤ e.offset then some .range
  else
    let fs := fieldsAt c a
    let cur := regWord s false a
    let w := (cur &&& ~~~e.mask) ||| (e.value &&& e.mask)
    let k := keyOf c a
    if pick e.value fs Field.reserved ≠ 0 ∨ e.value &&& ~~~e.mask ≠ 0 then some .reservedBits
    else if pick (w ^^^ cur) fs (fun f => !f.reserved && f.access == .ro) ≠ 0 then some .readOnly
    else if pageLocked c e.page then some .locked
    else if isShadowed fs then (if groupLegal all e.page then none else some .range)
    else
      let sel := a == A.LB_FAULT_CFG || a == A.LB_FAULT_N
      if legalValue s (if sel then at_ else all) a (regGet at_ k) then none else some .range

/-- The first base entry that fails, with its address and status. -/
def baseEntriesBreach (s all : State) : State → List Entry → Option (Nat × Status)
  | _, [] => none
  | c, e :: rest =>
    let at_ := applyEntry c (keptEntry e)
    match baseEntryStatus s c at_ all e with
    | some st => some (entryAddr e, st)
    | none => baseEntriesBreach s all at_ rest

/-- Every overlay of an image passes R73 over the image's base values. -/
def overlaysBreach (all : State) (os : List (List Entry)) : Option (Nat × Status) :=
  os.findSome? (fun es => (overlayBreach all es).map (fun f => (((es[f.1]?).map entryAddr).getD 0, f.2)))

/-- The role counts that a base assigns lie in the bounds of R18. -/
def imgRolesOk (b : BaseImage) : Bool := match b.roles with
  | some cs => rolesLegal cs
  | none => true

/-- The verdict of R70 on a copy: its status, with the address of the entry that fails, if one does. The role counts (R18),
for which R70 names no check, are tested with the values of check 8. -/
def baseVerdict (s : State) (schema : Nat) (b : BaseImage) : Option (Status × Option Nat) :=
  if !b.readable then some (.media, none)
  else if imgMagic b ≠ 0x46434B39 ∨ !imgLengthOk b then some (.range, none)
  else if imgBaseCount b = 0 ∨ 4096 < imgBaseCount b ∨ (imgOvlCounts b).any (fun n => decide (128 < n)) then some (.range, none)
  else if !imgReservedZero b then some (.reservedBits, none)
  else if !imgCrcOk b then some (.integrity, none)
  else if 3 < imgRootSlot b ∨ (rootSlots s).getD (imgRootSlot b) none ≠ some (Config.sha384 (imgPubkey b)) ∨ !imgSigOk b then
    some (.auth, none)
  else if imgHwType b ≠ 0x9256 ∨ imgSchema b ≠ schema then some (.binding, none)
  else if !imgRolesOk b then some (.range, none)
  else
    let es := baseOrder (imgEntries b)
    let all := es.foldl (fun c e => applyEntry c (keptEntry e)) s
    match (baseEntriesBreach s all s es).orElse (fun _ => overlaysBreach all (imgOverlays b)) with
    | some (a, st) => some (st, some a)
    | none => none

end Sys2Proof.Machine
end

