-- ==== Sys2Proof/Machine/Media.lean ====
section
/-! DEFINITION. What lies on flash, as bytes: locations (R187), a page's metadata and codewords (R227 to R229), records and their
segments (R269, R270, R347), markers (R273) and leaves (R188, R189, R274). -/

namespace Sys2Proof.Machine

/-! ### Sizes -/

/-- `ceil (n / 64)`. -/
def units64 (n : Nat) : Nat := (n + 63) / 64

/-- Segments of a value (R159). -/
def segments (len : Nat) : Nat := (len + 65535) / 65536

/-- Units of a record (R269). -/
def recordUnits (keyLen : Nat) (value : Option Nat) : Nat :=
  1 + units64 keyLen + (match value with
    | some len => segments len + (len / 65536) * 1024 + units64 (len % 65536)
    | none => 0)

/-- Units of a record before its first segment: the header unit and the key. -/
def headUnits (keyLen : Nat) : Nat := 1 + units64 keyLen

/-- Granules that a key and its value take (R158). -/
def granules (keyLen valueLen : Nat) : Nat := max 1 (units64 (keyLen + valueLen))

/-- Value length of an item, a lost marker's recorded length included. -/
def itemLen (i : Item) : Nat := match i.kind with
  | .value => i.value.length
  | .lost => i.lostLen
  | .deletion => 0

/-- The item shows an existing key: a value, or a lost key (R157). -/
def exists_ (i : Item) : Bool := i.kind != .deletion

/-- The version of a key in a state (R156): 0 when absent. -/
def versionOf : Option Item → Nat
  | some i => if exists_ i then i.version else 0
  | none => 0

/-! ### Locations (R187) -/

/-- The location of a unit of a page, given as 4,096 × block + page: CHANNEL, DIE, PLANE and BLOCK are the global number of the
block. -/
def locWord (page unit : Nat) : Nat := page * 2 ^ 14 + unit * 2 ^ 6

/-- The location of an item's record. -/
def itemLoc (i : Item) : Nat := match i.spans with
  | x :: _ => locWord x.page x.at_
  | [] => 0

/-- The pages that hold units `a` to `a + n - 1` of a record. -/
def unitPages (i : Item) (a n : Nat) : List Nat :=
  (i.spans.filter (fun x => decide (x.first < a + n) && decide (a < x.first + x.units))).map Span.page

/-- A page that holds some of these units can be neither read nor reconstructed. -/
def unitsLost (i : Item) (a n : Nat) : Bool := (unitPages i a n).any (fun p => i.badPages.contains p)

/-- The units of a segment of a value: its descriptor and its ciphertext. -/
def segmentUnits (i : Item) (k : Nat) : Nat × Nat :=
  (headUnits i.key.length + 1025 * k, 1 + units64 (min 65536 (i.value.length - 65536 * k)))

/-- A segment lies, in part or whole, on a lost page. -/
def segmentLost (i : Item) (k : Nat) : Bool := unitsLost i (segmentUnits i k).1 (segmentUnits i k).2

/-- The header or key of a record lies on a lost page. -/
def headLost (i : Item) : Bool := unitsLost i 0 (headUnits i.key.length)

/-- A page of the item's record is lost. -/
def itemUnread (i : Item) : Bool := !i.badPages.isEmpty

/-! ### Sealed segments (R343, R347) -/

/-- The key material of an epoch of a slot. -/
def epochKey (x : Slot) (epoch : Nat) : Option KeyMaterial :=
  if x.epoch = epoch then some x.key else (x.shadows.find? (fun h => h.epoch == epoch)).map SlotShadow.key

/-- The 32 bytes of additional data of a segment of a value. -/
def segmentAad (quay digest csn total seg : Nat) : List Byte :=
  beBytes quay 2 ++ beBytes digest 16 ++ beBytes csn 8 ++ beBytes total 4 ++ beBytes seg 2

/-- The nonce domain of a quay's epoch. -/
def quayDomain (quay epoch : Nat) : Nat := 2 ^ 28 + epoch * 4096 + quay

/-- Segment `k` of a value. -/
def segmentOf (value : List Byte) (k : Nat) : List Byte := (value.drop (65536 * k)).take 65536

/-- Bytes filled up with zeros to whole units. -/
def wholeUnits (bs : List Byte) : List Byte := fit bs (64 * units64 bs.length)

/-- A segment on flash: its descriptor (R270) and its ciphertext. -/
def segmentBytes (key : List Byte) (i : Item) (k : Nat) : List Byte :=
  let plain := segmentOf i.value k
  let ctr := i.ctr + k
  let out := gcmSeal key (quayDomain i.quay i.epoch) ctr (segmentAad i.quay i.digest i.csn i.value.length k) plain
  fit (beBytes (quayDomain i.quay i.epoch) 4 ++ beBytes ctr 8 ++ leBytes plain.length 4 ++ out.drop plain.length ++ leBytes k 2) 64
    ++ wholeUnits (out.take plain.length)

/-! ### Records and markers -/

/-- Units of an item's record. -/
def itemUnits (i : Item) : Nat := recordUnits i.key.length (if i.kind = .value then some i.value.length else none)

/-- RFLAGS of a record as first landed; a copy has them clear (R271). -/
def recordFlags (i : Item) : Nat := flag (i.pseq != 0) + 2 * flag i.batch + 4 * flag (i.marked && decide (256 < itemUnits i))

/-- The header unit of a record (R269). -/
def recordHeader (i : Item) : List Byte :=
  leBytes 0x5243 2 ++ leBytes (if i.kind = .value then 1 else 2) 1 ++ leBytes (recordFlags i) 1 ++ leBytes i.quay 2 ++
    leBytes i.key.length 2 ++ leBytes (if i.kind = .value then i.value.length else 0) 4 ++ leBytes i.entry 2 ++ leBytes 0 2 ++
    leBytes i.digest 16 ++ leBytes i.csn 8 ++ leBytes (if i.kind = .value then i.version else 0) 8 ++ leBytes i.recordId 8 ++
    leBytes i.pseq 8

/-- A record: header, key and segments, under a key of the quay's slot. -/
def recordBytes (key : List Byte) (i : Item) : List Byte :=
  recordHeader i ++ wholeUnits i.key ++
    (if i.kind = .value then (List.range (segments i.value.length)).flatMap (segmentBytes key i) else [])

/-- A marker's body (R273): a commit marker lists the records of its mutation, a lost marker the key. -/
def markerBody (kind : PieceKind) (csn : Nat) (records : List Item) (lost : Option Item) : List Byte :=
  match kind with
  | .commitMarker =>
    leBytes csn 8 ++ leBytes records.length 2 ++ zeroBytes 6 ++ records.flatMap (fun i => leBytes i.recordId 8)
  | .lostMarker => (match lost with
    | some i => leBytes csn 8 ++ leBytes i.version 8 ++ leBytes i.digest 16 ++ leBytes i.quay 2 ++ leBytes i.key.length 2 ++
        leBytes i.lostStatus 2 ++ zeroBytes 2 ++ leBytes i.lostLen 4 ++ zeroBytes 4 ++ i.key
    | none => leBytes csn 8)
  | .voidMarker | .record => leBytes csn 8

/-- IDENT of a marker (R273). -/
def markerIdent (kind : PieceKind) (records : List Item) (lost : Option Item) : Nat :=
  let first := if kind = .lostMarker then lost else records.head?
  let quay := (first.map Item.quay).getD 0
  let pseq := (first.map Item.pseq).getD 0
  match kind with
  | .commitMarker => 1 + records.length * 2 ^ 16 + quay * 2 ^ 32 + pseq * 2 ^ 64
  | .lostMarker => 3 + quay * 2 ^ 32 + pseq * 2 ^ 64
  | .voidMarker | .record => 2

/-! ### Pages (R227 to R229) -/

/-- The metadata of a page but for its CRC. -/
def metaBody (m : PageMeta) : List Byte :=
  leBytes m.typ 1 ++ leBytes m.pflags 1 ++ leBytes m.position 2 ++ leBytes m.set 4 ++ leBytes m.csn 8 ++ leBytes m.ident 16 ++
    leBytes m.eraseCount 4 ++ zeroBytes 24

/-- The 64 metadata bytes. -/
def metaBytes (m : PageMeta) : List Byte := metaBody m ++ leBytes (crc32c (metaBody m)) 4

/-- The CRC of 64 metadata bytes verifies. -/
def metaOk (bs : List Byte) : Bool := bs.length == 64 && leAt bs 60 4 == crc32c (bs.take 60)

/-- The metadata of a page, valid when either copy verifies; the identity block governs (R228). -/
def metaRead (p : Page) : Option (List Byte) :=
  if metaOk p.ident then some p.ident else if metaOk p.code then some p.code else none

/-- A page as it is programmed: its data area filled with zeros. -/
def Page.of (m : PageMeta) (data : List Byte) : Page := { data := fit data 16384, code := metaBytes m, ident := metaBytes m }

/-- The information bytes of a codeword (R227): 4,096 of data and 16 of metadata. -/
def codeword (p : Page) (k : Nat) : List Byte := ((p.data.drop (4096 * k)).take 4096) ++ ((p.code.drop (16 * k)).take 16)

/-- The codewords that hold units `a` to `a + n - 1` of a page: a read transfers these alone (R227). -/
def codewordsOf (a n : Nat) : List Nat := (List.range 4).filter (fun k => decide (64 * k < a + n) && decide (a < 64 * k + 64))

/-- The spare area (R227): the metadata, the parity of the four codewords, and the identity block under its own code. The spec
gives neither code: the bytes after the metadata are free. -/
def spareBytes (p : Page) : List Byte :=
  p.code ++ (List.range 4).flatMap (fun k => (List.range 240).map (Config.ldpcParity (codeword p k))) ++
    (List.range 1024).map (Config.identityCode p.ident)

/-- The XOR of bytes. -/
def xorBytes (a b : List Byte) : List Byte := List.zipWith (· ^^^ ·) a b

/-- The XOR of data areas (R231, R233). -/
def xorPages (ps : List (List Byte)) : List Byte := ps.foldl xorBytes (zeroBytes 16384)

/-- CSN of a page's metadata. -/
def pageCsn (p : Page) : Nat := match metaRead p with
  | some m => leAt m 8 8
  | none => 0

/-- TYPE of a page's metadata. -/
def pageType (p : Page) : Nat := match metaRead p with
  | some m => leAt m 0 1
  | none => 0xFF

/-! ### Leaves (R188, R189) -/

/-- The META word of a leaf entry. -/
def entryMeta (e : LeafEntry) : Nat := e.quay * 2 ^ 52 + e.key.length * 2 ^ 41 + e.valueLen * 2 ^ 14 + flag e.lost

/-- A leaf entry's 40 bytes. -/
def leafEntryBytes (e : LeafEntry) : List Byte :=
  leBytes e.digest 16 ++ leBytes e.loc 8 ++ leBytes e.version 8 ++ leBytes (entryMeta e) 8

/-- The header of a leaf before its CRC. -/
def leafHead (bucket depth count generation cleanCsn : Nat) (next : Option Nat) : List Byte :=
  leBytes 0x4C463956 4 ++ leBytes bucket 4 ++ leBytes depth 1 ++ leBytes (flag next.isSome) 1 ++ leBytes count 2 ++
    leBytes generation 4 ++ leBytes cleanCsn 8 ++ leBytes (next.getD 0) 8 ++ zeroBytes 60

/-- The 4,096 bytes of a leaf. -/
def leafBytes (bucket depth generation cleanCsn : Nat) (next : Option Nat) (es : List LeafEntry) : List Byte :=
  let head := leafHead bucket depth es.length generation cleanCsn next
  let body := fit (es.flatMap leafEntryBytes) 4000
  head ++ leBytes (crc32c (head ++ body)) 4 ++ body

/-- IDENT of a leaf page (R229): the leaf in slot 0. -/
def leafIdent (bucket depth generation : Nat) : Nat := bucket + depth * 2 ^ 32 + generation * 2 ^ 64

end Sys2Proof.Machine
end

