-- ==== Sys2Proof/Machine/Schedule.lean ====
section
/-! DEFINITION. The work of the harbourmaster's classes (R310 to R313): what remains of a window's pool, which operation a freed
flash die or engine takes, and what an operation is charged when it starts (R308). A command that starts an operation stands for
its grant: which operation is next is asked where the model itself chooses, of the programs and erases that wait for a die (DESIGN
CHOICE: log entry 132). -/

namespace Sys2Proof.Machine

/-- What is left of the pool. -/
def poolLeft (l : Ledger) : Nat := l.shared + listSum l.floors

/-- The weight of a class. -/
def weightOf (s : State) (c : Nat) : Nat := bits (regGet s (regKey A.HM_CLASS c)) 7 0

/-- Energy served to a class over the last 100 windows. -/
def servedTo (s : State) (c : Nat) : Nat := listSum (s.tide.served.map (fun w => w.getD c 0))

/-- One class has had less than another, by energy over weight. -/
def vtBefore (s : State) (c d : Nat) : Bool := decide (servedTo s c * weightOf s d < servedTo s d * weightOf s c)

/-- The hard deadline that goes first: the one that became due first, a tie to the lower class code (R312). -/
def oldestDeadline (l : List Work) : Option Work :=
  l.foldl (fun best w => match w.due, best with
    | none, _ => best
    | some _, none => some w
    | some t, some b => if t < b.due.getD 0 ∨ (t = b.due.getD 0 ∧ w.cls < b.cls) then some w else best) none

/-- An operation's cost fits in what remains: of the pool for a hard deadline, of its class's floor and the shared remainder for
another. Nothing is held back before the first window of a power-on has ended. -/
def fits (s : State) (w : Work) : Bool := match s.tide.ledger with
  | none => true
  | some l => if w.due.isSome then decide (w.cost ≤ poolLeft l) else decide (w.cost ≤ l.floors.getD w.cls 0 + l.shared)

/-- The operation that a freed die or engine takes of those that wait for it, in the order of their queues; none, and it
waits (R313). -/
def nextOp (s : State) (l : List Work) : Option Work := match oldestDeadline l with
  | some h => if fits s h then some h else none
  | none => (List.range 8).foldl (fun best c => match l.find? (fun w => w.cls == c), best with
    | none, _ => best
    | some o, none => if fits s o then some o else none
    | some o, some b => if fits s o && vtBefore s c b.cls then some o else best) none

/-- Take a cost from the floors of the classes from `c` on, in order. -/
def takeFloors : Nat → Nat → List Nat → List Nat
  | _, _, [] => []
  | c, cost, f :: rest => if c < 2 then f :: takeFloors (c + 1) cost rest else (f - cost) :: takeFloors (c + 1) (cost - f) rest

/-- An operation is charged: its class's floor first and the shared remainder after that; a hard deadline to the shared remainder
first, and then to the floors of classes 2 to 7. -/
def chargeTo (l : Ledger) (w : Work) : Ledger :=
  if w.due.isSome then { shared := l.shared - w.cost, floors := takeFloors 0 (w.cost - l.shared) l.floors }
  else { shared := l.shared - (w.cost - l.floors.getD w.cls 0), floors := l.floors.set w.cls (l.floors.getD w.cls 0 - w.cost) }

/-- An operation starts: its cost leaves the pool (R308). -/
def charge (s : State) (w : Work) : State := { s with tide := { s.tide with ledger := s.tide.ledger.map (fun l => chargeTo l w) } }

/-- The region of a die's flash operations (R304). -/
def dieRegion (d : Nat) : Nat := 1 + chanOf d / 4

/-- `n` operations of a kind on a die, for a class. -/
def workOn (s : State) (cls op d n : Nat) (due : Option Nat) : Work := ⟨cls, n * costOf s (dieRegion d) op, due⟩

/-- The erase of a block that waits for its die: clean-up, of class DREDGE. -/
def eraseWork (s : State) (b : Nat) : Work := workOn s 3 5 (dieOfBlock b) 1 none

/-- The dry docks of a window, each charged to CAREEN as a hard deadline (R309). -/
def dockWork (s : State) : List Work :=
  (s.dies.filter (fun p => p.2.st == 1)).map (fun p => workOn s 4 6 p.1 1 (some s.tide.windowAt))

/-- A new window's pool, in tenths of a nanojoule, shared out: the floor of each class that has work queued, and the rest; at step 3
there is no shared remainder (R318). -/
def openLedger (s : State) (pool : Nat) (queued : List Nat) : Ledger :=
  let floors := (List.range 8).map (fun c =>
    if queued.getD c 0 = 0 then 0 else pool * bits (regGet s (regKey A.HM_CLASS c)) 23 16 / 100)
  { floors := floors, shared := if s.tide.step = 3 then 0 else pool - listSum floors }

end Sys2Proof.Machine
end

