-- ==== Sys2Proof/Machine/Space.lean ====
section
/-! DEFINITION. Landing (R269 to R277): stripe sets and landing pages, the placement of records and markers, in-flight
entries (R209, R210), leaf chains (R195), hot-key entries (R207), the charge of keys (R158) and deferred errors (R136). -/

namespace Sys2Proof.Machine

/-! ### The charge of keys (R158) -/

/-- The items that decide a quay's keys now. -/
def liveItems (s : State) (q : Nat) : List Item :=
  s.flash.items.filter (fun i => i.quay == q && i.settled && exists_ i &&
    (match newestItem s.flash.items q i.key (2 ^ 64) with
      | some y => y.csn == i.csn
      | none => false))

/-- Used space and keys of a quay are set from its keys; the drive's figures follow. -/
def recount (s : State) (q : Nat) : State :=
  let live := liveItems s q
  let used := listSum (live.map (fun i => granules i.key.length (itemLen i)))
  let s := { s with flash := { s.flash with quays := tabUpd s.flash.quays q (fun y =>
    { y with used := if y.erasing then 0 else used, keys := if y.erasing then 0 else live.length }) } }
  { s with space := { s.space with used := listSum (s.flash.quays.map (fun p => p.2.used)),
                                   keys := listSum (s.flash.quays.map (fun p => p.2.keys)) } }

/-- Granules and keys are reserved for an admitted mutation. -/
def reserve (s : State) (q g k : Nat) : State :=
  { s with flash := { s.flash with quays := tabUpd s.flash.quays q (fun y => { y with reserved := y.reserved + g }) },
           space := { s.space with reserved := s.space.reserved + g, reservedKeys := s.space.reservedKeys + k } }

/-- A reservation is released. -/
def unreserve (s : State) (q g k : Nat) : State :=
  { s with flash := { s.flash with quays := tabUpd s.flash.quays q (fun y => { y with reserved := y.reserved - g }) },
           space := { s.space with reserved := s.space.reserved - g, reservedKeys := s.space.reservedKeys - k } }

/-! ### Stripe sets (R230, R275) -/

/-- A mirrored block is used in SLC mode: the checkpoint region's, on die 15 (R292), and the bank markers', on die 13 (R406). -/
def mirroredSlc (g : Nat) : Bool :=
  dieOfBlock g % 16 == 15 || (dieOfBlock g % 16 == 13 && g / 1024 % 4 == 0 && decide (1022 ≤ g % 1024))

/-- A mirrored block is erased, and its erase counts as any other's (R239, R247, R249). -/
def eraseMirrored (s : State) (g : Nat) : State :=
  bump (updBlock s g (fun x => { x with erases := x.erases + 1, wear := x.wear + (if mirroredSlc g then 1 else 10), reads := 0 }))
    (0x1008C + 0x1000 * chanOf (dieOfBlock g))

/-- Blocks held by the stripe sets. -/
def heldBlocks (s : State) : List Nat := s.flash.sets.flatMap (fun p => p.2.blocks)

/-- A block may join a set: good, in service, erased, below the threshold of R250, and in no set. -/
def blockFree (s : State) (held : List Nat) (b : Nat) : Bool :=
  let x := blockOf s b
  !x.bad && !x.retired && !x.unfinished && !(planeOf s (planeOfBlock b)).gone && !mirrored b && !held.contains b &&
    decide (x.wear < fieldOf s A.CA_TRIGGER 15 0)

/-- Free blocks of a plane, numbered 4 × die + plane. -/
def freeInPlane (s : State) (p : Nat) : Nat :=
  let held := heldBlocks s
  ((List.range 1024).filter (fun k => blockFree s held (1024 * p + k))).length

/-- The least-worn free block of a plane of a die, ties to the lower address (R230). -/
def leastWorn (s : State) (held : List Nat) (die plane : Nat) : Option Nat :=
  let bs := (List.range 1024).map (blockNo die plane)
  match bs.find? (fun b => blockFree s held b && (blockOf s b).wear == 0) with
  | some b => some b
  | none => (bs.filter (blockFree s held)).foldl (fun m b => match m with
      | none => some b
      | some a => if (blockOf s b).wear < (blockOf s a).wear then some b else some a) none

/-- A die takes no new page: it is unavailable, or dry dock has been requested for it (R232, R253). -/
def dieShut (s : State) (d : Nat) : Bool := dieUnavailable s d || (dockOf s d).phase == 1

/-- Every die of a stripe takes pages. -/
def stripeServes (s : State) (stripe : Nat) : Bool := (stripeDies stripe).all (fun d => !dieShut s d)

/-- A stripe plane in which sets of a pool may be formed: no die of the stripe failed, the plane neither draining nor held, and for a
TLC set, whose word lines are programmed on all 16 dies (R231), every die serving. -/
def planeForms (s : State) (pool : Pool) (stripe plane : Nat) : Bool :=
  failedInStripe s stripe == 0 && !s.careen.campaigns.any (fun c => c.stripe == stripe && c.plane == plane) &&
    (pool == .landing || stripeServes s stripe)

/-- One block of the plane on each die of the stripe. -/
def gatherBlocks (s : State) (stripe plane : Nat) : Option (List Nat) :=
  let held := heldBlocks s
  (stripeDies stripe).foldr (fun d acc => match acc, leastWorn s held d plane with
    | some bs, some b => some (b :: bs)
    | _, _ => none) (some [])

/-- Free blocks are taken; the last 64 are the reserve (R287). -/
def takeBlocks (s : State) (k : Nat) : State :=
  let left := s.flash.freeBlocks - k
  let was := s.space.reserveLeft
  let s := { s with flash := { s.flash with freeBlocks := left }, space := { s.space with reserveLeft := min 64 left } }
  if was = 64 ∧ left < 64 then raise s 8 4 else s

/-- Blocks become free. -/
def giveBlocks (s : State) (k : Nat) : State :=
  let n := s.flash.freeBlocks + k
  { s with flash := { s.flash with freeBlocks := n }, space := { s.space with reserveLeft := min 64 n } }

/-- The code of a pool in a checkpoint's header (R293). -/
def poolCode : Pool → Nat
  | .landing => 0 | .warehouse => 1 | .index => 2

/-- A pre-reserved set has been used: a checkpoint begins (R292, R293). -/
def usePreReserved (s : State) (stripe : Nat) (pool : Pool) : State :=
  { s with space := { s.space with ckptQueued := true, preUsed := (4 * stripe + poolCode pool) :: s.space.preUsed } }

/-- Form a set of a pool (R230, R275): the lowest stripe and plane that can form one, the lowest free index there; between
checkpoints, one of each pool in a stripe (R293). -/
def formSet (s : State) (pool : Pool) : Option (State × Nat) :=
  let limit := fieldOf s A.DR_LANDING 15 0
  let openIn := fun (st : Nat) => (s.flash.sets.filter (fun p =>
    p.2.pool == pool && p.2.isOpen && p.1 / 4096 == st)).length
  if pool = .landing ∧ limit ≤ (s.flash.sets.filter (fun p => p.2.pool == Pool.landing)).length then none
  else if s.flash.freeBlocks < (if pool = .landing ∧ s.space.state < 3 then 80 else 16) then none
  else
    ((List.range 256).findSome? (fun k =>
      let st := k / 4
      let pl := k % 4
      if planeForms s pool st pl && !s.space.preUsed.contains (4 * st + poolCode pool) &&
          decide (openIn st < (if pool = .landing then 2 else 1)) then
        (gatherBlocks s st pl).map (fun bs => (st, pl, bs))
      else none)).map (fun x =>
        let base := x.1 * 4096 + x.2.1 * 1024
        let used := s.flash.sets.map Prod.fst
        let n := ((List.range 1024).find? (fun n => !used.contains (base + n))).getD 0
        let y : StripeSet := { pool := pool, blocks := x.2.2, isOpen := true, rows := 0, closedAt := 0, units := 0, packed := [],
                               refreshDue := none, sweepPending := false, moving := false, moved := [], ckptNeeded := 0,
                               topCsn := 0 }
        let tlc := pool != .landing
        let blocks := x.2.2.foldl (fun bs b => tabPut bs b { blockOf s b with tlc := tlc }) s.flash.blocks
        let s := { s with flash := { s.flash with sets := tabPut s.flash.sets (base + n) y, blocks := blocks } }
        (usePreReserved (takeBlocks s 16) x.1 pool, base + n))

/-- Change a set. -/
def updSet (s : State) (id : Nat) (f : StripeSet → StripeSet) : State :=
  { s with flash := { s.flash with sets := tabUpd s.flash.sets id f } }

/-- Close a set; sets close in a numbered order (R278). -/
def closeSet (s : State) (id : Nat) : State :=
  let n := s.space.closedCount + 1
  let s := { s with space := { s.space with closedCount := n } }
  updSet s id (fun x => { x with isOpen := false, closedAt := n })

/-! ### Landing pages (R276) -/

/-- The data page `k` of a set in page order (R272): its row and stripe position, the parity position skipped. -/
def dataPage (k : Nat) : Nat × Nat :=
  let row := k / 15
  let j := k % 15
  (row, if j < row % 16 then j else j + 1)

/-- The die at a stripe position of a set. -/
def setDie (id pos : Nat) : Nat := (stripeDies (id / 4096)).getD pos 0

/-- Data pages of an SLC set. -/
def slcPages : Nat := 15 * 1365

/-- Dry dock has been requested for a die of a set's stripe, so that no new row opens in it (R253). -/
def rowsHeld (s : State) (id : Nat) : Bool := (stripeDies (id / 4096)).any (fun d => (dockOf s d).phase == 1)

/-- Open the next landing page of a set, on a die that serves and is none of `avoid`; at most `fuel` positions are
passed over. -/
def openIn (avoid : Option Nat) : Nat → State → Nat → Option (State × Nat)
  | 0, _, _ => none
  | fuel + 1, s, id =>
    match tabGet s.flash.sets id with
    | none => none
    | some x =>
      if slcPages ≤ x.rows ∨ (x.rows % 15 = 0 ∧ rowsHeld s id) then none
      else
        let (row, pos) := dataPage x.rows
        let die := setDie id pos
        let s := updSet s id (fun x => { x with rows := x.rows + 1 })
        let s := if x.rows + 1 = slcPages then closeSet s id else s
        if dieShut s die || avoid == some die then openIn avoid fuel s id
        else
          let n := s.space.nextPage
          let p : LandingPage := { die := die, setId := id, row := row, firstAt := s.sessionUs, free := 256,
                                   closed := false, pieces := [] }
          some ({ s with space := { s.space with pages := tabPut s.space.pages n p, nextPage := n + 1 } }, n)

/-- Open a fresh landing page: in an open landing set, else in a new one. -/
def freshPage (s : State) (avoid : Option Nat) : Option (State × Nat) :=
  let sets := (s.flash.sets.filter (fun p => p.2.pool == Pool.landing && p.2.isOpen)).map Prod.fst
  match sets.findSome? (fun id => openIn avoid 40 s id) with
  | some r => some r
  | none => match formSet s .landing with
    | some (s, id) => openIn avoid 40 s id
    | none => none

/-- The open page that has room, with the fewest free units, ties to the lower die and then the lower page (R276). -/
def fittingPage (s : State) (units : Nat) (avoid : Option Nat) : Option Nat :=
  (s.space.pages.foldl (fun (m : Option (Nat × LandingPage)) p =>
    if p.2.closed || decide (p.2.free < units) || avoid == some p.2.die || dieShut s p.2.die then m
    else match m with
      | none => some p
      | some q => if p.2.free < q.2.free ∨ (p.2.free = q.2.free ∧ p.2.die < q.2.die) then some p else some q)
    none).map Prod.fst

/-! ### Programmed pages (R225, R228, R229, R231, R235) -/

/-- The page at a row and stripe position of a set, as 4,096 × block + page. -/
def rowPage (x : StripeSet) (row pos : Nat) : Nat := 4096 * x.blocks.getD pos 0 + row

/-- The metadata of a page programmed in a set. -/
def setMeta (s : State) (id : Nat) (x : StripeSet) (row pos typ csn ident : Nat) : PageMeta :=
  let b := blockOf s (x.blocks.getD pos 0)
  { typ := typ, pflags := flag (x.pool == .landing) + 2 * flag b.firstCycle, position := 4096 * pos + 256 * (row % 16), set := id,
    csn := csn, ident := ident, eraseCount := b.erases }

/-- A page is programmed in a set. -/
def putPage (s : State) (id : Nat) (x : StripeSet) (row pos typ csn ident : Nat) (data : List Byte) : State :=
  { s with flash := { s.flash with
    pages := tabPut s.flash.pages (rowPage x row pos) (Page.of (setMeta s id x row pos typ csn ident) data) } }

/-- A program is counted in the channel of its die (R247). -/
def countProgram (s : State) (d : Nat) : State := bump s (0x10088 + 0x1000 * chanOf d)

/-- The programmed pages of a row but for one stripe position. -/
def rowPages (s : State) (x : StripeSet) (row but : Nat) : List Page :=
  ((List.range 16).filter (fun p => p != but)).filterMap (fun p => tabGet s.flash.pages (rowPage x row p))

/-- The parity of a row (R231): the XOR of its data pages. While the row is open, DRAM holds the parity accumulated so far. -/
def rowParity (s : State) (x : StripeSet) (row : Nat) : List Byte := xorPages ((rowPages s x row (row % 16)).map Page.data)

/-- The data area of a page from the rest of its row (R233): in an open row the accumulated parity takes the place of the missing
parity page. -/
def rebuiltData (s : State) (x : StripeSet) (row pos : Nat) : List Byte :=
  let others := xorPages ((rowPages s x row pos).map Page.data)
  if (tabGet s.flash.pages (rowPage x row (row % 16))).isSome ∨ pos = row % 16 then others else xorBytes others (rowParity s x row)

/-- The parity page of a row is programmed. -/
def putParity (s : State) (id : Nat) (x : StripeSet) (row : Nat) : State :=
  let csn := listMax ((rowPages s x row (row % 16)).map pageCsn)
  putPage s id x row (row % 16) 4 csn 0 (rowParity s x row)

/-- A landing page of a row is open or being programmed. -/
def rowBusy (s : State) (id row : Nat) : Bool := s.space.pages.any (fun p => p.2.setId == id && p.2.row == row)

/-- The parity page of an SLC row is due: each of its data positions has been programmed or passed over. -/
def parityDue (s : State) (id : Nat) (x : StripeSet) (row : Nat) : Bool :=
  decide (15 * (row + 1) ≤ x.rows) && !rowBusy s id row && !(rowPages s x row (row % 16)).isEmpty &&
    (tabGet s.flash.pages (rowPage x row (row % 16))).isNone && !dieUnavailable s (setDie id (row % 16))

/-- The parity pages that are due are programmed. The step that makes one due ends its program (DESIGN CHOICE: the spec gives it no order
among the die's operations; log entry 170). -/
def closeParity (s : State) : State :=
  (s.flash.sets.filter (fun p => p.2.pool == Pool.landing)).foldl (fun s p =>
    ((List.range ((p.2.rows + 14) / 15)).filter (parityDue s p.1 p.2)).foldl (fun s row =>
      countProgram (putParity s p.1 p.2 row) (setDie p.1 (row % 16))) s) s

/-- An SLC row is closed (R235): its data positions that nothing has been programmed in, or is being, take pad pages, on the dies that
serve. -/
def padRow (s : State) (id : Nat) (x : StripeSet) (row : Nat) : State :=
  let empty := fun (p : Nat) => p != row % 16 && (tabGet s.flash.pages (rowPage x row p)).isNone && !dieUnavailable s (setDie id p) &&
    !(blockOf s (x.blocks.getD p 0)).retired && !s.space.pages.any (fun y => y.2.setId == id && y.2.row == row && y.2.die == setDie id p)
  ((List.range 16).filter empty).foldl (fun s p => countProgram (putPage s id x row p 5 0 0 []) (setDie id p)) s

/-- The row that a landing set has begun is closed: no data page opens in it any more. -/
def padOpenRow (s : State) (id : Nat) : State := match tabGet s.flash.sets id with
  | some x =>
    if x.pool = .landing ∧ x.rows % 15 ≠ 0 then
      updSet (padRow s id x (x.rows / 15)) id (fun x => { x with rows := (x.rows + 14) / 15 * 15 })
    else s
  | none => s

/-! ### Word lines of TLC sets (R225, R231) -/

/-- Data pages of a TLC set. -/
def tlcPages : Nat := 15 * 4096

/-- Room of a TLC set in units. -/
def tlcUnits : Nat := 256 * tlcPages

/-- Units of a word line: three data pages on each of 15 dies. -/
def lineUnits : Nat := 256 * 45

/-- The page of a set that a unit of it lies on, as 4,096 × block + page. -/
def setPage (x : StripeSet) (unit : Nat) : Nat :=
  let (row, pos) := dataPage (unit / 256)
  rowPage x row pos

/-- Where `n` units of a set from unit `u` on lie. -/
def packSpans (x : StripeSet) (u n : Nat) : List Span :=
  (List.range ((u + n - 1) / 256 - u / 256 + 1)).map (fun k =>
    let lo := max u (256 * (u / 256 + k))
    { page := setPage x lo, at_ := lo % 256, first := lo - u, units := min (u + n) (256 * (u / 256 + k) + 256) - lo })

/-- The bytes of the set's data page `k`. -/
def packedData (ps : List Packed) (k : Nat) : List Byte :=
  ps.flatMap (fun p => (p.bytes.drop (64 * (256 * k - p.at_))).take (64 * (256 * k + 256 - max p.at_ (256 * k))))

/-- What of a set's packing lies on its data page `k`. -/
def packedOn (ps : List Packed) (k : Nat) : List Packed :=
  ps.filter (fun p => decide (p.at_ < 256 * k + 256) && decide (256 * k < p.at_ + units64 p.bytes.length))

/-- TYPE, CSN and IDENT of the set's data page `k` (R229, R274). -/
def packedMeta (pool : Pool) (ps : List Packed) (k : Nat) : Nat × Nat × Nat :=
  match packedOn ps k with
  | [] => (5, 0, 0)
  | p :: rest =>
    if pool = .index then (2, p.csn, p.ident)
    else
      let begun := ((p :: rest).filter (fun q => decide (256 * k ≤ q.at_))).length
      (1, listMax ((p :: rest).map Packed.csn), p.ident + 64 * (256 * k - p.at_) * 2 ^ 64 + begun * 2 ^ 96)

/-- The rows of a word line; page 4,095 stands alone in the last. -/
def lineRows (w : Nat) : List Nat := if w < 1365 then [3 * w, 3 * w + 1, 3 * w + 2] else [4095]

/-- A row of a word line is programmed, its parity first. -/
def putRow (id : Nat) (x : StripeSet) (s : State) (row : Nat) : State :=
  let s := (List.range 15).foldl (fun s j =>
    let k := 15 * row + j
    let m := packedMeta x.pool x.packed k
    putPage s id x row (dataPage k).2 m.1 m.2.1 m.2.2 (packedData x.packed k)) s
  putParity s id x row

/-- A word line is programmed on all 16 dies (R231). The copies on it have been taken for confirmed as they came (DESIGN CHOICE: log entry
171). -/
def putLine (id : Nat) (x : StripeSet) (s : State) (w : Nat) : State :=
  (List.range 16).foldl (fun s p =>
    let d := setDie id p
    let b := x.blocks.getD p 0
    countProgram (updDie (charge s (workOn s 2 4 d 1 none)) d (fun y => if y.op = 0 ∧ y.st = 0 then
      { y with op := 3, suspends := 0, plane := b / 1024 % 4, block := b % 1024, runSince := s.sessionUs } else y)) d)
    ((lineRows w).foldl (putRow id x) s)

/-- Word lines that `u` units fill. -/
def linesOfUnits (u : Nat) : Nat := if tlcUnits ≤ u then 1366 else u / lineUnits

/-- A set's packing has come to `units`: the word lines that are now whole are programmed. -/
def packTo (s : State) (id : Nat) (x : StripeSet) (units : Nat) : State :=
  let a := linesOfUnits x.units
  let b := linesOfUnits units
  let s := (List.range (b - a)).foldl (fun s k => putLine id x s (a + k)) s
  let keep := x.packed.filter (fun p => decide (lineUnits * b < p.at_ + units64 p.bytes.length))
  updSet s id (fun y => { y with units := units, packed := if units = tlcUnits then [] else keep })

/-- A TLC set's last word line is filled up with pad pages and programmed. -/
def flushSet (s : State) (id : Nat) : State := match tabGet s.flash.sets id with
  | some x =>
    if x.pool = .landing ∨ x.packed.isEmpty then s
    else packTo s id x (min tlcUnits ((x.units + lineUnits - 1) / lineUnits * lineUnits))
  | none => s

/-- A program of 16,384 data bytes is noted for DR_WAF, with the host bytes that it landed (R302). -/
def noteProgram (s : State) (host bytes : Nat) : State :=
  let recent := s.space.programmed.filter (fun e => decide (s.sessionUs ≤ e.1 + 60000000))
  { s with space := { s.space with landedBytes := s.space.landedBytes + host,
                                   programmed := recent ++ [(s.sessionUs, host, bytes)] } }

/-- A set that takes `n` more units: an open one of the pool with room, on a stripe whose dies serve (R232), that is not due for refresh;
else a new one. -/
def roomIn (s : State) (pool : Pool) (n : Nat) : Option (State × Nat) :=
  let fits := fun (p : Nat × StripeSet) =>
    p.2.pool == pool && p.2.isOpen && p.2.refreshDue.isNone && !p.2.moving && decide (p.2.units + n ≤ tlcUnits) &&
      stripeServes s (p.1 / 4096)
  match s.flash.sets.find? fits with
  | some (id, _) => some (s, id)
  | none => formSet s pool

/-- Bytes are packed into a set, with the CSN and IDENT that they give their pages: where they lie. -/
def packUnits (s : State) (id csn ident : Nat) (bytes : List Byte) : State × List Span :=
  match tabGet s.flash.sets id with
  | none => (s, [])
  | some x =>
    let n := units64 bytes.length
    let y := { x with rows := (x.units + n + 255) / 256, topCsn := max x.topCsn csn,
                      packed := x.packed ++ [{ at_ := x.units, bytes := bytes, csn := csn, ident := ident }] }
    let s := updSet s id (fun _ => y)
    let s := noteProgram s 0 (16384 * (y.rows - (x.units + 255) / 256))
    let s := packTo s id y (x.units + n)
    (if x.units + n = tlcUnits then closeSet s id else s, packSpans x x.units n)

/-- Put a piece on a page. -/
def putOn (s : State) (page : Nat) (x : Piece) : State :=
  { s with space := { s.space with pages := tabUpd s.space.pages page (fun p =>
      { p with free := p.free - x.units, pieces := p.pieces ++ [x] }) } }

/-- Place one piece of at most a page; a piece that fills a page, and a marker, begins a page of its own. -/
def placePiece (s : State) (x : Piece) (avoid : Option Nat) : Option State :=
  let found := if x.units = 256 then none else fittingPage s x.units avoid
  match found with
  | some p => some (putOn s p x)
  | none => (freshPage s avoid).map (fun r => putOn r.1 r.2 x)

/-- Place the bytes of a record from its unit `first` on: whole on one page when it fits one, else from unit 0 of a page on
(R272). -/
def placeUnits (x : Piece) : Nat → List Byte → Nat → State → Option State
  | 0, _, _, s => some s
  | fuel + 1, bytes, first, s =>
    if bytes.isEmpty then some s
    else
      let mine := bytes.take 16384
      match placePiece s { x with units := units64 mine.length, first := first, bytes := mine } none with
      | some s => placeUnits x fuel (bytes.drop 16384) (first + 256) s
      | none => none

/-- The records of a mutation: of a commit marker, those it lists (R273). -/
def recordsOf (s : State) (csn : Nat) : List Item := s.flash.items.filter (fun i => i.csn == csn && i.kind != .lost)

/-- A marker: a piece that fills a page of its own. -/
def markerPiece (s : State) (kind : PieceKind) (csn entry : Nat) (posted : Bool) : Piece :=
  let lost := s.flash.items.find? (fun i => i.csn == csn && i.entry == entry && i.kind == .lost)
  { kind := kind, csn := csn, entry := entry, posted := posted, units := 256, first := 0,
    bytes := markerBody kind csn (sortBy Item.entry (recordsOf s csn)) lost, fails := 0 }

/-- Place a marker on a page of its own (R272, R273). -/
def placeMarker (s : State) (kind : PieceKind) (csn entry : Nat) (posted : Bool) : Option State :=
  placePiece s (markerPiece s kind csn entry posted) none

/-- Place a piece, or let it wait for a page. -/
def queuePiece (s : State) (x : Piece) (avoid : Option Nat) : State :=
  match placePiece s x avoid with
  | some t => t
  | none => { s with space := { s.space with waiting := s.space.waiting ++ [x] } }

/-- A marker is placed, or waits for a page. -/
def queueMarker (s : State) (kind : PieceKind) (csn entry : Nat) (posted : Bool) : State :=
  queuePiece s (markerPiece s kind csn entry posted) none

/-- Pieces that waited are placed where pages are to be had now. -/
def retryPieces (s : State) : State :=
  s.space.waiting.foldl (fun s x => queuePiece s x none) { s with space := { s.space with waiting := [] } }

/-- Whether a piece of a kind and CSN has yet to land. -/
def pieceLeft (s : State) (kind : PieceKind) (csn entry : Nat) : Bool :=
  let is := fun (x : Piece) => x.kind == kind && x.csn == csn && x.entry == entry
  s.space.pages.any (fun p => p.2.pieces.any is) || s.space.waiting.any is

/-- Take every piece of a CSN off the pages that are not yet transferring. -/
def dropPieces (s : State) (csn : Nat) : State :=
  let pages := s.space.pages.map (fun p =>
    if p.2.closed then p else (p.1, { p.2 with pieces := p.2.pieces.filter (fun x => x.csn != csn) }))
  { s with space := { s.space with pages := pages, waiting := s.space.waiting.filter (fun x => x.csn != csn) } }

/-- Whether some page of a CSN has begun its transfer (R145). -/
def transferred (s : State) (csn : Nat) : Bool :=
  s.space.pages.any (fun p => p.2.closed && p.2.pieces.any (fun x => x.csn == csn))

/-! ### In-flight entries, chains and the hot-key table -/

/-- Whether the in-flight pairs have offsets for every digest (R210): each pair holds 131,072 entries. -/
def inflightRoom (s : State) (ds : List Nat) : Bool :=
  if s.index.inflight.length + ds.length ≤ 131072 then true
  else (List.range 4).all (fun p =>
    decide ((s.index.inflight.filter (fun e => pairOf e.digest == p)).length +
      (ds.filter (fun d => pairOf d == p)).length ≤ 131072))

/-- The lowest free offset of a pair (DESIGN CHOICE: R209 says one offset and not which; log entry 168). -/
def inflightOffset (s : State) (pair : Nat) : Nat :=
  let used := (s.index.inflight.filter (fun e => pairOf e.digest == pair)).map Inflight.offset
  ((List.range 131072).find? (fun o => !used.contains o)).getD 0

/-- Associative entries are written or invalidated: their cells hold what the tables give. -/
def freshCells (s : State) (addrs : List Nat) : State :=
  { s with index := { s.index with upsets := s.index.upsets.filter (fun u => !addrs.contains u.1) } }

/-- The addresses of an offset in both members of a pair (R206). -/
def pairAddrs (s : State) (k o : Nat) : List Nat := match s.index.pairs[k]? with
  | some p => [131072 * p.a + o, 131072 * p.b + o]
  | none => []

/-- A mutation's entries are written into the in-flight banks at admission (R209). -/
def inflightAdd (s : State) (quay csn : Nat) (posted : Bool) (ds : List Nat) : State :=
  ds.foldl (fun s d =>
    let o := inflightOffset s (pairOf d)
    let e : Inflight := { offset := o, quay := quay, digest := d, csn := csn, posted := posted }
    freshCells { s with index := { s.index with inflight := s.index.inflight ++ [e] } } (pairAddrs s (pairOf d + 2) o)) s

/-- A mutation's in-flight entries are removed (R129, R130). -/
def inflightDrop (s : State) (csn : Nat) : State :=
  let gone := s.index.inflight.filter (fun e => e.csn == csn)
  freshCells { s with index := { s.index with inflight := s.index.inflight.filter (fun e => e.csn != csn) } }
    (gone.flatMap (fun e => pairAddrs s (pairOf e.digest + 2) e.offset))

/-! ### Leaf chains (R190 to R196) -/

/-- The leaf entry of an item. -/
def leafEntryOf (i : Item) : LeafEntry :=
  { digest := i.digest, loc := itemLoc i, version := i.version, quay := i.quay, valueLen := itemLen i, lost := i.kind == .lost,
    key := i.key }

/-- The entry is this key's own. -/
def ownEntry (quay : Nat) (key : List Byte) (e : LeafEntry) : Bool := e.quay == quay && e.key == key

/-- An entry takes its place by digest, then quay, after those of equal digest and quay (R189). -/
def leafInsert (e : LeafEntry) : List LeafEntry → List LeafEntry
  | [] => [e]
  | x :: r => if e.digest < x.digest ∨ (e.digest = x.digest ∧ e.quay < x.quay) then e :: x :: r else x :: leafInsert e r

/-- A new entry goes to the first leaf with room, a new leaf being added only when every leaf is full (R190). -/
def chainAdd (e : LeafEntry) : List Leaf → List Leaf
  | [] => [{ entries := [e], dirty := true }]
  | l :: r =>
    if l.entries.length < 100 then { entries := leafInsert e l.entries, dirty := true } :: r
    else { l with dirty := l.dirty || r.isEmpty } :: chainAdd e r

/-- A leaf holds the key's own entry. -/
def leafHas (quay : Nat) (key : List Byte) (l : Leaf) : Bool := l.entries.any (ownEntry quay key)

/-- The key's entry is set in its chain. -/
def chainPut (ls : List Leaf) (e : LeafEntry) : List Leaf :=
  if ls.any (leafHas e.quay e.key) then
    ls.map (fun l => if leafHas e.quay e.key l then
      { entries := l.entries.map (fun x => if ownEntry e.quay e.key x then e else x), dirty := true } else l)
  else chainAdd e ls

/-- The last leaf is freed when it becomes empty. -/
def chainTrim (ls : List Leaf) : List Leaf :=
  match ls.getLast? with
  | some l => if l.entries.isEmpty ∧ 1 < ls.length then ls.dropLast.modify (ls.length - 2) (fun x => { x with dirty := true })
    else ls
  | none => ls

/-- The key's entry is removed: the last entry of the last leaf takes its place (R190). -/
def chainCut (ls : List Leaf) (quay : Nat) (key : List Byte) : List Leaf :=
  let k := ls.findIdx (leafHas quay key)
  if ls.length ≤ k then ls
  else
    let cut := ls.modify k (fun l => { entries := l.entries.filter (fun e => !ownEntry quay key e), dirty := true })
    let last := (ls.getLast?.bind (fun l => l.entries.getLast?))
    match last with
    | some e =>
      if k + 1 = ls.length then chainTrim cut
      else chainTrim ((cut.modify k (fun l => { l with entries := leafInsert e l.entries })).modify (ls.length - 1)
        (fun l => { entries := l.entries.dropLast, dirty := true }))
    | none => cut

/-- What an item says of its key, in the leaves. -/
def chainTake (i : Item) (ls : List Leaf) : List Leaf :=
  if exists_ i then chainPut ls (leafEntryOf i) else chainCut ls i.quay i.key

/-- Sets of four ways in the map cache (R193). -/
def cacheSets : Nat := 12000000

/-- Ways that a chain takes: one a leaf, of the four of its set. The later leaves of a longer chain pass through the buffers. -/
def waysOf (c : Chain) : Nat := min 4 c.leaves.length

/-- Chains with frames in a set of the map cache. -/
def framesIn (s : State) (set : Nat) : Tab Chain :=
  s.index.chains.filter (fun c => c.1 % cacheSets == set && !c.2.fetching)

/-- Ways taken of a set. -/
def waysIn (s : State) (set : Nat) : Nat := listSum ((framesIn s set).map (fun c => waysOf c.2))

/-- The least recently used chain of a set that is not pinned. -/
def evictable (s : State) (set : Nat) : Option (Nat × Chain) :=
  ((framesIn s set).filter (fun c => c.2.pending.isEmpty && c.2.readers.isEmpty)).foldl (fun m c => match m with
    | none => some c
    | some a => if c.2.usedAt < a.2.usedAt then some c else some a) none

/-- Make room for `n` ways of a set: the least recently used unpinned frames go, a dirty one only once it is written back. -/
def makeRoom : Nat → State → Nat → Nat → Option State
  | 0, _, _, _ => none
  | fuel + 1, s, set, n =>
    if waysIn s set + n ≤ 4 then some s
    else match evictable s set with
      | some (b, c) =>
        if c.dirtySince.isSome then none
        else makeRoom fuel { s with index := { s.index with chains := tabErase s.index.chains b } } set n
      | none => none

/-- A chain that the map cache does not hold: its leaves are to be fetched; a bucket that has never held a key has an empty leaf
formed without a read (R191), once it has a way. -/
def chainMiss (s : State) (bucket csn : Nat) : Chain := match currentCopy s bucket with
  | some l => { leaves := l.leaves.map (fun es => { entries := es, dirty := false }), dirtySince := none, cleanCsn := l.cleanCsn,
                generation := l.generation, pending := [], readers := [], fetching := true, usedAt := s.sessionUs }
  | none => { leaves := [{ entries := [], dirty := false }], dirtySince := none, cleanCsn := csn, generation := 0, pending := [],
              readers := [], fetching := true, usedAt := s.sessionUs }

/-- Change a bucket's chain. One that the map cache does not hold is asked for: it is fetched, or formed at once where its bucket
is empty and its set has room. -/
def chainTouch (s : State) (bucket csn : Nat) (f : Chain → Chain) : State :=
  match tabGet s.index.chains bucket with
  | some c => { s with index := { s.index with chains := tabPut s.index.chains bucket (f c) } }
  | none =>
    let c := f (chainMiss s bucket csn)
    let formed := if (tabGet s.index.dir bucket).isSome then none else makeRoom 5 s (bucket % cacheSets) 1
    match formed with
    | some t => { t with index := { t.index with chains := tabPut t.index.chains bucket { c with fetching := false } } }
    | none => { s with index := { s.index with chains := tabPut s.index.chains bucket c } }

/-- A mutation registers against the chain of each bucket it writes (R195). -/
def chainRegister (s : State) (csn : Nat) (ds : List Nat) : State :=
  ds.foldl (fun s d => chainTouch s (bucketOf d) csn (fun c => { c with pending := c.pending ++ [csn], usedAt := s.sessionUs })) s

/-- A chain changed by an item is dirty. -/
def chainDirty (s : State) (c : Chain) : Chain := { c with dirtySince := c.dirtySince.orElse (fun _ => some s.sessionUs) }

/-- DIRTY_LIMIT is raised where a change takes the dirty frames over CM_MC_DIRTY_MAX. -/
def dirtyLimit (was : Nat) (s : State) : State :=
  let most := fieldOf s A.CM_MC_DIRTY_MAX 25 0
  if was ≤ most ∧ most < dirtyFrames s then raise s 7 4 else s

/-- An item's change is made in its leaf. -/
def leafChange (s : State) (i : Item) : State :=
  dirtyLimit (dirtyFrames s)
    (chainTouch s (bucketOf i.digest) i.csn (fun c => chainDirty s { c with leaves := chainTake i c.leaves }))

/-- The changes of a mutation are made in its leaves, or discarded, and its registrations released (R195). -/
def chainApply (s : State) (csn : Nat) (applied : Bool) : State :=
  let mine := if applied then s.flash.items.filter (fun i => i.csn == csn) else []
  let s := mine.foldl leafChange s
  { s with index := { s.index with chains := s.index.chains.map (fun p =>
    (p.1, { p.2 with pending := p.2.pending.filter (fun x => x != csn) })) } }

/-- A chain has its frames. -/
def leafIn (s : State) (bucket : Nat) : Bool := match tabGet s.index.chains bucket with
  | some c => !c.fetching
  | none => false

/-- A command reads buckets: it pins their frames, and a leaf that is not there is fetched (R194). -/
def pinLeaves (s : State) (csn : Nat) (bs : List Nat) : State :=
  bs.foldl (fun s b => chainTouch s b s.seqr.next (fun c =>
    { c with readers := if c.readers.contains csn then c.readers else c.readers ++ [csn], usedAt := s.sessionUs })) s

/-- The frames that a command read are released. -/
def unpinLeaves (s : State) (csn : Nat) : State :=
  { s with index := { s.index with chains := s.index.chains.map (fun p =>
    (p.1, { p.2 with readers := p.2.readers.filter (fun x => x != csn) })) } }

/-- The hot-key partition of a digest (R186). -/
def partOf (digest : Nat) : Nat := digest / 2 ^ 124

/-- The hot-key banks of a partition, ascending (R205). -/
def partBanks (s : State) (p : Nat) : List Nat :=
  (banksOf s 1).filter (fun b => s.index.parts.getD b 0 == p)

/-- Entries of a bank. -/
def hotIn (s : State) (b : Nat) : Nat := (s.index.hot.filter (fun e => e.1 / 131072 == b)).length

/-- The lowest free offset of a bank. -/
def hotFree (s : State) (b : Nat) : Option Nat :=
  if 131072 ≤ hotIn s b then none else lowestFree s.index.hot 131072 (b * 131072)

/-- A hot-key entry holds the associative word of this quay and digest (R186). -/
def hotMatch (quay digest : Nat) (e : Nat × HotEntry) : Bool := e.2.quay == quay && sameWord e.2.digest digest

/-- A hot-key entry is this key's own. -/
def hotOwn (quay : Nat) (key : List Byte) (e : Nat × HotEntry) : Bool := e.2.quay == quay && e.2.key == key

/-- The clock hand of a full partition (R207): reference bits are cleared until an entry without one is met. -/
def hotEvict (s : State) (part : Nat) : State :=
  let mine := s.index.hot.filter (fun e => partOf e.2.digest == part)
  let hand := tabGetD s.index.hands part 0
  let order := mine.filter (fun e => decide (hand ≤ e.1)) ++ mine.filter (fun e => decide (e.1 < hand))
  let victim := match order.find? (fun e => !e.2.ref) with
    | some e => some e.1
    | none => order.head?.map Prod.fst
  match victim with
  | none => s
  | some a =>
    let passed := (order.takeWhile (fun e => e.1 != a)).map Prod.fst
    let cleared := if order.any (fun e => !e.2.ref) then passed else order.map Prod.fst
    let hot := (tabErase s.index.hot a).map (fun e =>
      if cleared.contains e.1 then (e.1, { e.2 with ref := false }) else e)
    { s with index := { s.index with hot := hot, upsets := tabErase s.index.upsets a, hands := tabPut s.index.hands part (a + 1) } }

/-- An entry is written at an address: die and entry table agree again. -/
def hotWrite (s : State) (a : Nat) (e : HotEntry) : State :=
  { s with index := { s.index with hot := tabPut s.index.hot a e, upsets := tabErase s.index.upsets a } }

/-- Insert a hot-key entry (R207): rewritten in place if present, else at the lowest free offset of the partition's bank
with the most free offsets, after an eviction where the partition is full. Its reference bit is clear (DESIGN CHOICE: R207 gives a
new entry's bit no value; log entry 167). -/
def hotInsert (s : State) (i : Item) : State :=
  if !s.index.powered then s
  else
    let digest := i.digest
    let e : HotEntry := { quay := i.quay, digest := digest, loc := itemLoc i, key := i.key, csn := i.csn, ref := false }
    match s.index.hot.find? (hotMatch i.quay digest) with
    | some (a, _) => hotWrite s a e
    | none =>
      let banks := partBanks s (partOf digest)
      let s := if banks.all (fun b => (hotFree s b).isNone) then hotEvict s (partOf digest) else s
      let best := banks.foldl (fun (m : Option Nat) b => match m with
        | none => some b
        | some a => if hotIn s b < hotIn s a then some b else some a) none
      match best.bind (hotFree s) with
      | some a => hotWrite s a e
      | none => s

/-- Remove a key's hot-key entry. -/
def hotRemove (s : State) (quay : Nat) (key : List Byte) : State :=
  let gone := (s.index.hot.filter (hotOwn quay key)).map Prod.fst
  { s with index := { s.index with hot := s.index.hot.filter (fun e => !hotOwn quay key e),
                                   upsets := s.index.upsets.filter (fun u => !gone.contains u.1) } }

/-- A hit sets the reference bit. -/
def hotTouch (s : State) (quay : Nat) (key : List Byte) : State :=
  { s with index := { s.index with hot := s.index.hot.map (fun e =>
      if hotOwn quay key e then (e.1, { e.2 with ref := true }) else e) } }

/-- The index follows a settled change of a key (R207): removal on a deletion or a lost marker, insertion on a write. -/
def hotSettle (s : State) (i : Item) : State :=
  if i.kind = .value then
    (if bit (regGet s A.CM_HOT_POLICY) 0 then hotInsert s i else s)
  else hotRemove s i.quay i.key

/-- The entry of a key whose newest record has a new location (R207): the entry table takes it. -/
def hotPlace (s : State) (i : Item) : State :=
  { s with index := { s.index with hot := s.index.hot.map (fun e =>
      if hotOwn i.quay i.key e && e.2.csn == i.csn then (e.1, { e.2 with loc := itemLoc i }) else e) } }

/-! ### Lost keys and deferred errors -/

/-- A free value from the model's own counter. -/
def takeFree (s : State) : Word × State := (Config.freeValue s.freeN, { s with freeN := s.freeN + 1 })

/-- Place a lost marker for an item (R276). -/
def landLost (s : State) (csn entry : Nat) (posted : Bool) : State :=
  queueMarker s .lostMarker csn entry posted

/-- A key whose record can be neither read nor reconstructed is marked lost (R284). -/
def markLost (s : State) (i : Item) : State :=
  let s := { s with flash := { s.flash with items := s.flash.items.map (fun x =>
    if x.csn = i.csn ∧ x.entry = i.entry ∧ x.quay = i.quay then
      { x with kind := .lost, lostLen := itemLen i, lostStatus := statusCode .recordLost, value := [], badPages := [] }
    else x) } }
  let s := leafChange s { i with kind := .lost, lostLen := itemLen i }
  let s := landLost (hotRemove s i.quay i.key) i.csn i.entry false
  let s := logRecord s 0x0040 (src 9 0) true
    (leBytes i.csn 8 ++ leBytes i.quay 2 ++ zeroBytes 6 ++ leBytes i.digest 16 ++ leBytes (itemLoc i) 8)
  let s := { s with space := { s.space with lost := sat (s.space.lost + 1) 32 } }
  raise s 8 2

/-- A deferred error joins its berth's list, or is counted as unlisted (R137, R140). -/
def listDeferred (s : State) (i : Item) (st : Status) : State × Nat :=
  match berthOf s i.berth with
  | none => (s, 0xFFFF)
  | some b =>
    let used := b.deferreds.map Deferred.index
    match (List.range 64).find? (fun k => !used.contains k) with
    | some k =>
      let d : Deferred := { csn := i.csn, index := k, tag := i.tag, quay := i.quay, status := statusCode st,
                            digest := i.digest, announced := false }
      (updBerth s i.berth (fun b => { b with deferreds := b.deferreds ++ [d] }), k)
    | none =>
      (updBerth s i.berth (fun b => { b with overflow := true, lostCount := sat (b.lostCount + 1) 16,
                                             unlisted := b.unlisted ++ [(i.csn, i.quay)] }), 0xFFFF)

/-- A posted write cannot become durable (R136): the error is logged and listed, and a lost marker lands in its place. -/
def deferredError (s : State) (csn : Nat) (st : Status) : State :=
  let mine := s.flash.items.filter (fun i => i.csn == csn && i.pseq != 0 && !i.durable)
  let s := mine.foldl (fun s i =>
    let (s, k) := listDeferred s i st
    logRecord s 0x0032 (src 12 0) true (leBytes i.berth 2 ++ leBytes i.csn 8 ++ leBytes k 2 ++ leBytes i.tag 2 ++
      leBytes i.quay 2 ++ leBytes (statusCode st) 2 ++ leBytes i.digest 16)) s
  let s := { s with flash := { s.flash with items := s.flash.items.map (fun i =>
    if i.csn = csn ∧ i.pseq ≠ 0 ∧ !i.durable then
      { i with kind := .lost, lostLen := itemLen i, lostStatus := statusCode st, value := [], marked := false,
               taken := some ⟨i.kind, i.version, i.value, s.seqr.next⟩,
               commit := false, landed := false, version := if i.kind = .deletion then i.csn else i.version }
    else i) } }
  let s := dropPieces s csn
  let s := mine.foldl (fun s i => landLost (hotRemove s i.quay i.key) csn i.entry true) s
  reviewSeals ((mine.map Item.quay).dedup.foldl recount s)

/-! ### The posted write buffer (R130, R133, R277) -/

/-- Posted bytes not yet durable. -/
def postedBytes (s : State) : Nat :=
  listSum ((undurable s).map (fun i => 64 * recordUnits i.key.length (some (itemLen i))))

/-- The key of an epoch that a key record holds. -/
def recordKey (r : KeyRecord) (epoch : Nat) : Option KeyMaterial :=
  if r.epoch = epoch then some r.key else (r.shadows.find? (fun h => h.epoch == epoch)).map SlotShadow.key

/-- The key under which an item's segments are sealed: the slot's, which its key record keeps while the slot is SEALED, so that a record
that moves keeps its bytes (R282); no bytes where neither holds its epoch. -/
def itemKey (s : State) (i : Item) : List Byte :=
  match tabGet s.flash.quays i.quay with
  | some y =>
    let kept := (tabGet s.flash.keyRecords y.slot).bind (fun r => recordKey r i.epoch)
    ((kept.orElse (fun _ => (slotOf s y.slot).bind (fun x => epochKey x i.epoch))).map keyBytes).getD []
  | none => []

/-- A piece of an item's record. -/
def recordPiece (i : Item) (posted : Bool) : Piece :=
  { kind := .record, csn := i.csn, entry := i.entry, posted := posted, units := 0, first := 0, bytes := [], fails := 0 }

/-- Posted writes without a piece on a page, a record landed or a marker are transferred in ascending CSN (R277); a write
that finds no page stays, and so do those after it. -/
def transferPosted : List Item → State → State
  | [], s => s
  | i :: rest, s =>
    if i.landed ∨ i.encrypted then transferPosted rest s
    else
      match placeUnits (recordPiece i true) 1100 (recordBytes (itemKey s i) i) 0 s with
      | none => s
      | some s =>
        transferPosted rest { s with flash := { s.flash with items := s.flash.items.map (fun y =>
          if y.csn = i.csn ∧ y.entry = i.entry ∧ y.pseq ≠ 0 then { y with encrypted := true } else y) } }

/-- Move posted writes from the buffer to landing pages. -/
def drainPosted (s : State) : State :=
  transferPosted (sortBy Item.csn ((undurable s).filter (fun i => i.kind != .lost))) s

/-- The posted writes that are durable now: the landed prefix in CSN order (R277). -/
def durablePrefix : List Item → List Item
  | [] => []
  | i :: rest => if i.landed && (!i.marked || i.commit) then i :: durablePrefix rest else []

/-- Durability advances (R277): the leaves take the changes and the entry table the locations, the in-flight entries go, and seals may end. -/
def advanceDurable (s : State) : State :=
  let ready := durablePrefix (sortBy Item.csn (undurable s))
  let csns := ready.map Item.csn
  let s := { s with flash := { s.flash with items := s.flash.items.map (fun i =>
    if i.pseq ≠ 0 ∧ csns.contains i.csn then { i with durable := true } else i) } }
  let s := ready.foldl (fun s i => hotPlace (chainApply (inflightDrop s i.csn) i.csn true) i) s
  match ready.getLast? with
  | none => s
  | some i =>
    reviewSeals { s with space := { s.space with durableCsn := i.csn, durablePseq := i.pseq } }

end Sys2Proof.Machine
end

