-- ==== Sys2Proof/Machine/Units.lean ====
section
/-! DEFINITION. The Getumi cascade (R199 to R201, R207 to R214): its entries, searches and soft errors; and what the loss of an
index bank (R221) or of a cipher pipeline (R358) does. -/

namespace Sys2Proof.Machine

/-! ### Banks (R204 to R206, R221) -/

/-- The pair that a bank is a member of. -/
def pairOfBank (s : State) (b : Nat) : Option Nat :=
  (List.range 6).find? (fun k => match s.index.pairs[k]? with
    | some p => p.a == b || p.b == b
    | none => false)

/-- Entries of a hot-key bank are dropped, and what its cells held with them. -/
def dropHot (s : State) (b : Nat) : State :=
  { s with index := { s.index with hot := s.index.hot.filter (fun e => e.1 / 131072 != b),
                                   upsets := s.index.upsets.filter (fun u => u.1 / 131072 != b) } }

/-- What replaces a lost pair member: the lowest spare, else the highest-numbered hot-key bank. -/
def replacementBank (s : State) : Option Nat :=
  match (banksOf s 4).head? with
  | some g => some g
  | none => (banksOf s 1).getLast?

/-- A bank's class. -/
def setBankClass (s : State) (b cls : Nat) : State :=
  { s with index := { s.index with banks := listSet s.index.banks b cls } }

/-- Change the pair that a bank is a member of. -/
def updPairOf (s : State) (b : Nat) (f : BankPair → BankPair) : State :=
  { s with index := { s.index with pairs := s.index.pairs.map (fun p => if p.a = b ∨ p.b = b then f p else p) } }

/-- A member gives its place in a pair to a bank. -/
def BankPair.replace (p : BankPair) (b g : Nat) : BankPair :=
  { p with a := if p.a = b then g else p.a, b := if p.b = b then g else p.b }

/-- A pair loses a member (R221): a replacement takes the place and is to be filled; without one the place stays empty. -/
def pairLoses (s : State) (b : Nat) (cls : Nat) : State :=
  match replacementBank s with
  | some g =>
    let s := setBankClass (dropHot s g) g cls
    raise (updPairOf s b (fun p => { p.replace b g with unfilled := p.unfilled.filter (fun x => x != b) ++ [g] })) 7 3
  | none => raise (updPairOf s b (fun p => { p with unfilled := p.unfilled.filter (fun x => x != b) ++ [b] })) 7 3

/-- The class of a pair's banks. -/
def pairClass (k : Nat) : Nat := if k < 2 then 3 else 2

/-- A place of a pair that is to be filled: its bank is filled, from the surviving member, the entry table or the rule bodies, or a
place that was left empty takes a bank that has become free (R221). -/
def fillPlace (cls : Nat) (s : State) (b : Nat) : State :=
  if s.index.banks.getD b 0 = cls then updPairOf s b (fun p => { p with unfilled := p.unfilled.filter (fun x => x != b) })
  else if (replacementBank s).isSome then pairLoses s b cls
  else s

/-- The places of a pair are filled. -/
def fillPair (s : State) (k : Nat) : State := match s.index.pairs[k]? with
  | none => s
  | some p => p.unfilled.foldl (fillPlace (pairClass k)) s

/-- The places of every pair are filled. -/
def fillPairs (s : State) : State := (List.range 6).foldl fillPair s

/-- A bank is taken out of service (R221). -/
def bankOut (s : State) (b : Nat) : State :=
  let cls := s.index.banks.getD b 0
  if cls = 0 then s
  else
    let touched : Bool := match s.index.test with
      | some t => t.bank == b || (t.target == b && s.index.banks.getD t.bank 0 != 5)
      | none => false
    let spare : Option Nat := match s.index.test with
      | some t => if t.bank = b ∧ cls ≠ 5 then some t.target else none
      | none => none
    let s := if touched then { s with index := { s.index with test := none } } else s
    let s := match spare with
      | some g => setBankClass s g 4
      | none => s
    let s := raise (setBankClass (dropHot s b) b 0) 7 0
    if cls = 2 ∨ cls = 3 then pairLoses s b cls else s

/-- A whole index die fails: all eight of its banks go, the members of pairs last, so that none is replaced on the die. -/
def indexDieOut (s : State) (d : Nat) : State :=
  let s := { s with index := { s.index with diesLost := d :: s.index.diesLost } }
  let mine := (List.range 8).map (fun k => 8 * d + k)
  let paired := fun (b : Nat) => s.index.banks.getD b 0 == 2 || s.index.banks.getD b 0 == 3
  (mine.filter (fun b => !paired b) ++ mine.filter paired).foldl bankOut s

/-- A fault counts against a bank (R215, row 6 of R382). -/
def bankFault (s : State) (b : Nat) : State :=
  let (s, lasting) := faultOccur s 6 b 0
  if lasting then bankOut s b else s

/-! ### Pipelines (R358) -/

/-- The lowest pipeline in service other than `k`. -/
def otherPipe (s : State) (k : Nat) : Option Nat :=
  (List.range 8).find? (fun j => j != k && (match s.cipher.pipes[j]? with
    | some p => !p.deconfigured
    | none => false))

/-- Change a pipeline. -/
def updPipe (s : State) (k : Nat) (f : Pipe → Pipe) : State :=
  { s with cipher := { s.cipher with pipes := s.cipher.pipes.modify k f } }

/-- The messages of a pipeline. -/
def pipeMsgs (p : Pipe) : List Msg := (match p.running with
  | some m => [m]
  | none => []) ++ p.saved ++ p.waiting

/-- A pipeline that serves: in P2 to P4 only pipeline 0 does. -/
def pipeServes (s : State) (k : Nat) : Bool := match s.cipher.pipes[k]? with
  | some p => !p.deconfigured && (k == 0 || decide (s.pstate.cur < 2))
  | none => false

/-- The waiting message of the highest priority, ties to the one that waits longest. -/
def bestMsg (ms : List Msg) : Option Msg :=
  ms.foldl (fun m x => match m with
    | some y => if x.prio < y.prio ∨ (x.prio = y.prio ∧ x.suspendedAt < y.suspendedAt) then some x else m
    | none => some x) none

/-- The message that suspends the running one, if one does. -/
def suspender (p : Pipe) : Option (Msg × Msg) :=
  match p.running, bestMsg p.waiting with
  | some r, some w => if w.prio < r.prio ∧ 256 < r.left ∧ p.saved.length < 64 then some (r, w) else none
  | _, _ => none

/-- The suspended message that resumes next, if one may: one suspended for 1 ms goes ahead of every message not started. -/
def resumer (now : Nat) (p : Pipe) : Option Msg :=
  match bestMsg (p.saved.filter (fun m => decide (m.suspendedAt + 1000 ≤ now))) with
  | some m => some m
  | none =>
    match bestMsg p.saved with
    | some m => if p.waiting.any (fun w => decide (w.prio < m.prio)) then none else some m
    | none => none

/-- Blocks queued at a pipeline. -/
def queuedBlocks (p : Pipe) : Nat := listSum ((pipeMsgs p).map Msg.left)

/-- The pipeline that a message goes to: of those that serve, the one with the fewest queued blocks, ties to the lower number
(R335). -/
def freestPipe (s : State) : Option Nat :=
  let load := fun (k : Nat) => match s.cipher.pipes[k]? with
    | some p => queuedBlocks p
    | none => 0
  ((List.range 8).filter (pipeServes s)).foldl (fun best k => match best with
    | none => some k
    | some j => if load k < load j then some k else best) none

/-- A message from its first block. -/
def anew (m : Msg) : Msg := { m with done := 0, left := m.done + m.left }

/-- A message comes to a pipeline. -/
def enqueueMsg (s : State) (m : Msg) : State := match freestPipe s with
  | none => s
  | some k => updPipe s k (fun p =>
    if (pipeMsgs p).isEmpty then { p with running := some m } else { p with waiting := p.waiting ++ [m] })

/-- The segments of a value or a range come to the pipelines, one message each, from invocation `ctr` of a slot's epoch on. -/
def enqueueSegments (s : State) (prio csn slot epoch ctr : Nat) (bytes : List Nat) : State :=
  (bytes.zipIdx).foldl (fun s x =>
    enqueueMsg s ⟨csn, prio, 0, (x.1 + 15) / 16, slot, epoch, ctr + x.2, s.sessionUs⟩) s

/-- A message's counter block: its nonce, and the count of the block after the one for the tag (R336, R343). -/
def counterBlock (domain : Nat) (m : Msg) : BitVec 128 :=
  BitVec.ofNat 128 (domain * 2 ^ 96 + m.ctr * 2 ^ 32 + (2 + m.done) % 2 ^ 32)

/-- The two shares of a round state under a block's mask bits (R337). -/
def roundShares (mask : BitVec 256) (x : BitVec 128) : BitVec 128 × BitVec 128 :=
  (mask.extractLsb' 0 128, x ^^^ mask.extractLsb' 0 128)

/-- The two shares in which key material enters a pipeline. -/
def keyShares (mask key : BitVec 256) : BitVec 256 × BitVec 256 := (mask, key ^^^ mask)

/-- The mask bits of the block that pipeline `k` takes next (R337). -/
def blockMask (k : Nat) (p : Pipe) : BitVec 256 := Config.maskBits k p.mask.seeds p.mask.requests

/-- What pipeline `k` holds of the counter block that its message encrypts next: two shares (R336, R337). -/
def blockShares (k domain : Nat) (p : Pipe) : Option (BitVec 128 × BitVec 128) :=
  p.running.map (fun m => roundShares (blockMask k p) (counterBlock domain m))

/-- `n` blocks take their mask bits, a request each; the generator is reseeded every 2^32 requests, but not while the entropy source has
failed (R337, R338). -/
def takeMasks (failed : Bool) (n : Nat) (g : MaskGen) : MaskGen :=
  if 2 ^ 32 ≤ g.requests + n ∧ !failed then { seeds := g.seeds + 1, requests := g.requests + n - 2 ^ 32 }
  else { g with requests := g.requests + n }

/-- Blocks that a pipeline takes in one microsecond: one each stage cycle, 0.64 ns at an FSI of 600 ps (R24, R335). -/
def blocksPerUs (s : State) : Nat := 1562 * 600 / (if s.tide.fsi = 0 then 600 else s.tide.fsi)

/-- Blocks that a pipeline does in a microsecond. -/
def blocksNow (s : State) (p : Pipe) : Nat := match p.running with
  | some m => min m.left (blocksPerUs s)
  | none => 0

/-- A pipeline works for a microsecond: its message goes on or ends, and the next one begins, unless a suspended one is to resume. -/
def pipeWorks (s : State) (p : Pipe) : Pipe :=
  let n := blocksNow s p
  match p.running with
  | some m =>
    let p := { p with mask := takeMasks s.cipher.entropyFailed n p.mask }
    if m.left ≤ n then { p with running := none } else { p with running := some { m with done := m.done + n, left := m.left - n } }
  | none =>
    if (resumer s.sessionUs p).isSome then p
    else match bestMsg p.waiting with
      | some m => { p with running := some m, waiting := p.waiting.erase m }
      | none => p

/-- One pipeline's microsecond: its blocks are counted. -/
def workPipe (s : State) (k : Nat) : State := match s.cipher.pipes[k]? with
  | some p =>
    if blocksNow s p = 0 then updPipe s k (pipeWorks s)
    else bumpBy (updPipe s k (pipeWorks s)) (regKey A.CP_PIPE_BLOCKS k) (blocksNow s p)
  | none => s

/-- The pipelines that serve work for a microsecond. -/
def pipesWork (s : State) : State := ((List.range 8).filter (pipeServes s)).foldl workPipe s

/-- A pipeline is deconfigured (row 8): its messages are reissued on another (R358). -/
def pipeOut (s : State) (k : Nat) : State :=
  match s.cipher.pipes[k]? with
  | none => s
  | some p =>
    let s := updPipe s k (fun p => { p with deconfigured := true, running := none, saved := [], waiting := [] })
    let s := raise s 6 3
    match otherPipe s k with
    | some j => updPipe s j (fun q => { q with waiting := q.waiting ++ (pipeMsgs p).map anew })
    | none => s

/-- A fault is counted against a pipeline. -/
def countPipe (s : State) (pipe : Nat) : State :=
  let (s, lasting) := faultOccur (bump s (regKey A.CP_PIPE_FAULTS pipe)) 8 pipe 0
  if lasting then pipeOut s pipe else s

/-! ### Associative entries (R199, R201) -/

/-- An entry's 160 bits: WORD, PRIORITY, CLASS and WILD. -/
def assocCell (word prio cls : Nat) (wild : Bool) : BitVec 160 :=
  BitVec.ofNat 160 (word * 2 ^ 32 + prio * 2 ^ 16 + cls * 2 ^ 12 + flag wild * 2 ^ 11)

def cellWord (c : BitVec 160) : Nat := natBits c.toNat 159 32

def cellPriority (c : BitVec 160) : Nat := natBits c.toNat 31 16

def cellClass (c : BitVec 160) : Nat := natBits c.toNat 15 12

def cellWild (c : BitVec 160) : Bool := natBits c.toNat 11 11 == 1

/-- The associative word of a key (R186). -/
def keyWord (quay digest : Nat) : Nat := digest / 4096 * 4096 + quay

/-- The word of a rule search (R211): a rule's own has the SUBJECT_ID, or zero with WILD. -/
def ruleSearchWord (s : State) (quay subject : Nat) (pfx : List Byte) : Nat :=
  quay * 2 ^ 116 + pfx.length * 2 ^ 110 + ruleHash s pfx * 2 ^ 64 + subject

/-- A rule's entry. -/
def ruleCell (s : State) (r : Rule) : BitVec 160 :=
  assocCell (ruleSearchWord s r.quay (if r.anySubject then 0 else r.subject) r.pfx) r.priority 3 r.anySubject

/-- The entry that the entry table or the rule bodies give an address; CLASS 0 where they give none. -/
def tableCell (s : State) (addr : Nat) : BitVec 160 :=
  let o := addr % 131072
  match pairOfBank s (addr / 131072) with
  | none => (match tabGet s.index.hot addr with
    | some e => assocCell (keyWord e.quay e.digest) 0 1 false
    | none => 0)
  | some k =>
    if k < 2 then
      (match ((pairRules s k).find? (fun e => e.offset == o)).bind (fun e => s.flash.rules.find? (fun r => r.id == e.rule)) with
      | some r => ruleCell s r
      | none => 0)
    else match s.index.inflight.find? (fun e => pairOf e.digest + 2 == k && e.offset == o) with
      | some e => assocCell (keyWord e.quay e.digest) 0 2 false
      | none => 0

/-- The entry that the die holds at an address. -/
def cellAt (s : State) (addr : Nat) : BitVec 160 := tabGetD s.index.upsets addr (tableCell s addr)

/-- An entry matches a search (R201). -/
def cellHits (c : BitVec 160) (word cls : Nat) : Bool :=
  cellClass c == cls && cellWord c / 2 ^ 64 == word / 2 ^ 64 && (cellWild c || cellWord c % 2 ^ 64 == word % 2 ^ 64)

/-- Offsets of a pair at which some member may hold an entry. -/
def pairOffsets (s : State) (k : Nat) (p : BankPair) : List Nat :=
  (if k < 2 then (pairRules s k).map RuleEntry.offset
   else (s.index.inflight.filter (fun e => pairOf e.digest + 2 == k)).map Inflight.offset) ++
    ((s.index.upsets.filter (fun u => u.1 / 131072 == p.a || u.1 / 131072 == p.b)).map (fun u => u.1 % 131072))

/-- The addresses of a bank at which it may hold an entry, ascending. -/
def bankAddrs (s : State) (b : Nat) : List Nat :=
  let os := match (pairOfBank s b).bind (fun k => (s.index.pairs[k]?).map (fun p => pairOffsets s k p)) with
    | some os => os.map (fun o => 131072 * b + o)
    | none => ((s.index.hot.filter (fun e => e.1 / 131072 == b)).map Prod.fst) ++
        ((s.index.upsets.filter (fun u => u.1 / 131072 == b)).map Prod.fst)
  (sortBy id os).dedup

/-- The first match of one die among the selected banks: the highest PRIORITY, then the lowest address, after the start point of a
resumed search. -/
def dieMatch (s : State) (die word cls : Nat) (banks : List Nat) (start : Option (Nat × Nat)) : Option (Nat × Nat) :=
  let mine := (sortBy id (banks.filter (fun b => b / 8 == die))).flatMap (bankAddrs s)
  let after := fun (x : Nat × Nat) => match start with
    | none => true
    | some (p, a) => decide (x.1 < p) || (x.1 == p && decide (a < x.2))
  ((mine.filter (fun a => cellHits (cellAt s a) word cls)).map (fun a => (cellPriority (cellAt s a), a))).foldl (fun m x =>
    if !after x then m
    else match m with
      | none => some x
      | some y => if y.1 < x.1 then some x else some y) none

/-- A search (R201): PRIORITY and address of the first match. A die replaces what comes in on match-in only with a match of
strictly higher priority. -/
def cascade (s : State) (word cls : Nat) (banks : List Nat) (start : Option (Nat × Nat)) : Option (Nat × Nat) :=
  (List.range 8).foldl (fun m d => match m, dieMatch s d word cls banks start with
    | none, x => x
    | some y, some x => if y.1 < x.1 then some x else some y
    | some y, none => some y) none

/-- Energy of a search in 0.1 nJ (R217): the fixed part and each selected bank. -/
def searchEnergy (banks : List Nat) : Nat := 3 + 15 * banks.length

/-- The members of a pair that hold its entries: the banks that its searches select (R216, R221). -/
def pairBanks (s : State) (k : Nat) : List Nat := match s.index.pairs[k]? with
  | some p => [p.a, p.b].filter p.holds
  | none => []

/-! ### Soft errors (R208, R214) -/

/-- The die's entry at an address is rewritten from the entry table or the rule body. -/
def rewriteCell (s : State) (addr : Nat) : State := { s with index := { s.index with upsets := tabErase s.index.upsets addr } }

/-- A soft error: the entry is rewritten and counted, with a fault against its bank. -/
def softError (s : State) (addr counter : Nat) : State := bankFault (bump (rewriteCell s addr) counter) (addr / 131072)

/-- The table word of an address is the word searched for. -/
def tableAgrees (s : State) (addr word cls : Nat) : Bool := cellHits (tableCell s addr) word cls

/-- The hot-key search for a key (R208): its first match. -/
def hotSearch (s : State) (quay digest : Nat) : Option Nat :=
  if s.index.powered then (cascade s (keyWord quay digest) 1 (partBanks s (partOf digest)) none).map Prod.snd else none

/-- The hot-key search of a read that is not served from the posted write buffer (R208, R214): a soft error is mended and the search
issued once more; a hit on a record with another key is a collision. -/
def hotLook (s : State) (quay : Nat) (key : List Byte) (digest : Nat) : State :=
  let ours := fun (s : State) (a : Nat) => match tabGet s.index.hot a with
    | some e => e.quay == quay && e.key == key
    | none => false
  let w := keyWord quay digest
  match hotSearch s quay digest with
  | none => s
  | some a =>
    if tableAgrees s a w 1 then (if ours s a then s else bump s A.CM_HOT_COLL)
    else
      let s := softError s a A.CM_HOT_SOFT
      match hotSearch s quay digest with
      | none => s
      | some b =>
        if tableAgrees s b w 1 then (if ours s b then s else bump s A.CM_HOT_COLL) else softError s b A.CM_HOT_SOFT

/-- The hot-key search finds the key's own entry. -/
def hotHit (s : State) (quay : Nat) (key : List Byte) (digest : Nat) : Bool :=
  match hotSearch s quay digest with
  | some a => (match tabGet s.index.hot a with
    | some e => e.quay == quay && e.key == key
    | none => false)
  | none => false

/-- One offset of an in-flight pair under a search (R214): members that disagree, or a word that the table does not have, are soft
errors. -/
def inflightOffsetLook (word : Nat) (p : BankPair) (s : State) (o : Nat) : State :=
  let at_ := fun (b : Nat) => 131072 * b + o
  let hits := fun (b : Nat) => p.holds b && cellHits (cellAt s (at_ b)) word 2
  let agrees := tableAgrees s (at_ p.a) word 2
  if p.holds p.a && p.holds p.b && hits p.a != hits p.b then
    softError s (at_ (if hits p.a = agrees then p.b else p.a)) A.CM_PAIR_DISAGREE
  else if (hits p.a || hits p.b) && !agrees then
    ([p.a, p.b].filter hits).foldl (fun s b => softError s (at_ b) A.CM_INFLIGHT_SOFT) s
  else s

/-- The in-flight search for a key (R209): both members of its pair. -/
def inflightLook (s : State) (quay digest : Nat) : State :=
  let k := pairOf digest + 2
  match s.index.pairs[k]? with
  | none => s
  | some p => ((pairOffsets s k p).dedup).foldl (inflightOffsetLook (keyWord quay digest) p) s

/-- A hit's rule body is what was searched for (R212). -/
def bodyMatches (r : Rule) (quay subject : Nat) (pfx : List Byte) : Bool :=
  r.quay == quay && r.pfx == pfx && (r.anySubject || r.subject == subject)

/-- The rule search for one prefix (R212, R214): hits are checked against their bodies, and the search resumes after one that fails
the check. At most `fuel` hits are met. -/
def ruleSearch (quay subject : Nat) (pfx : List Byte) : Nat → State → Option (Nat × Nat) → State
  | 0, s, _ => s
  | fuel + 1, s, start =>
    let k := quay % 2
    let w := ruleSearchWord s quay subject pfx
    match cascade s w 3 (pairBanks s k) start with
    | none => s
    | some (p, a) =>
      let o := a % 131072
      let body := ((pairRules s k).find? (fun e => e.offset == o)).bind (fun e => s.flash.rules.find? (fun r => r.id == e.rule))
      let on := some (p, 131072 * listMax (pairBanks s k) + o)
      match body with
      | none => ruleSearch quay subject pfx fuel (softError s a A.CM_RULE_SOFT) on
      | some r =>
        if bodyMatches r quay subject pfx then s
        else if tableAgrees s a w 3 then ruleSearch quay subject pfx fuel (bump s A.CM_RULE_COLL) on
        else ruleSearch quay subject pfx fuel (softError s a A.CM_RULE_SOFT) on

/-- The rule searches for one key: one for each prefix length of the quay that the key has (R212). -/
def ruleSearches (s : State) (quay subject : Nat) (key : List Byte) : State :=
  ((prefixLens s quay).filter (fun l => decide (l ≤ key.length))).foldl (fun s l =>
    ruleSearch quay subject (key.take l) (s.index.ruleEntries.length + s.index.upsets.length + 1) s none) s

end Sys2Proof.Machine
end

