-- ==== Sys2Proof/Machine/Operands.lean ====
section
/-! DEFINITION. The command capsule: its fields (R109, R154, R167), the format tests of R499, the checks of R126 in order,
and its refusal or admission. -/

namespace Sys2Proof.Machine

/-! ### The capsule -/

/-- The header of R109 with the key and value bytes that follow it; `carried` is the number of bytes that came. -/
structure Capsule where
  opcode : Nat
  flags : Nat
  tag : Nat
  quay : Nat
  keyLen : Nat
  valueLen : Nat
  segOff : Nat
  expVer : Nat
  param : Nat
  key : List Byte
  value : List Byte
  carried : Nat
  deriving DecidableEq, Repr

/-- The capsule that bytes spell. -/
def parseCapsule (bs : List Byte) : Capsule :=
  let h := fit bs 32
  let kl := beAt h 6 2
  { opcode := beAt h 0 1, flags := beAt h 1 1, tag := beAt h 2 2, quay := beAt h 4 2, keyLen := kl,
    valueLen := beAt h 8 4, segOff := beAt h 12 4, expVer := beAt h 16 8, param := beAt h 24 8,
    key := (bs.drop 32).take kl, value := bs.drop (32 + kl), carried := bs.length }

/-- An opcode that some chapter defines (R111, R141, R152, R411). -/
def opcodeDefined (o : Nat) : Bool :=
  (decide (1 ≤ o) && decide (o ≤ 9)) || (decide (0x20 ≤ o) && decide (o ≤ 0x25)) ||
    (decide (0x40 ≤ o) && decide (o ≤ 0x44)) || (decide (0x50 ≤ o) && decide (o ≤ 0x5E))

/-- Opcodes whose VALUE_LEN counts bytes carried (R109, R154). -/
def carriesValue (o : Nat) : Bool :=
  [0x02, 0x05, 0x06, 0x07, 0x09, 0x20, 0x21, 0x23, 0x51, 0x54, 0x55, 0x56, 0x57, 0x58, 0x59].contains o

/-- Opcodes that take a key (R154). -/
def takesKey (o : Nat) : Bool := [0x01, 0x02, 0x03, 0x04, 0x05, 0x08].contains o

/-! ### Entries of a BATCH (R167) -/

/-- One entry of a BATCH. -/
structure BatchEntry where
  op : Nat
  eflags : Nat
  keyLen : Nat
  valueLen : Nat
  expVer : Nat
  key : List Byte
  value : List Byte
  padding : List Byte
  deriving DecidableEq, Repr

/-- The entries that value bytes hold, and whether they end exactly at an entry's end. -/
def batchEntries : Nat → List Byte → List BatchEntry × Bool
  | 0, bs => ([], bs.isEmpty)
  | fuel + 1, bs =>
    if bs.isEmpty then ([], true)
    else if bs.length < 16 then ([], false)
    else
      let kl := beAt bs 2 2
      let vl := beAt bs 4 4
      let size := (16 + kl + vl + 7) / 8 * 8
      if bs.length < size then ([], false)
      else
        let e : BatchEntry :=
          { op := beAt bs 0 1, eflags := beAt bs 1 1, keyLen := kl, valueLen := vl, expVer := beAt bs 8 8,
            key := (bs.drop 16).take kl, value := (bs.drop (16 + kl)).take vl,
            padding := (bs.drop (16 + kl + vl)).take (size - (16 + kl + vl)) }
        let (rest, ok) := batchEntries fuel (bs.drop size)
        (e :: rest, ok)

/-- The entries of a capsule's value; a count above 256 is out of range, so no more are read than can matter. -/
def entriesOf (c : Capsule) : List BatchEntry × Bool := batchEntries (c.value.length / 16 + 1) c.value

/-- An entry has a condition (R167). -/
def entryConditional (e : BatchEntry) : Bool := e.op == 3 || e.eflags % 2 == 1

/-- An entry keeps to zero every field it does not use (test 3 of R499). -/
def entryReservedOk (e : BatchEntry) : Bool :=
  decide (e.eflags < 2) && !(e.op == 3 && e.eflags != 0) && !((e.op == 2 || e.op == 3) && e.valueLen != 0) &&
    !(!entryConditional e && e.expVer != 0) && e.padding.all (fun b => b == 0)

/-- An entry's fields lie in their ranges (test 5). -/
def entryRangeOk (e : BatchEntry) : Bool :=
  decide (1 ≤ e.op) && decide (e.op ≤ 3) && decide (e.keyLen ≤ 1024) && decide (e.valueLen ≤ 0x04000000) &&
    !(e.op == 2 && e.eflags % 2 == 1 && e.expVer == 0)

/-! ### The tests of R499 -/

/-- FLAGS bits that an opcode uses. -/
def flagsUsed (o : Nat) : Nat :=
  if o = 0x03 ∨ o = 0x07 ∨ o = 0x20 ∨ o = 0x44 ∨ o = 0x53 ∨ o = 0x58 then 1 else if o = 0x40 then 3 else 0

/-- PARAM bits that an opcode uses. -/
def paramUsed (o : Nat) : Nat :=
  match o with
  | 0x06 => 0xFFFF | 0x07 => 0xFFFFFF | 0x08 => 0xFFFFFFFF | 0x09 => 0x0FFF0FFF | 0x24 => 0xFFFFFFFF
  | 0x25 => 0xFFFFFFFFFF | 0x41 => 0xFFFF | 0x42 => 0xF | 0x43 => 0x7F3F + 0x8000 | 0x44 => 0xFFFFFFFFFFFFFFFF
  | 0x50 => 0xFF | 0x51 => 0xFF | 0x53 => 0xFFFFFFFFFFFFFFFF | 0x57 => 3 | 0x5C => 0xFFFFFFFFFFFF
  | 0x5E => 0xFFFFFFFF | _ => 0

/-- SEG_OFFSET bits that an opcode uses. -/
def segUsed (o : Nat) : Nat :=
  if o = 0x01 ∨ o = 0x08 ∨ o = 0x59 ∨ o = 0x5C then 0xFFFFFFFF
  else if o = 0x50 ∨ o = 0x51 then 0xFFFFFF else 0

/-- QUAY may be non-zero. -/
def quayUsed (c : Capsule) : Bool :=
  if c.opcode = 0x20 then c.flags % 2 == 0
  else if c.opcode = 0x40 then c.flags % 4 == 1
  else decide (c.opcode ≤ 0x23)

/-- EXPECTED_VERSION may be non-zero. -/
def versionUsed (c : Capsule) : Bool := c.opcode == 0x05 || (c.opcode == 0x03 && c.flags % 2 == 1)

/-- KEY_LEN may be non-zero. -/
def keyUsed (c : Capsule) : Bool := takesKey c.opcode || (c.opcode == 0x07 && c.flags % 2 == 1)

/-- VALUE_LEN must be zero as an unused field: opcodes that carry no value and request no bytes. -/
def valueUnused (o : Nat) : Bool := !carriesValue o && o != 0x01 && o != 0x53

/-- The bytes that LB_CLEAR and OTP_REQUEST carry as zero (R377, R403). -/
def zeroesOk (c : Capsule) : Bool :=
  if c.opcode = 0x54 then beAt c.value 97 3 == 0
  else if c.opcode = 0x57 then (if c.param % 4 = 1 then beAt c.value 1 3 == 0 else beAt c.value 1 7 == 0)
  else true

/-- Test 3: what the opcode does not use is zero. -/
def reservedOk (c : Capsule) : Bool :=
  let outside := fun (v used : Nat) => v &&& (2 ^ 64 - 1 - used) != 0
  !outside c.flags (flagsUsed c.opcode) && decide (c.quay < 4096) && (quayUsed c || c.quay == 0) &&
    (keyUsed c || c.keyLen == 0) && !(valueUnused c.opcode && c.valueLen != 0) &&
    !outside c.segOff (segUsed c.opcode) && (versionUsed c || c.expVer == 0) &&
    !outside c.param (paramUsed c.opcode) && zeroesOk c &&
    (c.opcode != 0x06 || (entriesOf c).1.all entryReservedOk)

/-- VALUE_LEN that an opcode requires, where it requires one. -/
def valueFixed (c : Capsule) : Option Nat :=
  match c.opcode with
  | 0x07 => some 16 | 0x09 => some 16 | 0x20 => some 32 | 0x21 => some 32 | 0x23 => some 64
  | 0x51 => some (4 * (c.param % 256)) | 0x54 => some 196 | 0x55 => some 32 | 0x56 => some 32
  | 0x57 => (match c.param % 4 with
    | 1 => some 52
    | 2 => some 8
    | _ => none)
  | _ => none

/-- The maximum value size of the capsule's quay, when it is open (R153). -/
def quayMax (s : State) (c : Capsule) : Option Nat :=
  match tabGet s.flash.quays c.quay with
  | some q => if q.erasing then none else some q.maxValue
  | none => none

/-- A value of this length fits the quay. -/
def fitsQuay (s : State) (c : Capsule) (len : Nat) : Bool :=
  match quayMax s c with
  | some m => decide (len ≤ m)
  | none => true

/-- Test 4: the length rules. -/
def lengthsOk (s : State) (c : Capsule) : Bool :=
  !(takesKey c.opcode && c.keyLen == 0) &&
    (match valueFixed c with
      | some n => c.valueLen == n
      | none => true) &&
    !((c.opcode == 0x02 || c.opcode == 0x05) && !fitsQuay s c c.valueLen) &&
    (c.opcode != 0x06 ||
      (let (es, whole) := entriesOf c
       whole && es.length == c.param % 65536 &&
         es.all (fun e => e.keyLen != 0 && !(e.op == 1 && !fitsQuay s c e.valueLen))))

/-- A number lies in a closed range. -/
def inRange (n lo hi : Nat) : Bool := decide (lo ≤ n) && decide (n ≤ hi)

/-- Berths of the mooring that owns a berth. -/
def berthCount (s : State) (n : Nat) : Nat :=
  match berthOf s n with
  | some b => (match mooringOf s b.mooring with
    | some m => m.berths.length
    | none => 0)
  | none => 0

/-- Test 5: the ranges, and the fields that must agree. -/
def rangesOk (s : State) (n : Nat) (c : Capsule) : Bool :=
  decide (c.keyLen ≤ (if c.opcode = 0x07 then 32 else 1024)) && decide (c.valueLen ≤ 0x04000000) &&
    (match c.opcode with
    | 0x03 => !(c.flags % 2 == 1 && c.expVer == 0)
    | 0x06 =>
      let es := (entriesOf c).1
      inRange (c.param % 65536) 1 256 && es.all entryRangeOk && decide ((es.map BatchEntry.key).Nodup)
    | 0x07 => inRange (c.param % 65536) 1 1024 && inRange (natBits c.param 23 16) 8 16
    | 0x08 => c.segOff % 65536 == 0
    | 0x23 => c.quay == beAt c.value 4 2
    | 0x25 => inRange (natBits c.param 39 32) 1 64
    | 0x40 => c.flags % 4 != 3
    | 0x42 => decide (c.param % 16 < berthCount s n)
    | 0x43 => inRange (natBits c.param 15 8) 1 64
    | 0x53 => inRange c.valueLen 4096 1048576
    | 0x57 => c.param % 4 == 1 || c.param % 4 == 2
    | 0x59 => inRange c.valueLen 1 1048576
    | 0x5C => decide (1 ≤ c.param % 2 ^ 32) && inRange (natBits c.param 47 32) 10000 60000 && inRange c.segOff 60 2592000
    | _ => true)

/-- Check 1 of R126 (R499). -/
def formatStatus (s : State) (n : Nat) (c : Capsule) : Option Status :=
  if !opcodeDefined c.opcode then some .badOpcode
  else if c.carried ≠ 32 + c.keyLen + (if carriesValue c.opcode then c.valueLen else 0) then some .badLength
  else if !reservedOk c then some .reservedBits
  else if !lengthsOk s c then some .badLength
  else if !rangesOk s n c then some .range
  else none

/-! ### Roles and rules (R111, R134, R152, R181) -/

/-- A rule matches a subject and key. -/
def ruleMatches (r : Rule) (quay subject : Nat) (key : List Byte) : Bool :=
  r.quay == quay && (r.anySubject || r.subject == subject) && decide (r.pfx.length ≤ key.length) &&
    key.take r.pfx.length == r.pfx

/-- The rule that decides: the highest priority, then the lowest ID (R181). -/
def decidingRule (s : State) (quay subject : Nat) (key : List Byte) : Option Rule :=
  (s.flash.rules.filter (fun r => ruleMatches r quay subject key)).foldl (fun m r =>
    match m with
    | none => some r
    | some x => if x.priority < r.priority ∨ (x.priority = r.priority ∧ r.id < x.id) then some r else some x) none

/-- The quay's rules grant a subject one access on a key: bit `g` of GRANTS. -/
def granted (s : State) (quay subject : Nat) (key : List Byte) (g : Nat) : Bool :=
  match decidingRule s quay subject key with
  | some r => natBits r.grants g g == 1
  | none => false

/-- What a Tenant capsule needs: keys with the grant each needs; none where no rule can give it. -/
def neededGrants (c : Capsule) : Option (List (List Byte × Nat)) :=
  match c.opcode with
  | 0x01 => some [(c.key, 0)]
  | 0x02 => some [(c.key, 1)]
  | 0x03 => some [(c.key, 2)]
  | 0x04 => some [(c.key, 0)]
  | 0x05 => some [(c.key, 1)]
  | 0x06 => some ((entriesOf c).1.map (fun e => (e.key, if e.op = 1 then 1 else if e.op = 2 then 2 else 0)))
  | 0x07 => some [(c.key, 3)]
  | 0x08 => some [(c.key, 4)]
  | 0x40 => some [([], 5)]
  | _ => none

/-- The rule pair of a quay has lost both members (R221). -/
def rulePairDead (s : State) (quay : Nat) : Bool :=
  match s.index.pairs[quay % 2]? with
  | some p => p.dead
  | none => false

/-- Rules are asked for a Tenant. -/
def tenantStatus (s : State) (subject : Nat) (c : Capsule) : Option Status :=
  match neededGrants c with
  | none => some .auth
  | some gs =>
    if rulePairDead s c.quay then some .retry
    else if gs.all (fun g => granted s c.quay subject g.1 g.2) then none
    else some .auth

/-- Check 2 of R126 for a role: 1 Operator, 2 Auditor, 3 Tenant. -/
def roleStatus (s : State) (role subject : Nat) (c : Capsule) : Option Status :=
  let o := c.opcode
  if o ≤ 0x3F then
    if role = 1 then none else if role = 3 then tenantStatus s subject c else some .auth
  else if o = 0x40 then
    (match c.flags % 4 with
    | 0 => none
    | 1 => if role = 1 then none else if role = 3 then tenantStatus s subject c else some .auth
    | _ => if role = 1 then none else some .auth)
  else if o ≤ 0x47 ∨ o = 0x52 then none
  else if o = 0x50 ∨ o = 0x51 ∨ o = 0x53 ∨ o = 0x55 then (if role = 1 ∨ role = 2 then none else some .auth)
  else if role = 1 then none
  else some .auth

/-! ### Checks 4 to 9 -/

/-- Opcodes that change stored keys, quays or rules (R76). -/
def kvChanges (o : Nat) : Bool := [0x02, 0x03, 0x05, 0x06, 0x20, 0x21, 0x22, 0x23, 0x24].contains o

/-- Opcodes that check the quay's state after admission (R153): they define quays and rules. -/
def definesQuay (o : Nat) : Bool := decide (0x20 ≤ o)

/-- A quay is open (R177). -/
def quayOpen (s : State) (q : Nat) : Bool :=
  match tabGet s.flash.quays q with
  | some y => !y.erasing
  | none => false

/-- Check 4 of R126: the phase (R386), the mode (R76, R498), the quay (R153), the target of a reset (R146). -/
def modeStatus (s : State) (n : Nat) (c : Capsule) : Option Status :=
  let o := c.opcode
  let no := fun (b : Bool) => if b then some Status.state else none
  if !serviceOpen s then no (o != 0x52 && o != 0x50 && o != 0x53 && o != 0x55)
  else if o ≤ 0x3F then
    no (s.mode.cur == 3 || s.mode.cur == 5 || (s.mode.cur == 2 && kvChanges o) ||
      (!definesQuay o && !quayOpen s c.quay))
  else if o = 0x42 then
    (match berthOf s n with
    | some b =>
      (match mooringOf s b.mooring with
      | some m => no (match berthOf s (m.berths.getD (c.param % 16) 16384) with
          | some t => t.reset.isSome
          | none => false)
      | none => none)
    | none => none)
  else if o = 0x54 ∨ o = 0x57 ∨ 0x58 ≤ o then no (s.mode.cur == 2)
  else none

/-- Words of a MGMT_WRITE. -/
def capsuleWords (c : Capsule) : List Word := beWords (c.param % 256) c.value

/-- The access writes bit `b` of a register. -/
def writesBit (addr : Nat) (ws : List Word) (reg b : Nat) : Bool :=
  decide (addr ≤ reg) && decide (reg < addr + 4 * ws.length) && decide ((reg - addr) % 4 = 0) &&
    bit (wordAt addr ws reg) b

/-- Check 5 of R126 (R373). -/
def frozenStatus (s : State) (c : Capsule) : Option Status :=
  if s.log.frozen.isSome ∧ (c.opcode = 0x54 ∨ (c.opcode = 0x51 ∧ writesBit (c.segOff) (capsuleWords c) A.LB_CONTROL 29))
  then some .frozen
  else none

/-- Keys and value lengths that a capsule writes: the PUT entries of a BATCH, or its own key (R158). -/
def putsOf (c : Capsule) : List (Nat × Nat) :=
  if c.opcode = 0x02 ∨ c.opcode = 0x05 then [(c.keyLen, c.valueLen)]
  else if c.opcode = 0x06 then
    ((entriesOf c).1.filter (fun e => e.op == 1)).map (fun e => (e.keyLen, e.valueLen))
  else []

/-- Granules that check 8 reserves. -/
def granulesOf (c : Capsule) : Nat := listSum ((putsOf c).map (fun p => granules p.1 p.2))

/-- The space state's verdict on a capsule (R176, R289, R290). -/
def spaceStatus (s : State) (c : Capsule) : Option Status :=
  let o := c.opcode
  let g := granulesOf c
  let y := tabGet s.flash.quays c.quay
  let held := match y with
    | some q => q.used + q.reserved
    | none => 0
  if !(putsOf c).isEmpty then
    let byState : Option Status :=
      match s.space.state with
      | 0 => none
      | 1 => if s.tide.paced + g ≤ fieldOf s A.DR_PACE 20 0 then none else some .throttled
      | 2 => (match y with
        | some q => if held + g ≤ q.guarGib * 2 ^ 24 then none else some .noSpace
        | none => some .noSpace)
      | 3 => some .noSpace
      | _ => some .mediaExhausted
    byState.orElse (fun _ =>
      let beyond : Bool := match y with
        | some q => q.limitGib != 0 && decide (q.limitGib * 2 ^ 24 < held + g)
        | none => false
      if beyond || decide (24000000000 < s.space.keys + s.space.reservedKeys + (putsOf c).length) ||
        decide (capacity < s.space.used + s.space.reserved + g) then some .noSpace else none)
  else if o = 0x03 ∨ o = 0x06 then
    (if s.space.state = 4 ∧ s.space.reserveLeft = 0 then some .mediaExhausted else none)
  else if o = 0x20 ∨ o = 0x21 ∨ o = 0x23 then (if s.space.state = 4 then some .mediaExhausted else none)
  else none

/-- The mutation is a posted write (R165). -/
def isPosted (s : State) (c : Capsule) : Bool :=
  match tabGet s.flash.quays c.quay with
  | none => false
  | some q => q.posted && (c.opcode == 0x02 || (c.opcode == 0x03 && c.flags % 2 == 0) ||
      (c.opcode == 0x06 && !(entriesOf c).1.any entryConditional))

/-- The key of a quay's digests, and the digest of a key (R184). -/
def digestOf (s : State) (q : Nat) (key : List Byte) : Nat :=
  match tabGet s.flash.quays q with
  | some y => kmac (randomOf y.indexKey) key "FLITAR-IDX"
  | none => 0

/-- Keys whose in-flight entries a mutation writes. -/
def keysWritten (c : Capsule) : List (List Byte) :=
  if c.opcode = 0x02 ∨ c.opcode = 0x03 ∨ c.opcode = 0x05 then [c.key]
  else if c.opcode = 0x06 then ((entriesOf c).1.filter (fun e => e.op != 3)).map BatchEntry.key
  else []

/-- The status for which a quay's at-rest key is unavailable, if it is (R166, R340). -/
def keyUnavailable (s : State) (q : Nat) : Option Status :=
  match tabGet s.flash.quays q with
  | none => some .keyErased
  | some y =>
    if y.erasing then some .keyErased
    else if s.cipher.alarm = .settle then some .keyLost
    else match slotOf s y.slot with
      | some x => (match x.st with
        | .live => none
        | .sealed => some .keyLost
        | .erasing => some .keyErased)
      | none => some .keyLost

/-- Bytes of the posted write buffer (R17). -/
def postedCapacity : Nat := DramRegion.bytes .postedBuffer

/-- Bytes that a capsule takes in the posted write buffer. -/
def postedNeed (c : Capsule) : Nat :=
  if c.opcode = 0x06 then
    listSum (((entriesOf c).1).map (fun e => 64 * recordUnits e.keyLen (some e.valueLen)))
  else 64 * recordUnits c.keyLen (some c.valueLen)

/-- In-flight entries can be reserved for a mutation (R210, R221). -/
def inflightOk (s : State) (c : Capsule) : Bool :=
  let ks := keysWritten c
  if ks.isEmpty || (keyUnavailable s c.quay).isSome then true
  else
    let dead := (s.index.pairs.drop 2).map BankPair.dead
    if dead.any id then
      let ds := ks.map (digestOf s c.quay)
      inflightRoom s ds && ds.all (fun d => !(dead.getD (pairOf d) false))
    else if s.index.inflight.length + ks.length ≤ 131072 then true
    else inflightRoom s (ks.map (digestOf s c.quay))

/-- Wait in µs before a further UNLOCK is admitted (R402). -/
def unlockWait (s : State) : Nat :=
  let f := s.boot.unlockFails
  if f = 0 then 0 else (s.boot.unlockFailAt + 1000000 * min (2 ^ (f - 1)) 3600) - s.sessionUs

/-- Check 9 of R126. -/
def resourceStatus (s : State) (c : Capsule) : Option Status :=
  if c.opcode = 0x56 then (if 0 < unlockWait s then some .retry else none)
  else if !inflightOk s c then some .retry
  else if isPosted s c && decide (postedCapacity < postedBytes s + postedNeed c) then some .retry
  else none

/-- The checks of R126 in order, for a capsule at the head of a berth of a mooring. -/
def admission (s : State) (n : Nat) (b : Berth) (m : Mooring) (c : Capsule) : Option Status :=
  (formatStatus s n c).orElse fun _ =>
  (roleStatus s m.role m.subject c).orElse fun _ =>
  (if s.seqr.barrier then some Status.busyActivating else none).orElse fun _ =>
  (modeStatus s n c).orElse fun _ =>
  (frozenStatus s c).orElse fun _ =>
  (if b.tags.any (fun t => t.tag == c.tag) then some Status.tagInUse else none).orElse fun _ =>
  (if 1024 ≤ b.tags.length then some Status.tagsFull else none).orElse fun _ =>
  (spaceStatus s c).orElse fun _ =>
  resourceStatus s c

/-- The hint in a refusal's RESULT where the spec gives a figure (R289, R402): the time to the next tide window, or the
back-off that remains. -/
def refusalHint (s : State) (c : Capsule) (st : Status) : Completion :=
  let r := refusal s c.opcode c.tag st
  if st = .throttled then
    { r with result := fit (beBytes (max 10 (1000 - s.sessionUs % 1000)) 4) 16 }
  else if st = .retry ∧ c.opcode = 0x56 then
    { r with result := fit (beBytes (max 10 (unlockWait s)) 4) 16 }
  else r

/-- A refusal before admission (R33): it completes with CSN 0 and changes nothing but counters. Under R176 the quay that the capsule
names counts it: for QUAY_CREATE with ANY, which carries QUAY 0, that is quay 0 (DESIGN CHOICE: R183 names no quay; log entry 166). -/
def refuseCapsule (s : State) (n : Nat) (c : Capsule) (st : Status) : State :=
  let s := if (formatStatus s n c).isSome then
      bump s (A.BW_REJ_COUNT + (if c.opcode = 0x50 ∨ c.opcode = 0x51 ∨ c.opcode = 0x52 then 8 else 4))
    else s
  let s : State := if (spaceStatus s c) = some st ∧ c.opcode ≤ 0x3F then
      { s with flash := { s.flash with quays := tabUpd s.flash.quays c.quay (fun q =>
        { q with refused := sat (q.refused + 1) 32 }) } }
    else s
  complete s n (refusalHint s c st)

/-- A capsule of an undefined opcode is decided as soon as it comes to the head (check 1); at most `fuel` of them. -/
def refuseUndefined : Nat → State → State
  | 0, s => s
  | fuel + 1, s =>
    match nextRequest s with
    | none => s
    | some r =>
      let c := parseCapsule r.bytes
      if opcodeDefined c.opcode then s
      else refuseUndefined fuel (refuseCapsule (popRequest s) r.berth c .badOpcode)

/-- Capsules before the sequencer. -/
def queuedRequests (s : State) : Nat := s.seqr.cycle.length + s.seqr.collecting.length

/-- The request of a berth with one of some opcodes that the sequencer decides next. -/
def dueCapsule (s : State) (n opcode : Nat) : Option Capsule :=
  match nextRequest s with
  | none => none
  | some r =>
    let c := parseCapsule r.bytes
    if r.berth = n ∧ c.opcode = opcode then some c else none

/-- CSNs can be assigned: before service opens none is needed; afterwards the chunk must be recorded (R36). A reset may
need one for each capsule it discards (R146). -/
def admitReady (s : State) (opcode : Nat) : Bool :=
  !serviceOpen s || csnReady s (if opcode = 0x42 then 1025 else 1)

/-- A capsule is one for which a Tenant's rules are searched. -/
def searchesRules (c : Capsule) : Bool := decide (c.opcode ≤ 0x3F) || (c.opcode == 0x40 && c.flags % 4 == 1)

/-- The rule searches that check 2 makes for the front request (R126, R212). -/
def frontSearches (s : State) : State :=
  match nextRequest s with
  | none => s
  | some r =>
    let c := parseCapsule r.bytes
    match (berthOf s r.berth).bind (fun b => mooringOf s b.mooring) with
    | none => s
    | some m =>
      if m.role = 3 ∧ searchesRules c ∧ formatStatus s r.berth c = none ∧ !rulePairDead s c.quay then
        match neededGrants c with
        | some gs => gs.foldl (fun s g => ruleSearches s c.quay m.subject g.1) s
        | none => s
      else s

/-- The front request leaves the slot and its ring, its rule searches made. -/
def takeRequest (s : State) : State := popRequest (frontSearches s)

/-- Decide the capsule of a berth that the sequencer presents next: refused, or handed on with the berth, the mooring and
the state after it left its ring. -/
def decideCapsule (s : State) (n opcode : Nat) (run : State → Berth → Mooring → Capsule → State) : State :=
  match dueCapsule s n opcode with
  | none => s
  | some c =>
    if !admitReady s opcode then s
    else match berthOf s n with
      | none => s
      | some b =>
        match mooringOf s b.mooring with
        | none => s
        | some m =>
          let verdict := admission s n b m c
          let t := takeRequest s
          let t : State := match verdict with
            | some st => refuseCapsule t n c st
            | none => run t b m c
          refuseUndefined (queuedRequests t) t

end Sys2Proof.Machine
end

