-- ==== Sys2Proof/Machine/Ops.lean ====
section
/-! DEFINITION. What follows every command: the output pins and the lamp (R61, R458, R468, R470, R471), the idle timer
(R150, R323) and the space state (R288). Time, and what a loss of power leaves (R41, R148). -/

namespace Sys2Proof.Machine

/-! ### Pins and lamp -/

/-- ALERT_N (R61, R380, R468): held released until the SY page is ready, and from power fail on. -/
def alertOf (s : State) : Bool :=
  s.power.running && s.power.phase == .running && s.boot.readyCore && (evtSummary s != 0 || s.log.unacked)

/-- The row of R471 that governs the lamp. -/
def lampOf (s : State) : Lamp :=
  let qualified := s.power.phase == .bulkCharge || s.power.phase == .rails || s.power.phase == .running
  if !qualified || s.power.pwrdis || s.power.failed then .off
  else if s.boot.stage = .stoppedOtp then .otpFault
  else if s.boot.stage = .stoppedImage then .imageFault
  else if s.power.holdUpLate then .holdUpFault
  else if s.tide.tripped ∧ s.phase ≠ 4 then .tripping
  else if s.phase = 4 then (if s.tide.tripped then .closedTripped else .closed)
  else if s.boot.applying || s.seqr.barrier then .updating
  else if alertOf s then .alert
  else if s.phase = 2 then .service
  else .busy

/-- Patterns that show amber. -/
def lampAmber : Lamp → Bool
  | .off | .closed | .busy | .service => false
  | .otpFault | .imageFault | .holdUpFault | .tripping | .closedTripped | .updating | .alert => true

/-- A capsule has been admitted within the last 50 ms (R470). -/
def recentlyAdmitted (s : State) : Bool :=
  match s.boot.lastAdmitted with
  | some t => decide (s.sessionUs ≤ t + 50000)
  | none => false

/-- The output lines that the rest of the state gives. -/
def linesOf (s : State) : Lines :=
  { alert := alertOf s, led0 := s.power.running && recentlyAdmitted s, led1 := s.power.running && lampAmber (lampOf s),
    lamp := lampOf s }

/-- Drive the output lines. -/
def refreshLines (s : State) : State := { s with lines := linesOf s }

/-- The idle timer starts when the drive becomes idle and is cleared when it becomes busy (R323). -/
def reviewIdle (s : State) : State :=
  let since := if idle s then some (s.pstate.idleSince.getD s.sessionUs) else none
  { s with pstate := { s.pstate with idleSince := since } }

/-- What follows every command and every tick. -/
def settle (s : State) : State := refreshLines (reviewIdle (reviewSpace s))

/-- The outcome of a command. -/
def conclude (s : State) : Host.Outcome State Fault Refusal := .next (settle s)

/-! ### Time -/

/-- TLC programs that have run for 2.5 ms end (R236). -/
def endLines (s : State) : State :=
  (s.dies.filter (fun p => p.2.op == 3 && decide (p.2.runSince + 2500 ≤ s.sessionUs))).foldl (fun s p =>
    updDie s p.1 (fun d => { d with op := 0, suspends := 0, plane := 0, block := 0 })) s

/-- What time alone does: messages go through the pipelines, TLC programs end, and the replacements of lost banks are filled (R221; DESIGN CHOICE: they end at a tick,
log entry 172). -/
def timeDriven (s : State) : State := if s.power.running then fillPairs (endLines (pipesWork s)) else s

/-- One microsecond: session and powered time run while the controller is out of reset (R328, R329). -/
def tick (s : State) : State :=
  settle (timeDriven { s with boardUs := s.boardUs + 1,
                              sessionUs := s.sessionUs + flag s.power.running,
                              poweredUs := s.poweredUs + flag s.power.running })

/-! ### Loss of power -/

/-- What a power loss leaves (R41, R148): what lies in flash, the input stage's own state, and the board's clock. Records
that had not landed are gone; so is the partial set of an open staging (R414). -/
def powerLost (s : State) : State :=
  let s := (s.flash.sets.map Prod.fst).foldl flushSet s
  let u := s.update
  let part := if u.st = .staging then some (u.owner, u.staged) else none
  let armed := if u.st = .empty ∨ u.st = .staging ∨ u.st = .staged then none else some u.cohort
  let items := (s.flash.items.filter Item.landed).map (fun i => { i with taken := none })
  let quays := s.flash.quays.map (fun p => (p.1, { p.2 with reserved := 0, refused := 0 }))
  let flash := { s.flash with items := items, quays := quays, partialSet := part, armedCohort := armed,
                              config := { s.flash.config with ovlFail := 0 } }
  { State.reset with pending := s.pending, boardUs := s.boardUs,
                     power := { State.reset.power with pwrdis := s.power.pwrdis, pwrdisRaw := s.power.pwrdisRaw,
                                                       pwrdisSince := s.power.pwrdisSince },
                     flash := flash, out := s.out, draws := s.draws, freeN := s.freeN }

end Sys2Proof.Machine
end

