-- ==== Sys2Proof/Machine/Wire.lean ====
section
/-! DEFINITION. The wire: the checks of R93, links (R81, R82), handshakes (R95 to R100), acceptance, acknowledgement and
delivery of frames (R101 to R107), capsules in assembly (R102, R122), and the timers and endings of moorings (R103 to
R106, R113, R114). -/

namespace Sys2Proof.Machine

/-! ### The checks of R93 -/

/-- A received frame is discarded at check `k` (R93); the breakwater counts it among the frames rejected (R67). -/
def discard (s : State) (p : Port) (k : Nat) : State := bump (bump s (npAddr p A.NP_DISCARD + 4 * k)) A.BW_REJ_COUNT

/-- A received frame has passed every check of R93 that concerns it. -/
def countAccepted (s : State) (p : Port) : State := bump s (npAddr p A.NP_RX_FRAMES)

/-- A frame arrives at a port, whatever becomes of it: the codewords that the port's FEC corrected or could not correct, and the
CE mark of its datagram, are counted (R105, R117). -/
def arrive (s : State) (r : Rx) : State :=
  let s := bumpBy (bumpBy s (npAddr r.port A.NP_FEC_CORR) r.fecCorr) (npAddr r.port A.NP_FEC_UNCORR) r.fecUncorr
  if r.ce && r.fcsOk then bump s (npAddr r.port A.NP_CE_RX) else s

/-- A harbour datagram (R432): IPv6 UDP to the beacon or tow port. -/
def harbourDatagram (s : State) (r : Rx) : Bool :=
  r.ether == .ipv6 && r.proto == 17 &&
    (r.dstUdpPort == fieldOf s A.HB_PORTS 15 0 || r.dstUdpPort == fieldOf s A.HB_PORTS 31 16)

/-- Check 2 (R84, R432). -/
def vlanOk (s : State) (r : Rx) : Bool :=
  let w := regGet s (npAddr r.port A.NP_VLAN)
  let mgmt := fieldOf s A.HB_MGMT 11 0
  match r.vids with
  | [] => bit w 15 && !(harbourDatagram s r && mgmt != 0)
  | [v] =>
    if mgmt ≠ 0 ∧ v = mgmt then harbourDatagram s r
    else v == bits w 11 0 && decide (1 ≤ v) && decide (v ≤ 4094) && !(harbourDatagram s r && mgmt != 0)
  | _ => false

/-- The port serves the frame's IP family and holds the address it names (R85, R117); harbour datagrams use the
link-local address and the harbour group (R432). -/
def addressOk (s : State) (r : Rx) : Bool :=
  let ctrl := regGet s (npAddr r.port A.NP_IP_CTRL)
  match r.ether with
  | .ipv6 => bit ctrl 0 &&
      (match destOf s r.port true r.ipDst with
      | .own => !harbourDatagram s r
      | .linkLocal => true
      | .harbourGroup => harbourDatagram s r
      | .other => false)
  | .ipv4 => bit ctrl 1 && destOf s r.port false r.ipDst == .own
  | .arp => false
  | .other => false

/-- Checks 1 to 4 for an IP datagram of some protocols: the class of the first failure. -/
def ipCheck (s : State) (r : Rx) (protos : List Nat) : Option Nat :=
  if !r.fcsOk || decide (9216 < r.size) then some 0
  else if !vlanOk s r then some 1
  else if r.ether = .other then some 2
  else if !r.ipHeaderOk || r.fragment || !protos.contains r.proto || !addressOk s r then some 3
  else none

/-- Check 5 (R87): both UDP ports are the port that serves the frame. -/
def udpOk (r : Rx) (port : Nat) : Bool :=
  r.srcUdpPort == port && r.dstUdpPort == port && r.udpLengthOk &&
    (match r.udpSum with
    | .good => true
    | .zero => r.ether == .ipv4
    | .bad => false)

/-- The frame came to the tow port (R432, R437). -/
def onTowPort (s : State) (r : Rx) : Bool := r.dstUdpPort == fieldOf s A.HB_PORTS 31 16 && harbourDatagram s r

/-- The UDP port that a frame must use. -/
def servedPort (s : State) (r : Rx) : Nat :=
  if onTowPort s r then fieldOf s A.HB_PORTS 31 16 else fieldOf s (npAddr r.port A.NP_UDP) 15 0

/-- Check 6: VERSION, TYPE, reserved bits, LENGTH. A frame whose TYPE R90 does not list is not of the TYPE `typ` that its command
carries. -/
def headOk (h : Head) (typ payload : Nat) : Bool :=
  h.version == 2 && h.typ == typ && h.reserved == 0 && h.flags.toNat % 512 == 0 && h.length == payload

/-- Checks 1 to 6 for a Flitar frame of some TYPE with a payload of some length. -/
def frameCheck (s : State) (r : Rx) (h : Head) (typ payload : Nat) : Option Nat :=
  match ipCheck s r [17] with
  | some k => some k
  | none => if !udpOk r (servedPort s r) then some 4 else if !headOk h typ payload then some 5 else none

/-- The drive answers HELLO frames: the boot record is durable and the link is up (R386). -/
def answersHello (s : State) (p : Port) : Bool :=
  (s.boot.stage == .mounting || s.boot.stage == .mounted) && linkUp s p

/-- Answer a frame of no mooring with STALE, at most 1,000 a second on a port (R116). DESIGN CHOICE (log 156): the limit is counted
over each whole second of session time. -/
def sendStale (s : State) (r : Rx) (m : Nat) : State :=
  let p := r.port
  if !answersHello s p then s
  else
    let l := linkOf s p
    let now := s.sessionUs / 1000000
    let n := if l.staleSecond = now then l.staleCount else 0
    if 1000 ≤ n then s
    else
      let s := setLink s p { l with staleSecond := now, staleCount := n + 1 }
      bump (emitOn s p (replyTo s r false m r.dstUdpPort (staleFrame m)) (.stale p m)) (npAddr p A.NP_STALE_SENT)

/-- The line that a frame names: a towline on the tow port, else a mooring. -/
def lineOf (s : State) (f : Frame) : Line :=
  if onTowPort s f.rx then .towline f.head.mooring else .mooring f.head.mooring

/-- A towline past its handshake. -/
def towlineUp (x : Towline) : Bool := x.st != .helloSent && x.st != .authSent

/-- Check 7: the mooring is MOORED or CLOSING and the berth is one of its own; the towline is open. -/
def lineServes (s : State) (f : Frame) : Bool :=
  match lineOf s f with
  | .mooring m => (match mooringOf s m with
    | some x => x.st != .tearingDown && decide (f.head.berth < x.berths.length)
    | none => false)
  | .towline t => (match tabGet s.harbour.towlines t with
    | some x => towlineUp x && f.head.berth == 0
    | none => false)

/-- A frame that fails check 7 is answered with STALE where R116 says so. -/
def unserved (s : State) (f : Frame) : State :=
  let s := discard s f.rx.port 6
  match lineOf s f with
  | .mooring m => (match mooringOf s m with
    | none => sendStale s f.rx m
    | some x => if x.st = .tearingDown ∧ x.goneSent then sendStale s f.rx m else s)
  | .towline _ => s

/-- SEQ lies in the receive window (R102). -/
def inWindow (t : Transport) (seq : Nat) : Bool := decide (seqDist t.recvAck seq < t.recvWindow)

/-- SEQ has been received already. -/
def received (t : Transport) (seq : Nat) : Bool := seqLt seq t.recvAck || t.held.any (fun x => x.seq == seq)

/-- The receive slot of a line. -/
def recvSlotOf (s : State) : Line → Nat
  | .mooring m => match tabGet s.moorings m with
    | some x => x.recvSlot
    | none => 65536
  | .towline t => match tabGet s.harbour.towlines t with
    | some x => x.recvSlot
    | none => 65536

/-- Check 9 (R101): the tag verifies under the key of the frame's phase. The old phase has a key only while the old epoch is
kept; a frame of it that comes later fails. -/
def tagPasses (t : Transport) (f : Frame) : Bool :=
  let same := f.head.flags.getLsbD 15 == t.recvPhase
  match f.tag with
  | .current => same
  | .previous => !same && t.oldEpoch.isSome
  | .next => !same
  | .none => false

/-- The first frame of a new phase writes a new epoch of the receive slot (R101); none when the slot refuses it. -/
def takePhase (s : State) (l : Line) (f : Frame) : Option State :=
  let phase := f.head.flags.getLsbD 15
  if f.tag ≠ .next then some s
  else match slotOf s (recvSlotOf s l) with
    | none => none
    | some x => (newEpoch s (recvSlotOf s l) (nextSecret x.key) 1).map (fun s =>
        updTp s l (fun t => { t with recvPhase := phase, oldEpoch := some (s.sessionUs, f.head.seq),
                                     rekeyRefusedSince := none }))

/-- The path follows the accepted frame with the highest SEQ (R107). -/
def movePath (s : State) (l : Line) (f : Frame) : State :=
  updTp s l (fun t =>
    if seqLt f.head.seq t.path.seq then t
    else
      let path : Path := { port := f.rx.port, ethSrc := f.rx.ethSrc, ipSrc := f.rx.ipSrc, ipv6 := f.rx.ether == .ipv6,
                           ipDst := f.rx.ipDst, seq := f.head.seq }
      { t with path := path })

/-- A tag failure counts against the port (row 4 of R382). -/
def tagFailure (s : State) (p : Port) : State := (faultOccur (discard s p 8) 4 (portNum p) 0).1

/-- What an accepted frame does before its payload is looked at: the path, the congestion state, what it acknowledges. CWR ends
ECE unless its own datagram is CE-marked (R105). -/
def acceptFrame (s : State) (l : Line) (f : Frame) : State :=
  let s := countAccepted s f.rx.port
  let s := updTp s l (fun t => { t with lastRx := s.sessionUs, eceOut := t.eceOut || (t.ecn && f.rx.ce) })
  processAck (movePath s l f) l f.head.ack f.head.sack f.head.window (f.head.flags.getLsbD 14)
    (f.head.flags.getLsbD 13 && !f.rx.ce)

/-- The checks of R93 on a frame of a line; check 8 only for frames that consume a sequence number. The answer is the
state, and the line when the frame is accepted. -/
def receive (s : State) (typ : Nat) (sequenced : Bool) (f : Frame) : State × Option Line :=
  let l := lineOf s f
  let s := arrive s f.rx
  match frameCheck s f.rx f.head typ f.payload.length with
  | some k => (discard s f.rx.port k, none)
  | none =>
    if !lineServes s f then (unserved s f, none)
    else match tpOf s l with
      | none => (s, none)
      | some t =>
        if sequenced ∧ received t f.head.seq then (sendAck (discard s f.rx.port 7) l, none)
        else if sequenced ∧ ¬inWindow t f.head.seq then (discard s f.rx.port 7, none)
        else if !tagPasses t f then (tagFailure s f.rx.port, none)
        else match takePhase s l f with
          | none =>
            let since := some (t.rekeyRefusedSince.getD s.sessionUs)
            (updTp (discard s f.rx.port 8) l (fun t => { t with rekeyRefusedSince := since }), none)
          | some s => (acceptFrame s l f, some l)

/-! ### Capsules in assembly (R102, R121, R122) -/

/-- Bytes of value staging (R17). -/
def stagingCapacity : Nat := DramRegion.bytes .valueStaging

/-- Value bytes that a capsule declares, from its first bytes. -/
def declaredValue (bytes : List Byte) : Nat :=
  let c := parseCapsule bytes
  if carriesValue c.opcode then c.valueLen else 0

/-- A piece of the record of an entry has not been transferred to a die. -/
def pieceUnsent (s : State) (csn entry : Nat) : Bool :=
  let mine := fun (x : Piece) => x.csn == csn && x.entry == entry && x.kind == .record
  s.space.waiting.any mine || s.space.pages.any (fun p => !p.2.closed && p.2.pieces.any mine)

/-- Value bytes that an admitted write keeps in value staging (R17, R28): until every page of the value's record is transferred;
a posted write's value lies in the posted write buffer. -/
def stagedValue (s : State) (c : Cmd) : Nat :=
  match c.job with
  | .write ops =>
    if ((tabGet s.flash.quays c.quay).map Quay.posted).getD false then 0
    else listSum (ops.zipIdx.map (fun x =>
      match x.1.change with
      | .put v => if c.stage = .waiting ∨ pieceUnsent s c.csn x.2 then v.length else 0
      | .delete | .check => 0))
  | _ => 0

/-- Value bytes in staging: those that the capsules in assembly and in the rings declare, and those of admitted writes. -/
def stagingUsed (s : State) : Nat :=
  listSum (s.cmds.map (stagedValue s)) + listSum (s.berths.map (fun p => listSum (p.2.sq.map (fun e => declaredValue e.bytes)) +
    (match p.2.asm with
    | some a => if a.entry then declaredValue a.bytes else 0
    | none => 0)))

/-- A capsule ends without its LAST frame: E_BAD_LENGTH and CSN 0 (R102, R122). -/
def endPartial (s : State) (n : Nat) (b : Berth) : State :=
  match b.asm with
  | none => s
  | some a =>
    let c := parseCapsule a.bytes
    let tail := if a.entry then (b.sqTail + 2047) % 2048 else b.sqTail
    let s := updBerth s n (fun b => { b with asm := none, sqTail := tail })
    let s := bump s (A.BW_REJ_COUNT + (if c.opcode = 0x50 ∨ c.opcode = 0x51 ∨ c.opcode = 0x52 then 8 else 4))
    complete s n (refusal s c.opcode c.tag .badLength)

/-- A capsule's LAST frame has been delivered: it is QUEUED and presented, or was never given an entry. -/
def finishCapsule (s : State) (n : Nat) (port : Port) (a : Partial) : State :=
  let c := parseCapsule a.bytes
  let s := updBerth s n (fun b => { b with asm := none, lastDelivered := s.sessionUs })
  if c.opcode = 0x42 then present s { port := port, berth := n, reset := true, bytes := a.bytes }
  else if a.entry then
    let s := updBerth s n (fun b => { b with sq := b.sq ++ [⟨port, a.bytes⟩] })
    present s { port := port, berth := n, reset := false, bytes := a.bytes }
  else complete s n (refusal s c.opcode c.tag .retry)

/-- A FIRST frame begins a capsule. -/
def beginCapsule (s : State) (n : Nat) (f : HeldFrame) : State :=
  match berthOf s n with
  | none => s
  | some b =>
    let s := endPartial s n b
    let entry := (parseCapsule f.payload).opcode != 0x42 && decide (sqUsed { b with asm := none } < 1024) &&
      decide (stagingUsed s + declaredValue f.payload ≤ stagingCapacity)
    let a : Partial := { bytes := f.payload, entry := entry, lastFrameAt := s.sessionUs }
    let s := updBerth s n (fun b => { b with asm := some a, rx := .clean,
                                             sqTail := if entry then (b.sqTail + 1) % 2048 else b.sqTail })
    if f.last then finishCapsule s n f.port a else s

/-- A frame without FIRST continues a capsule, or is stray, or is dropped. -/
def continueCapsule (s : State) (n : Nat) (f : HeldFrame) : State :=
  match berthOf s n with
  | none => s
  | some b =>
    match b.asm with
    | some a =>
      let a := { a with bytes := a.bytes ++ f.payload, lastFrameAt := s.sessionUs }
      let s := updBerth s n (fun b => { b with asm := some a })
      if f.last then finishCapsule s n f.port a else s
    | none =>
      if f.last then
        let s := updBerth s n (fun b => { b with rx := .clean })
        if b.rx = .dropping then s else complete s n (refusal s 0 0 .badLength)
      else if b.rx = .dropping then s
      else updBerth s n (fun b => { b with rx := .stray })

/-- Deliver one frame of a mooring, in order (R102, R113, R325). -/
def deliver (s : State) (id : Nat) (f : HeldFrame) : State :=
  match mooringOf s id with
  | none => s
  | some m =>
    if m.st ≠ .moored then s
    else if f.close then updMooring s id (fun m => { m with st := .closing })
    else
      let s := if f.first then wake s else s
      let n := m.berths.getD f.berth 16384
      if f.first then beginCapsule s n f else continueCapsule s n f

/-- Deliver the held frames that are next in order, at most `fuel` of them. -/
def deliverNext (l : Line) (run : State → HeldFrame → State) : Nat → State → State
  | 0, s => s
  | fuel + 1, s =>
    match tpOf s l with
    | none => s
    | some t =>
      match t.held.find? (fun f => f.seq == t.recvAck) with
      | none => s
      | some f =>
        let s := updTp s l (fun t => { t with held := t.held.filter (fun x => x.seq != f.seq),
                                              recvAck := seqAdd t.recvAck 1 })
        deliverNext l run fuel (run s f)

/-- The frame lies beyond every frame received, with a gap before it. -/
def opensGap (t : Transport) (seq : Nat) : Bool :=
  let top := t.held.foldl (fun m f => if seqLt m f.seq then f.seq else m) (seqAdd t.recvAck (2 ^ 32 - 1))
  seqLt top seq && seq != seqAdd top 1

/-- Hold an accepted frame, deliver what is in order, and acknowledge as R103 says. -/
def acceptSequenced (s : State) (l : Line) (f : Frame) (close : Bool) (run : State → HeldFrame → State) : State :=
  match tpOf s l with
  | none => s
  | some t =>
    let gap := opensGap t f.head.seq
    let h : HeldFrame := { seq := f.head.seq, berth := f.head.berth, first := f.head.flags.getLsbD 12,
                           last := f.head.flags.getLsbD 11, close := close, port := f.rx.port, payload := f.payload }
    let since := if t.ackPending = 0 then s.sessionUs else t.ackSince
    let s := updTp s l (fun t => { t with held := t.held ++ [h], ackPending := t.ackPending + 1, ackSince := since })
    let s := deliverNext l run (t.held.length + 1) s
    let due : Bool := match tpOf s l with
      | some t => decide (8 ≤ t.ackPending)
      | none => false
    if gap || f.head.flags.getLsbD 10 || due then sendAck s l else s

/-- The outcome of a command that may have moved the sequencer on: capsules of undefined opcodes at the head of the slot
are decided with it. -/
def concludeSeq (s : State) : Host.Outcome State Fault Refusal := conclude (refuseUndefined (queuedRequests s) s)

/-! ### The end of a TOW (R174, R441) -/

/-- The 48 bytes of a TOW's completion. -/
def towValue (x : Tow) (cursor : Nat) : List Byte :=
  beBytes x.keys 8 ++ beBytes x.granules 8 ++ beBytes x.firstCsn 8 ++ beBytes x.lastCsn 8 ++ beBytes cursor 16

/-- A TOW ends: with its last window copied the cursor is zero, else it names the start of the window not copied. -/
def endTow (s : State) (x : Tow) (st : Status) (cursor : Nat) : State :=
  let s := { s with harbour := { s.harbour with tows := s.harbour.tows.filter (fun y => y.csn != x.csn) } }
  let s : State := match x.towline with
    | none => s
    | some t => { s with harbour := { s.harbour with
        towlines := tabUpd s.harbour.towlines t (fun y => { y with lastUse := s.sessionUs }) } }
  let c := { Completion.plain 0x09 x.tag st x.csn with valueLen := 48, value := towValue x cursor }
  complete s x.berth (if st = .retry then { c with result := retryResult s } else c)

/-- HB_TOW_LAST takes the status of a failed towline or tow, and the peer. -/
def towFailed (s : State) (status peer : Nat) : State :=
  { s with harbour := { s.harbour with towLast := pack [(status, 16, 16), (peer, 0, 12)] } }

/-- Every TOW of a towline ends with E_RETRY (R174). -/
def endTowsOf (s : State) (t status : Nat) : State :=
  (s.harbour.tows.filter (fun x => x.towline == some t)).foldl (fun s x =>
    endTow (towFailed s status x.dest) x .retry x.windowStart) s

/-- A delivered frame of a line: a mooring's capsule; on a towline CLOSE, by which the peer ends it, and with it every TOW that
uses it (R439). A towline's capsules arrive as the commands TOW_DATA and TOW_ACK. -/
def deliverOn (l : Line) (s : State) (f : HeldFrame) : State :=
  match l with
  | .mooring id => deliver s id f
  | .towline t =>
    if f.close then
      endTowsOf { s with harbour := { s.harbour with
        towlines := tabUpd s.harbour.towlines t (fun x => { x with st := .peerClosing }) } } t (statusCode .retry)
    else s

/-- DATA (R102). -/
def execData (f : Frame) (s : State) : Host.Outcome State Fault Refusal :=
  match receive s 0x10 true f with
  | (s, none) => concludeSeq s
  | (s, some l) => concludeSeq (acceptSequenced s l f false (deliverOn l))

/-- ACK (R103): it consumes no sequence number; with ACK_NOW it is acknowledged at once. -/
def execAck (f : Frame) (s : State) : Host.Outcome State Fault Refusal :=
  match receive s 0x11 false f with
  | (s, none) => concludeSeq s
  | (s, some l) => concludeSeq (if f.head.flags.getLsbD 10 then sendAck s l else s)

/-- CLOSE (R113): delivered in order, it puts the mooring in state CLOSING. -/
def execClose (f : Frame) (s : State) : Host.Outcome State Fault Refusal :=
  match receive s 0x12 true f with
  | (s, none) => concludeSeq s
  | (s, some l) => concludeSeq (acceptSequenced s l f true (deliverOn l))

/-- A CLOSING mooring has nothing left to finish (R113). -/
def closable (s : State) (m : Mooring) : Bool :=
  m.st == .closing && m.tp.unacked.isEmpty && m.tp.sendQueue.isEmpty &&
    m.berths.all (fun n => match berthOf s n with
      | some b => b.tags.isEmpty && b.cq.isEmpty && b.cqWait.isEmpty && b.sq.isEmpty && b.asm.isNone
      | none => true)

/-- A towline whose peer has closed it has nothing left to finish. -/
def towlineClosable (s : State) (t : Nat) (x : Towline) : Bool :=
  x.st == .peerClosing && x.tp.unacked.isEmpty && x.tp.sendQueue.isEmpty && !s.harbour.towIns.any (fun y => y.towline == t)

/-- A towline ends in good order (R439): its slots are erased and its ID is free. -/
def freeTowline (s : State) (t : Nat) (x : Towline) : State :=
  let s := freeSlot (freeSlot s x.sendSlot) x.recvSlot
  raise { s with harbour := { s.harbour with towlines := tabErase s.harbour.towlines t } } 0x0D 4

/-- CLOSED (R113, R439): the frame is sent, the slots are erased and the ID is freed; for a mooring MOORING_CLOSED is written,
and its berths are freed with it. -/
def execClosed (l : Line) (s : State) : Host.Outcome State Fault Refusal :=
  match l with
  | .towline t => (match tabGet s.harbour.towlines t with
    | none => conclude s
    | some x =>
      if towlineClosable s t x then
        conclude (freeTowline (sendTagged s l 0x13 0 x.tp.sendSeq false false []) t x)
      else conclude s)
  | .mooring id => (match mooringOf s id with
    | none => conclude s
    | some m =>
      if closable s m then
        let s := sendTagged s l 0x13 0 m.tp.sendSeq false false []
        let s := logRecord s 0x0030 (src 12 0) false (leBytes id 2 ++ leBytes m.role 1 ++ [0] ++ leBytes m.subject 8)
        concludeSeq (freeMooring (releaseOwned s id) id m)
      else conclude s)

/-! ### Address resolution and echo (R86) -/

/-- ARP_REQUEST (R86). -/
def execArpRequest (rx : Rx) (target : Nat) (s : State) : Host.Outcome State Fault Refusal :=
  let s := arrive s rx
  let addr := ipv4Of s rx.port
  if !rx.fcsOk || decide (9216 < rx.size) then conclude (discard s rx.port 0)
  else if !vlanOk s rx then conclude (discard s rx.port 1)
  else if rx.ether = .other then conclude (discard s rx.port 2)
  else if rx.ether = .arp ∧ addr ≠ 0 ∧ target = addr ∧ bit (regGet s (npAddr rx.port A.NP_IP_CTRL)) 1 then
    let e := { replyTo s rx false 0 0 (arpReplyBytes (portMac s rx.port) addr rx.ethSrc rx.ipSrc) with proto := 0, ipSrc := addr }
    conclude (emitOn (countAccepted s rx.port) rx.port e (.arpReply rx.port rx.ethSrc rx.ipSrc))
  else conclude s

/-- An IPv6 address is one of the port's two (R86). -/
def ownsIpv6 (s : State) (p : Port) (addr : Nat) : Bool :=
  match destOf s p true addr with
  | .own | .linkLocal => true
  | .harbourGroup | .other => false

/-- NEIGHBOUR_SOLICITATION (R86). -/
def execNeighbourSolicitation (rx : Rx) (target : Nat) (s : State) : Host.Outcome State Fault Refusal :=
  let s := arrive s rx
  if !rx.fcsOk || decide (9216 < rx.size) then conclude (discard s rx.port 0)
  else if !vlanOk s rx then conclude (discard s rx.port 1)
  else if rx.ether = .other then conclude (discard s rx.port 2)
  else if !rx.ipHeaderOk || rx.fragment || !bit (regGet s (npAddr rx.port A.NP_IP_CTRL)) 0 then
    conclude (discard s rx.port 3)
  else if rx.ether = .ipv6 ∧ ownsIpv6 s rx.port target then
    let e := { replyTo s rx false 0 0 (neighbourBytes (portMac s rx.port) target) with proto := 58, ipSrc := target }
    conclude (emitOn (countAccepted s rx.port) rx.port e (.neighbourAdvert rx.port rx.ethSrc rx.ipSrc))
  else conclude s

/-- ECHO_REQUEST (R86): at most 100 answers a second on a port. DESIGN CHOICE (log 156): the limit is counted over each whole
second of session time. -/
def execEchoRequest (echo : EchoRequest) (s : State) : Host.Outcome State Fault Refusal :=
  let rx := echo.rx
  let s := arrive s rx
  match ipCheck s rx (if rx.ether = .ipv6 then [58] else [1]) with
  | some k => conclude (discard s rx.port k)
  | none =>
    let s := countAccepted s rx.port
    let l := linkOf s rx.port
    let now := s.sessionUs / 1000000
    let n := if l.echoSecond = now then l.echoCount else 0
    if 100 ≤ n ∨ ¬linkUp s rx.port then conclude s
    else
      let s := setLink s rx.port { l with echoSecond := now, echoCount := n + 1 }
      let v6 := rx.ether == .ipv6
      let e := { replyTo s rx false 0 0 (echoBytes v6 echo.message) with proto := if v6 then 58 else 1 }
      conclude (emitOn s rx.port e (.echoReply rx.port rx.ethSrc rx.ipSrc))

/-! ### Handshakes (R95 to R100, R437) -/

/-- The handshake of a source address, port and HOST_RANDOM. -/
def handshakeOf (s : State) (ipSrc udp random : Nat) : Option Handshake :=
  s.handshakes.find? (fun h => h.ipSrc == ipSrc && h.udpPort == udp && h.random == random)

/-- Drop a handshake: its keys and draws are erased. -/
def dropHandshake (s : State) (h : Handshake) : State := { s with handshakes := s.handshakes.filter (fun x => x != h) }

/-- Towlines held or half open, which count against the 255 (R438). -/
def towlinesHeld (s : State) : Nat := s.harbour.towlines.length + (s.handshakes.filter Handshake.towline).length

/-- A HELLO's fields lie in their ranges (R97, R437). -/
def helloRange (b : HelloBody) (towline : Bool) : Bool :=
  (if towline then b.berths == 1 && b.reserved % 65536 == 0 else inRange b.berths 1 16 && b.reserved == 0) &&
    decide (b.hflags < 2) && inRange b.maxPayload 1024 9088

/-- The status with which step 1 refuses a HELLO, if it does. -/
def helloStatus (s : State) (b : HelloBody) (towline : Bool) : Option Status :=
  if !helloRange b towline then some .range
  else if !b.onCurve then some .auth
  else if towline then
    if !bit (regGet s A.HB_CTRL) 2 || !(harbourId s).1 || s.flash.harbourCert.isNone then some .state
    else if 255 ≤ towlinesHeld s then some .tableFull
    else none
  else if 4096 ≤ s.moorings.length then some .tableFull
  else none

/-- The envelope of an answer in a handshake. -/
def handshakeReply (s : State) (rx : Rx) (flow : Nat) (payload : List Byte) : Envelope :=
  if onTowPort s rx then harbourEnvelope s rx.port rx.ethSrc rx.ipSrc rx.dstUdpPort false payload
  else replyTo s rx true flow rx.dstUdpPort payload

/-- The certificate that the drive presents (R96, R437): on a towline the harbour certificate, else the installed drive
certificate, else the self-signed one. -/
def presentedCert (s : State) (towline : Bool) : List Byte :=
  if towline then (s.flash.harbourCert.map Cert.bytes).getD []
  else match s.flash.driveCert with
    | some c => c.bytes
    | none => selfSignedCert s.boot.keyStore.dik

/-- th1 of a held handshake. -/
def Handshake.th1 (h : Handshake) : List Byte := thOne h.hello (welcomeClear h.draw)

/-- hs of a held handshake. -/
def Handshake.hs (h : Handshake) : List Byte :=
  handshakeSecret (beBytes h.hello.random 32) (randomOf h.draw) (Config.sharedSecret h.draw h.hello.ephemeral)

/-- DRIVE_SIG of a held handshake. -/
def Handshake.driveSig (h : Handshake) (dik : Nat) : List Byte := identitySign dik "FLT-D" (h.th1 ++ h.cert)

/-- The key under which the drive seals its part of a handshake. -/
def Handshake.driveKey (h : Handshake) : List Byte := handshakeKey h.hs h.th1 false

/-- WINDOW of the drive's frames in a handshake: DESIGN CHOICE (log 157), MO_RECV_WINDOW. -/
def helloWindow (s : State) : Nat := fieldOf s A.MO_RECV_WINDOW 12 0

/-- The WELCOME of a held handshake, with its UDP payload (R92, R97, step 2): the certificate and DRIVE_SIG are sealed under the
handshake key, and the header with the cleartext part is the additional data. -/
def welcomeOf (s : State) (h : Handshake) : Output × List Byte :=
  let clear := welcomeClear h.draw
  let sig := h.driveSig s.boot.keyStore.dik
  (.welcome h.port h.ipSrc h.udpPort h.random h.draw (!h.towline && s.flash.driveCert.isNone) h.cert sig h.sendCtr,
   sealedFrame h.driveKey 0 (handshakeHead 2 552 (helloWindow s) h.sendCtr) clear (h.cert ++ sig))

/-- Send the WELCOME of a held handshake: its next frame under the handshake key. -/
def sendWelcome (s : State) (rx : Rx) (h : Handshake) : State :=
  let g := { h with sendCtr := h.sendCtr + 1 }
  let s := { s with handshakes := s.handshakes.map (fun x => if x = h then g else x) }
  let (o, bytes) := welcomeOf s g
  emitOn s rx.port (handshakeReply s rx 0 bytes) o

/-- An answer is remembered for MO_HS_TMO from its HELLO (R97, R100). -/
def remembered (s : State) (a : Answered) : Bool := decide (s.sessionUs < a.helloAt + 1000 * fieldOf s A.MO_HS_TMO 15 0)

/-- The answers to the frames of an ended handshake. -/
def answeredOf (s : State) (ipSrc udp random : Nat) : Option Answered :=
  s.answered.find? (fun a => a.ipSrc == ipSrc && a.udpPort == udp && a.random == random && remembered s a)

/-- Keep the answers to an ended handshake. -/
def keepAnswer (s : State) (a : Answered) : State := { s with answered := s.answered.filter (remembered s) ++ [a] }

/-- Answer a HOST_AUTH: the handshake is held no longer, and the answers are kept for a repeated frame (R97); the ephemeral key
and the handshake keys are not (R98). -/
def answerAuth (s : State) (rx : Rx) (h : Handshake) (flow : Nat) (o : Output) (bytes : List Byte) : State :=
  let a : Answered := { ipSrc := h.ipSrc, udpPort := h.udpPort, random := h.random, helloAt := h.helloAt, hello := welcomeOf s h,
                        auth := some (o, bytes) }
  emitOn (keepAnswer s a) rx.port (handshakeReply s rx flow bytes) o

/-- The flow label of an answer (R85). -/
def answerFlow : Output → Nat
  | .moored _ id _ _ _ _ _ => id
  | _ => 0

/-- Send REFUSE (R97): its answer and its UDP payload. -/
def refuseOf (rx : Rx) (random : Nat) (st : Status) (us : Nat) : Output × List Byte :=
  (.refuse rx.port rx.ipSrc rx.srcUdpPort random (statusCode st) us, clearFrame 5 (refusePayload (statusCode st) us))

/-- RETRY_US of a refusal that a retry may overcome: a free value, never zero. -/
def retryHint (s : State) : Nat := Config.retryUs s.freeN s.boardUs 0 % (2 ^ 32 - 1) + 1

/-- RETRY_US (R97): zero when a retry would not help; a full table may empty. -/
def tableHint (s : State) (st : Status) : Nat := if st = .tableFull then retryHint s else 0

/-- A HELLO is refused before the drive answers handshakes, or while it holds none. -/
def sendRefuse (s : State) (rx : Rx) (random : Nat) (st : Status) (us : Nat) : State :=
  let a := refuseOf rx random st us
  emitOn s rx.port (handshakeReply s rx 0 a.2) a.1

/-- A HELLO that is refused at step 1 of R97: the answer is kept for a repeated one. -/
def refuseHello (s : State) (rx : Rx) (random : Nat) (st : Status) : State :=
  let us := tableHint s st
  let s := discard { s with freeN := s.freeN + flag (st == .tableFull) } rx.port 9
  let s := if st = .tableFull then raise s 0x0C 2 else s
  let a : Answered := { ipSrc := rx.ipSrc, udpPort := rx.srcUdpPort, random := random, helloAt := s.sessionUs,
                        hello := refuseOf rx random st us, auth := none }
  sendRefuse (keepAnswer s a) rx random st us

/-- The handshake that a good HELLO begins. -/
def handshakeFrom (s : State) (rx : Rx) (body : HelloBody) (towline : Bool) : Handshake :=
  { ipSrc := rx.ipSrc, udpPort := rx.srcUdpPort, random := body.random, port := rx.port, ethSrc := rx.ethSrc,
    ipv6 := rx.ether == .ipv6, ipDst := rx.ipDst, helloAt := s.sessionUs, berths := body.berths,
    ecn := body.hflags % 2 == 1 && bit (regGet s (npAddr rx.port A.NP_IP_CTRL)) 2, maxPayload := body.maxPayload,
    towline := towline, towId := body.reserved / 65536, draw := s.draws, hello := body, cert := presentedCert s towline,
    sendCtr := 0 }

/-- HELLO (R97, R100, R386): a repeated one gets its previous answer. -/
def execHello (rx : Rx) (head : Head) (body : HelloBody) (s : State) : Host.Outcome State Fault Refusal :=
  let s := arrive s rx
  match frameCheck s rx head 1 136 with
  | some k => conclude (discard s rx.port k)
  | none =>
    let towline := onTowPort s rx
    if !answersHello s rx.port then
      conclude (sendRefuse { s with freeN := s.freeN + 1 } rx body.random .state (retryHint s))
    else if 3 ≤ s.phase then conclude (sendRefuse s rx body.random .state 0)
    else if s.cipher.meshTripped then conclude (sendRefuse s rx body.random .keyLost 0)
    else if s.cipher.entropyFailed ∨ s.cipher.alarm = .settle then conclude (sendRefuse s rx body.random .state 0)
    else match handshakeOf s rx.ipSrc rx.srcUdpPort body.random, answeredOf s rx.ipSrc rx.srcUdpPort body.random with
      | some h, _ => conclude (sendWelcome (countAccepted s rx.port) rx h)
      | none, some a => conclude (emitOn (countAccepted s rx.port) rx.port (handshakeReply s rx 0 a.hello.2) a.hello.1)
      | none, none =>
        if 64 ≤ s.handshakes.length then conclude (discard s rx.port 9)
        else match helloStatus s body towline with
          | some st => conclude (refuseHello s rx body.random st)
          | none =>
            let h := handshakeFrom s rx body towline
            let s := countAccepted { s with handshakes := s.handshakes ++ [h], draws := s.draws + 1 } rx.port
            conclude (sendWelcome s rx h)

/-- GENERATION of a certificate, by the leaf's role. -/
def certNew (s : State) (role : Nat) (c : Cert) : Bool :=
  decide ((regGet s (A.MO_CERT_GEN_MIN + 4 * (role - 1))).toNat ≤ c.generation)

/-- Check 6 of R95 for one certificate, by the leaf's role. -/
def certCurrent (s : State) (role : Nat) (c : Cert) : Bool :=
  certNew s role c && (c.serial == 0 || c.serial == s.flash.otp.serial)

/-- The checks of R95 on a chain of a leaf with the certificates before it; roles 1 to 3, or 4 on a towline. -/
def chainOk (s : State) (certs : List Cert) (towline : Bool) : Bool :=
  let form := certs.all (fun c => c.format == 0x46434331 && c.reservedZero && c.sigOk)
  match certs with
  | [leaf] =>
    form && leaf.depth == 0 && (enabledRoots s).any (fun r => r.2 == leaf.issuerKey) &&
      (if towline then leaf.role == 4 && certNew s 4 leaf else inRange leaf.role 1 3 && certCurrent s leaf.role leaf)
  | [mid, leaf] =>
    form && !towline && leaf.depth == 0 && mid.depth == 1 && mid.role == leaf.role && mid.subjectKey == leaf.issuerKey &&
      (enabledRoots s).any (fun r => r.2 == mid.issuerKey) && inRange leaf.role 1 3 && certCurrent s leaf.role leaf &&
      certCurrent s leaf.role mid
  | _ => false

/-- The peer of a towline is PRESENT at its address, under the serial of its certificate (R437). -/
def peerOf (s : State) (address serial : Nat) : Option Nat :=
  (s.harbour.members.find? (fun p => p.2.address == address && p.2.st == .present && p.2.serial == serial)).map Prod.fst

/-- The 64-byte capability reply (R112). -/
def capability (s : State) (maxPayload granted recvWindow : Nat) : List Byte :=
  let id := harbourId s
  beBytes 2 2 ++ beBytes 0x9256 2 ++ beBytes (regWord s false A.SY_FW_VERSION).toNat 4 ++ beBytes s.flash.otp.serial 8 ++
    beBytes maxPayload 2 ++ beBytes 1024 2 ++ beBytes 1024 2 ++ beBytes 64 2 ++ beBytes 0x04000000 4 ++ beBytes 4096 2 ++
    beBytes granted 2 ++ beBytes 10 4 ++ beBytes 50 4 ++ beBytes 2000 4 ++ beBytes 400000 4 ++
    beBytes (fieldOf s A.SY_PWR_CTRL 2 0) 1 ++ beBytes s.mode.cur 1 ++
    beBytes (if linkUp s .a then s.linkA.lanes else 0) 1 ++ beBytes (if linkUp s .b then s.linkB.lanes else 0) 1 ++
    beBytes recvWindow 4 ++ beBytes (if id.1 then id.2.2 else 0) 2 ++ beBytes (bits (regWord s false A.CP_LINEAGE) 0 0) 1 ++
    zeroBytes 5

/-- Berths for a mooring, the lowest free numbers (R99). -/
def takeBerths (mooring : Nat) : Nat → Nat → State → Option (State × List Nat)
  | 0, _, s => some (s, [])
  | k + 1, i, s =>
    match freeKey s.berths 16384 with
    | none => none
    | some n =>
      let s := { s with berths := tabPut s.berths n (Berth.fresh i mooring s.sessionUs) }
      (takeBerths mooring k (i + 1) s).map (fun r => (r.1, n :: r.2))

/-- A receive slot and a send slot, the lowest free ones, with the traffic secrets of the two directions. -/
def takeSlots (s : State) (owner : Nat) (send recv : List Byte) : Option (State × Nat × Nat) :=
  match lowestSlot s with
  | none => none
  | some r =>
    let s := putSlot s r 3 owner (.secret recv) 0
    match lowestSlot s with
    | none => none
    | some k => some (putSlot s k 2 owner (.secret send) 0, r, k)

/-- The traffic secrets of a handshake whose HOST_AUTH has passed (R98): of the drive's direction, and of the host's. -/
def Handshake.secrets (h : Handshake) (dik : Nat) (body : AuthBody) : List Byte × List Byte :=
  let th3 := thThree h.th1 h.cert (h.driveSig dik) (body.certs.flatMap Cert.bytes) body.hostSig
  (trafficSecret h.hs th3 false, trafficSecret h.hs th3 true)

/-- The transport of a line that a handshake opens. -/
def openTransport (s : State) (h : Handshake) (window : Nat) : Transport :=
  let path : Path := { port := h.port, ethSrc := h.ethSrc, ipSrc := h.ipSrc, ipv6 := h.ipv6, ipDst := h.ipDst,
                       seq := 0 }
  Transport.fresh path h.maxPayload (fieldOf s A.MO_RECV_WINDOW 12 0) (seqAdd 1 window) s.sessionUs h.ecn

/-- Allocate a mooring whole, or nothing (R99). -/
def openMooring (s : State) (h : Handshake) (body : AuthBody) (window : Nat) : Option (State × Nat) :=
  match body.certs.getLast?, freeKey s.moorings 4096 with
  | none, _ => none
  | _, none => none
  | some leaf, some id =>
    match takeSlots s id (h.secrets s.boot.keyStore.dik body).1 (h.secrets s.boot.keyStore.dik body).2 with
    | none => none
    | some (t, recv, send) =>
      (takeBerths id h.berths 0 t).map (fun r =>
        let m : Mooring := { st := .moored, role := leaf.role, subject := leaf.subject,
                             generation := (listMin? (body.certs.map Cert.generation)).getD 0,
                             sendSlot := send, recvSlot := recv, berths := r.2, tp := openTransport s h window, cause := 0,
                             goneSent := false, discarded := [], finals := [] }
        ({ r.1 with moorings := tabPut r.1.moorings id m }, id))

/-- Allocate a towline at its destination (R437, R438). -/
def acceptTowline (s : State) (h : Handshake) (body : AuthBody) (window peerId : Nat) : Option (State × Nat) :=
  match if towlinesHeld s < 255 then freeKey s.harbour.towlines 255 else none with
  | none => none
  | some id =>
    (takeSlots s id (h.secrets s.boot.keyStore.dik body).1 (h.secrets s.boot.keyStore.dik body).2).map (fun r =>
      let x : Towline := { st := .open, source := false, peer := h.towId, peerId := peerId, sendSlot := r.2.2,
                           recvSlot := r.2.1, lastUse := s.sessionUs, tp := openTransport s h window,
                           hello := h.hello, draw := h.draw, secrets := ([], []) }
      (raise { r.1 with harbour := { r.1.harbour with towlines := tabPut r.1.harbour.towlines id x } } 0x0D 3, id))

/-- A frame of the drive's under the handshake key (R92), after those it has sent. -/
def sealedAnswer (s : State) (h : Handshake) (typ : Nat) (plain : List Byte) : List Byte :=
  sealedFrame h.driveKey 0 (handshakeHead typ plain.length (helloWindow s) (h.sendCtr + 1)) [] plain

/-- The MOORED that opens a mooring, with its UDP payload (R97, step 4). -/
def mooredFrame (s : State) (h : Handshake) (id : Nat) (m : Mooring) : Output × List Byte :=
  let cap := capability s m.tp.maxPayload m.berths.length m.tp.recvWindow
  let berths := m.berths ++ List.replicate (16 - m.berths.length) 0xFFFF
  (.moored m.tp.path.port id m.berths.length (sendDomain m.sendSlot) berths cap (h.sendCtr + 1),
   sealedAnswer s h 4 (mooredPayload id m.berths.length (sendDomain m.sendSlot) berths cap))

/-- The MOORED that opens a towline at its destination (R437): the ID, and no berths. -/
def towMooredFrame (s : State) (h : Handshake) (id slot : Nat) : Output × List Byte :=
  let cap := capability s h.maxPayload 0 (helloWindow s)
  (.towHandshake 4 h.port id h.towId,
   sealedAnswer s h 4 (mooredPayload id 0 (sendDomain slot) (List.replicate 16 0xFFFF) cap))

/-- HOST_AUTH of a held handshake is refused (R97): it is held no longer, and no resource is taken. -/
def refuseAuth (s : State) (rx : Rx) (h : Handshake) (st : Status) : State :=
  let us := tableHint s st
  let s := discard { s with freeN := s.freeN + flag (st == .tableFull) } rx.port 9
  let s : State := if h.towline then s else if st = .tableFull then raise s 0x0C 2 else raise s 0x0C 3
  answerAuth s rx h 0 (.refuseSealed rx.port h.ipSrc h.udpPort h.random (statusCode st) us (h.sendCtr + 1))
    (sealedAnswer s h 6 (refusePayload (statusCode st) us))

/-- HOST_AUTH of a towline at its destination (R437): the source's certificate names the serial of a PRESENT peer. -/
def authTowline (s : State) (rx : Rx) (h : Handshake) (window : Nat) (body : AuthBody) : State :=
  match peerOf s h.ipSrc ((body.certs.head?.map Cert.serial).getD 0) with
  | none => refuseAuth s rx h .auth
  | some peer =>
    match acceptTowline s h body window peer with
    | none => refuseAuth s rx h .tableFull
    | some (s, id) =>
      let a := towMooredFrame s h id (sendSlotOf s (.towline id))
      answerAuth (countAccepted s rx.port) rx h 0 a.1 a.2

/-- HOST_AUTH of a mooring (R99). -/
def authMooring (s : State) (rx : Rx) (h : Handshake) (window : Nat) (body : AuthBody) : State :=
  match openMooring s h body window with
  | none => refuseAuth s rx h .tableFull
  | some (s, id) =>
    match mooringOf s id with
    | none => s
    | some m =>
      let a := mooredFrame s h id m
      raise (answerAuth (countAccepted s rx.port) rx h id a.1 a.2) 0x0C 0

/-- HOST_AUTH (R95, R97, R99): a repeated one is answered as before. -/
def execHostAuth (f : Frame) (random : Nat) (body : AuthBody) (s : State) : Host.Outcome State Fault Refusal :=
  let s := arrive s f.rx
  let p := f.rx.port
  match frameCheck s f.rx f.head 3 (100 + 324 * body.certs.length) with
  | some k => conclude (discard s p k)
  | none =>
    match handshakeOf s f.rx.ipSrc f.rx.srcUdpPort random with
    | none =>
      (match (answeredOf s f.rx.ipSrc f.rx.srcUdpPort random).bind Answered.auth with
      | none => conclude (discard s p 9)
      | some a =>
        if f.tag ≠ .current then conclude (tagFailure s p)
        else conclude (emitOn (countAccepted s p) p (handshakeReply s f.rx (answerFlow a.1) a.2) a.1))
    | some h =>
      if f.tag ≠ .current then conclude (tagFailure s p)
      else
        let s := dropHandshake s h
        let h := { h with port := p, ethSrc := f.rx.ethSrc, ipv6 := f.rx.ether == .ipv6, ipDst := f.rx.ipDst }
        if body.certCount ≠ body.certs.length ∨ body.reserved ≠ 0 ∨ ¬chainOk s body.certs h.towline ∨ ¬body.hostSigOk then
          conclude (refuseAuth s f.rx h .auth)
        else if h.towline then conclude (authTowline s f.rx h f.head.window body)
        else conclude (authMooring s f.rx h f.head.window body)

/-- HANDSHAKE_TIMEOUT (R100). -/
def execHandshakeTimeout (ipSrc udpPort random : Nat) (s : State) : Host.Outcome State Fault Refusal :=
  match handshakeOf s ipSrc udpPort random with
  | none => conclude s
  | some h =>
    if h.helloAt + 1000 * fieldOf s A.MO_HS_TMO 15 0 ≤ s.sessionUs then conclude (dropHandshake s h) else conclude s

/-! ### Timers of a line -/

/-- A line ends for a cause (R114, R439): a towline has no tags, so nothing is recorded for it. -/
def teardownLine (s : State) (l : Line) (cause : Nat) : State :=
  match l with
  | .mooring id => teardown s id cause
  | .towline t =>
    match tabGet s.harbour.towlines t with
    | none => s
    | some x =>
      let s := if cause = 7 ∨ ¬towlineUp x then s else sendTagged s l 0x14 0 x.tp.sendSeq false false [BitVec.ofNat 8 cause]
      let s := freeSlot (freeSlot s x.sendSlot) x.recvSlot
      let s := if towlineUp x then raise s 0x0D 4 else s
      let ins := s.harbour.towIns.map (fun y => if y.towline = t then { y with towline := 255 } else y)
      endTowsOf { s with harbour := { s.harbour with towlines := tabErase s.harbour.towlines t, towIns := ins } } t
        (statusCode .retry)

/-- The line carries tagged frames: the mooring has not been torn down; the towline's handshake has ended. -/
def lineUp (s : State) : Line → Bool
  | .mooring m => match mooringOf s m with
    | some x => x.st != .tearingDown
    | none => false
  | .towline t => match tabGet s.harbour.towlines t with
    | some x => towlineUp x
    | none => false

/-- ACK_DELAY_EXPIRY (R103). -/
def execAckDelayExpiry (l : Line) (s : State) : Host.Outcome State Fault Refusal :=
  match tpOf s l with
  | none => conclude s
  | some t => if lineUp s l ∧ 0 < t.ackPending ∧ t.ackSince + 20 ≤ s.sessionUs then conclude (sendAck s l) else conclude s

/-- RETRANSMISSION_TIMEOUT (R104, R105): the frame is sent again, the timeout doubles and the window falls to 2; the 12th
expiry in a row ends the line. -/
def execRetransmissionTimeout (l : Line) (seq : Nat) (s : State) : Host.Outcome State Fault Refusal :=
  match tpOf s l with
  | none => conclude s
  | some t =>
    match t.unacked.find? (fun f => f.seq == seq && !f.sacked && decide (f.sentAt + t.rtoUs ≤ s.sessionUs)) with
    | none => conclude s
    | some f =>
      if 11 ≤ f.expiries then concludeSeq (teardownLine s l 2)
      else
        let expire := fun (g : TxFrame) => if g.seq = seq then { g with expiries := g.expiries + 1 } else g
        let rto := min 100000 (2 * t.rtoUs)
        let s := updTp s l (fun t => { t with rtoUs := rto, cwnd := 2, cwndAcked := 0, unacked := t.unacked.map expire })
        conclude (resend s l seq)

/-- IDLE_ACK (R106). -/
def execIdleAck (l : Line) (s : State) : Host.Outcome State Fault Refusal :=
  match tpOf s l with
  | none => conclude s
  | some t => if lineUp s l ∧ t.lastTx + 2500000 ≤ s.sessionUs then conclude (sendAck s l) else conclude s

/-- IDLE_TIMEOUT (R106). -/
def execIdleTimeout (l : Line) (s : State) : Host.Outcome State Fault Refusal :=
  match tpOf s l with
  | none => conclude s
  | some t =>
    if t.lastRx + 1000000 * fieldOf s A.MO_IDLE_TMO 15 0 ≤ s.sessionUs then concludeSeq (teardownLine s l 1)
    else conclude s

/-- TEARDOWN_COMPLETE (R114, steps 5 and 6). -/
def execTeardownComplete (mooring : Nat) (s : State) : Host.Outcome State Fault Refusal :=
  match mooringOf s mooring with
  | none => conclude s
  | some m =>
    if m.st = .tearingDown ∧ mooringDrained s m then conclude (freeMooring (mooringLost s mooring m) mooring m)
    else conclude s

/-- OLD_EPOCH_RELEASE (R101): every SEQ sent under the old epoch has been received, or 100 ms have passed. -/
def execOldEpochRelease (l : Line) (s : State) : Host.Outcome State Fault Refusal :=
  match tpOf s l with
  | none => conclude s
  | some t =>
    match t.oldEpoch with
    | none => conclude s
    | some (since, first) =>
      if since + 100000 ≤ s.sessionUs ∨ ¬seqLt t.recvAck first then
        conclude (updTp (updSlot s (recvSlotOf s l) (fun x => { x with shadows := [] })) l
          (fun t => { t with oldEpoch := none }))
      else conclude s

/-- REKEY_REFUSAL_TIMEOUT (R101): the receive slot has refused a new epoch for 100 ms. -/
def execRekeyRefusalTimeout (l : Line) (s : State) : Host.Outcome State Fault Refusal :=
  match tpOf s l with
  | none => conclude s
  | some t =>
    match t.rekeyRefusedSince with
    | none => conclude s
    | some since => if since + 100000 ≤ s.sessionUs then concludeSeq (teardownLine s l 8) else conclude s

/-- DRIVE_REKEY (R101): after 2^30 frames under one key. While the slot refuses the drive retries, and a refusal that persists for
100 ms tears the line down with cause 0x08. -/
def execDriveRekey (l : Line) (s : State) : Host.Outcome State Fault Refusal :=
  match tpOf s l with
  | none => conclude s
  | some t =>
    if t.framesUnderKey < 2 ^ 30 then conclude s
    else match rekeySend s l (sendSlotOf s l) with
      | some s => conclude s
      | none =>
        let since := t.sendRefusedSince.getD s.sessionUs
        if since + 100000 ≤ s.sessionUs then concludeSeq (teardownLine s l 8)
        else conclude (updTp s l (fun t => { t with sendRefusedSince := some since }))

/-! ### Links (R81, R82) -/

/-- LINK_DETECT (R82). -/
def execLinkDetect (p : Port) (s : State) : Host.Outcome State Fault Refusal :=
  let l := linkOf s p
  if l.phase = .detect ∧ portUsable s p then conclude (setLink s p { l with phase := .autoneg }) else conclude s

/-- The modes that a port advertises (R81, R82), by lane count and from the highest: each allowed, with a lane set that avoids
every failed lane, and not given up since the link was last lost. -/
def advertised (s : State) (p : Port) : List Nat :=
  [4, 2, 1].filter (fun k => modeUsable s p k && !(linkOf s p).dropped.contains k)

/-- AUTONEGOTIATION (R81, R82): with the modes that the peer advertises, the highest that both ends advertise is used; with none
in 500 ms bring-up begins again. -/
def execAutonegotiation (p : Port) (peer : List Nat) (s : State) : Host.Outcome State Fault Refusal :=
  let l := linkOf s p
  if l.phase ≠ .autoneg then conclude s
  else match (advertised s p).find? (fun k => peer.contains k) with
    | none => conclude (setLink s p { l with phase := .detect })
    | some k => conclude (setLink s p { l with phase := .training, tryLanes := k, trainFails := 0 })

/-- TRAINING (R82). -/
def execTraining (p : Port) (ok : Bool) (s : State) : Host.Outcome State Fault Refusal :=
  let l := linkOf s p
  if l.phase ≠ .training then conclude s
  else if ok then conclude (setLink s p { l with phase := .fecLock })
  else if 2 ≤ l.trainFails then
    conclude (setLink s p { l with phase := .autoneg, trainFails := 0, dropped := l.tryLanes :: l.dropped })
  else conclude (setLink s p { l with trainFails := l.trainFails + 1 })

/-- FEC_LOCK (R82): the link comes up; without lock in 10 ms bring-up begins again. -/
def execFecLock (p : Port) (ok : Bool) (s : State) : Host.Outcome State Fault Refusal :=
  let l := linkOf s p
  if l.phase ≠ .fecLock then conclude s
  else if ok then
    let first := (laneSet l l.tryLanes).getD 0
    let s := setLink s p { l with phase := .up, lanes := l.tryLanes, firstLane := first, lastLanes := l.tryLanes }
    let s := raise s (portPage p) 0
    conclude (if l.lastLanes = l.tryLanes then s else raise s (portPage p) 3)
  else conclude (setLink s p { l with phase := .detect })

/-- LINK_LOST (R82, row 3 of R382). -/
def execLinkLost (p : Port) (lane : Option Nat) (s : State) : Host.Outcome State Fault Refusal :=
  if (linkOf s p).phase ≠ .up then conclude s
  else match lane with
    | none => conclude (linkDown s p)
    | some k =>
      let (s, lasting) := faultOccur s 3 (4 * portNum p + k) 0
      let s : State := if lasting then
          raise (setLink s p { linkOf s p with laneFailed := k :: (linkOf s p).laneFailed }) (portPage p) 2
        else s
      conclude (linkDown s p)

/-- CAPSULE_FRAME_GAP_TIMEOUT (R66, R102): the capsule ends and its later frames are dropped. -/
def execCapsuleFrameGapTimeout (berth : Nat) (s : State) : Host.Outcome State Fault Refusal :=
  match berthOf s berth with
  | none => conclude s
  | some b =>
    match b.asm with
    | none => conclude s
    | some a =>
      if a.lastFrameAt + 1000 * fieldOf s A.BW_CAPSULE_TMO 15 0 ≤ s.sessionUs then
        conclude (updBerth (endPartial s berth b) berth (fun b => { b with rx := .dropping }))
      else conclude s

end Sys2Proof.Machine
end

