-- ==== Sys2Proof/Machine/Keys.lean ====
section
/-! DEFINITION. Commands on keys once they are admitted: mutations (R128 to R133, R156, R161 to R169, R345), their settling
(R31, R195, R207), reads (R159, R160, R164, R166, R349), SCAN pages (R170 to R172), EXPORT (R173), and the order of
commands that meet on a key or a window (R129, R171). -/

namespace Sys2Proof.Machine

/-! ### What a capsule asks -/

/-- The entry of a capsule that acts on its own key. -/
def ownOp (s : State) (c : Capsule) : KeyOp :=
  let change : KeyChange := if c.opcode = 0x03 then .delete else .put c.value
  let expected : Option Nat :=
    if c.opcode = 0x05 ∨ (c.opcode = 0x03 ∧ c.flags % 2 = 1) then some c.expVer else none
  { key := c.key, digest := digestOf s c.quay c.key, change := change, expected := expected }

/-- The entry that a BATCH entry asks for. -/
def batchOp (s : State) (quay : Nat) (e : BatchEntry) : KeyOp :=
  let change : KeyChange := if e.op = 1 then .put e.value else if e.op = 2 then .delete else .check
  { key := e.key, digest := digestOf s quay e.key, change := change,
    expected := if entryConditional e then some e.expVer else none }

/-- The entries of a mutation. -/
def opsOf (s : State) (c : Capsule) : List KeyOp :=
  if c.opcode = 0x06 then (entriesOf c).1.map (batchOp s c.quay) else [ownOp s c]

/-- Segments that an entry writes (R159, R345). -/
def opSegments (o : KeyOp) : Nat := match o.change with
  | .put v => segments v.length
  | _ => 0

/-- Bytes of segment `k` of a value of `n`. -/
def segmentLen (n k : Nat) : Nat := min 65536 (n - 65536 * k)

/-- Plain bytes of each segment that an entry encrypts. -/
def opPieces (o : KeyOp) : List Nat := match o.change with
  | .put v => (List.range (segments v.length)).map (segmentLen v.length)
  | _ => []

/-- Units of the record that an entry lands (R269). -/
def opUnits (o : KeyOp) : Nat := match o.change with
  | .put v => recordUnits o.key.length (some v.length)
  | _ => recordUnits o.key.length none

/-! ### Invocation counters (R344, R345) -/

/-- `n` invocations of a slot are reserved: none when the limit of 2^48 stands against it. The chunk that the reservation
reaches is recorded in the key record before it is used. -/
def reserveCounter (s : State) (slot n : Nat) : Option State :=
  match slotOf s slot with
  | none => some s
  | some x =>
    if 2 ^ 48 < x.ctr + n then none
    else
      let ctr := x.ctr + n
      let chunk := max x.chunk (ctr / 2 ^ 20 * 2 ^ 20)
      let t := updSlot s slot (fun x => { x with ctr := ctr, chunk := chunk })
      some (if chunk = x.chunk then t else saveKey t slot)

/-- The slot of a quay. -/
def quaySlot (s : State) (q : Nat) : Nat := match tabGet s.flash.quays q with
  | some y => y.slot
  | none => 65536

/-- The current epoch of a slot. -/
def slotEpoch (s : State) (k : Nat) : Nat := match slotOf s k with
  | some x => x.epoch
  | none => 0

/-! ### Waits -/

/-- A read of a key whose in-flight pair has lost both members waits (R221). -/
def pairLost (s : State) : Job → Bool
  | .get _ d _ _ => ((s.index.pairs.drop 2).map BankPair.dead).getD (pairOf d) false
  | .exist _ d => ((s.index.pairs.drop 2).map BankPair.dead).getD (pairOf d) false
  | .exportSegs _ d _ _ _ _ _ => ((s.index.pairs.drop 2).map BankPair.dead).getD (pairOf d) false
  | .scan _ _ _ _ _ => false
  | .write _ => false

/-- A posted write's in-flight entry has the word of a key of the command's without being its own: it causes a wait (R209). -/
def wordAhead (s : State) (c : Cmd) : Bool :=
  s.index.inflight.any (fun e => e.posted && e.quay == c.quay && decide (e.csn < c.csn) &&
    (jobKeys c.job).any (fun k => sameWord e.digest k.2 && !s.flash.items.any (fun i => i.csn == e.csn && i.key == k.1)))

/-- A command waits. -/
def blocked (s : State) (c : Cmd) : Bool := s.cmds.any (fun d => holdsBack d c) || wordAhead s c || pairLost s c.job

/-- Take a command off the list of those not complete; the frames that it read are released. -/
def dropCmd (s : State) (csn : Nat) : State := unpinLeaves { s with cmds := s.cmds.filter (fun c => c.csn != csn) } csn

/-- Change a command. -/
def updCmd (s : State) (csn : Nat) (f : Cmd → Cmd) : State :=
  { s with cmds := s.cmds.map (fun c => if c.csn = csn then f c else c) }

/-! ### Endings of a write -/

/-- TOW_ACK of a write admitted from a towline (R440, R443). -/
def towAckBytes (x : TowIn) (st : Status) (csn nonces : Nat) : List Byte :=
  beBytes 0x72 1 ++ [0] ++ beBytes (statusCode st) 2 ++ beBytes x.msgSeq 4 ++ beBytes csn 8 ++ beBytes nonces 4

/-- A write that came over a towline is answered there. -/
def answerTow (s : State) (csn : Nat) (st : Status) : State :=
  match s.harbour.towIns.find? (fun x => x.csn == csn) with
  | none => s
  | some x =>
    let s := { s with harbour := { s.harbour with towIns := s.harbour.towIns.filter (fun y => y.csn != csn) } }
    sendCapsule s (.towline x.towline) 0 none (towAckBytes x st csn (if st = .ok then x.segments else 0))

/-- A write's completion: on its berth, or on its towline. -/
def answerWrite (s : State) (cmd : Cmd) (c : Completion) (st : Status) : State :=
  answerTow (complete s cmd.berth c) cmd.csn st

/-- What an admitted mutation reserved is released (R129, R158, R195); `applied` tells whether its changes stand. -/
def releaseWrite (s : State) (cmd : Cmd) (applied : Bool) : State :=
  chainApply (inflightDrop (unreserve s cmd.quay cmd.granules cmd.keyCount) cmd.csn) cmd.csn applied

/-- A committed-mode write ends with no effect (R128). -/
def failWrite (s : State) (cmd : Cmd) (c : Completion) (st : Status) : State :=
  let s := { s with flash := { s.flash with items := s.flash.items.filter (fun i => i.csn != cmd.csn || i.pseq != 0) } }
  answerWrite (dropCmd (releaseWrite (dropPieces s cmd.csn) cmd false) cmd.csn) cmd c st

/-- The same, with a status alone. -/
def failPlain (s : State) (cmd : Cmd) (st : Status) : State :=
  failWrite s cmd (Completion.plain cmd.opcode cmd.tag st cmd.csn) st

/-- The completion of a write that succeeded (R155). -/
def writeOk (opcode tag csn : Nat) (versions : List Nat) : Completion :=
  let c := Completion.plain opcode tag .ok csn
  if opcode = 0x06 then
    { c with valueLen := 8 * versions.length, value := versions.flatMap (fun v => beBytes v 8) }
  else { c with version := versions.headD 0 }

/-- A key's later writes and reads: the keys and quay that a write touched are charged afresh. -/
def settleItems (s : State) (cmd : Cmd) : State :=
  let set := fun (i : Item) =>
    if i.csn = cmd.csn ∧ i.pseq = 0 then { i with settled := true, landed := true, durable := true, commit := true } else i
  recount { s with flash := { s.flash with items := s.flash.items.map set } } cmd.quay

/-- A write reaches its commit point (R31, R128): it settles, and the index takes its changes. -/
def commitWrite (s : State) (cmd : Cmd) : State :=
  let s := settleItems s cmd
  let s := releaseWrite s cmd true
  let mine := s.flash.items.filter (fun i => i.csn == cmd.csn && i.pseq == 0)
  let s := dropCmd (mine.foldl hotSettle s) cmd.csn
  answerWrite s cmd (writeOk cmd.opcode cmd.tag cmd.csn cmd.versions) .ok

/-! ### Results of a mutation -/

/-- The key's version just before CSN `c` (R156, R157). -/
def versionAt (s : State) (q : Nat) (key : List Byte) (c : Nat) : Nat := versionOf (newestItem s.flash.items q key c)

/-- The first entry whose condition fails at CSN `c`, with its index and the key's version (R162, R163, R169). -/
def failingEntry (s : State) (q c : Nat) : Nat → List KeyOp → Option (Nat × Nat)
  | _, [] => none
  | i, o :: rest =>
    match o.expected with
    | none => failingEntry s q c (i + 1) rest
    | some e =>
      let v := versionAt s q o.key c
      if v = e then failingEntry s q c (i + 1) rest else some (i, v)

/-- E_CONDITION (R155). -/
def conditionFailed (cmd : Cmd) (f : Nat × Nat) : Completion :=
  let c := Completion.plain cmd.opcode cmd.tag .condition cmd.csn
  if cmd.opcode = 0x06 then { c with result := beBytes f.1 2 ++ zeroBytes 6 ++ beBytes f.2 8 }
  else { c with version := f.2 }

/-- The version that an entry gives or checks: of a committed write, one above the key's (R156). -/
def entryVersion (s : State) (q c : Nat) (o : KeyOp) : Nat := match o.change with
  | .put _ => versionAt s q o.key c + 1
  | .delete => 0
  | .check => versionAt s q o.key c

/-- The record of an entry: `lost` for a lost key copied by a TOW (R443). -/
def itemOf (cmd : Cmd) (posted pseq entry recordId ctr version : Nat) (lost : Bool) (o : KeyOp) : Item :=
  let value := match o.change with
    | .put v => v
    | _ => []
  { quay := cmd.quay, digest := o.digest, key := o.key, csn := cmd.csn,
    kind := if lost then .lost else match o.change with
      | .put _ => .value
      | _ => .deletion,
    version := version, value := if lost then [] else value, lostLen := 0,
    lostStatus := if lost then statusCode .recordLost else 0, taken := none, entry := entry, recordId := recordId, pseq := pseq,
    batch := cmd.opcode == 0x06, marked := cmd.opcode == 0x06 || decide (256 < opUnits o), commit := false, berth := cmd.berth,
    tag := cmd.tag, settled := posted == 1, landed := false, durable := false, encrypted := false, epoch := cmd.epoch, ctr := ctr,
    setId := 0, spans := [], badPages := [] }

/-- The first invocation that each entry of a mutation takes of those reserved from `first` on (R345). -/
def opCtrs (first : Nat) : List KeyOp → List Nat
  | [] => []
  | o :: rest => first :: opCtrs (first + opSegments o) rest

/-- The keys that a TOW_DATA carried as lost. -/
def lostKeysOf (s : State) (csn : Nat) : List (List Byte) :=
  match s.harbour.towIns.find? (fun x => x.csn == csn) with
  | some x => x.lostKeys
  | none => []

/-- An item joins those that the drive holds. -/
def addItem (s : State) (i : Item) : State := { s with flash := { s.flash with items := s.flash.items ++ [i] } }

/-- Place the records of a write from entry `i` on, each with its version and its first invocation; none when a page cannot be
had. -/
def placeOps (cmd : Cmd) (lost : List (List Byte)) : Nat → List (KeyOp × Nat × Nat) → State → Option State
  | _, [], s => some s
  | i, (o, v, ctr) :: rest, s =>
    if !opWrites o then placeOps cmd lost (i + 1) rest s
    else
      let isLost := lost.contains o.key
      let item := { itemOf cmd 0 0 i s.space.nextRecord ctr v isLost o with encrypted := true }
      let t := addItem { s with space := { s.space with nextRecord := s.space.nextRecord + 1 } } item
      let placed := if isLost then placeMarker t .lostMarker cmd.csn i false
        else placeUnits (recordPiece item false) 1100 (recordBytes (itemKey t item) item) 0 t
      match placed with
      | none => none
      | some s => placeOps cmd lost (i + 1) rest s

/-- A posted write of one of the keys, below CSN `c`, is not yet durable (R277). -/
def postedAhead (s : State) (q c : Nat) (ops : List KeyOp) : Bool :=
  (undurable s).any (fun i => i.quay == q && decide (i.csn < c) && ops.any (fun o => opWrites o && o.key == i.key))

/-- Run a committed-mode write that nothing holds back: its result is computed; it then waits for posted writes of its
keys, for pages, and for its landing. -/
def runWrite (s : State) (cmd : Cmd) (ops : List KeyOp) : State :=
  match keyUnavailable s cmd.quay with
  | some st => failPlain s cmd st
  | none =>
    match failingEntry s cmd.quay cmd.csn 0 ops with
    | some f => failWrite s cmd (conditionFailed cmd f) .condition
    | none =>
      if !cmd.badSegs.isEmpty then failPlain s cmd .integrity
      else if postedAhead s cmd.quay cmd.csn ops then s
      else
        let vs := ops.map (entryVersion s cmd.quay cmd.csn)
        if ops.any opWrites then
          match placeOps cmd (lostKeysOf s cmd.csn) 0 (ops.zip (vs.zip (opCtrs cmd.ctr ops))) s with
          | none => s
          | some t => updCmd t cmd.csn (fun c => { c with stage := .placed, versions := vs })
        else
          updCmd (queueMarker s .commitMarker cmd.csn 0 false) cmd.csn (fun c => { c with stage := .marking, versions := vs })

/-! ### Reads -/

/-- A read's completion that carries no bytes (R160). -/
def readFail (cmd : Cmd) (st : Status) (version : Nat) : Completion :=
  let c := { Completion.plain cmd.opcode cmd.tag st cmd.csn with version := version }
  if cmd.opcode = 0x04 then c else { c with verified := 0xFFFFFFFF }

/-- The status that a lost key reads with (R157, R349). -/
def lostAs (i : Item) : Status :=
  if i.lostStatus = statusCode .keyErased then .keyErased
  else if i.lostStatus = statusCode .keyLost then .keyLost else .recordLost

/-- A read at CSN `csn` meets its key in flight: its newest write is posted and not yet durable, and the posted write buffer serves it
(R130). -/
def metInFlight (s : State) (quay : Nat) (key : List Byte) (csn : Nat) : Bool :=
  match newestItem s.flash.items quay key csn with
  | some i => i.pseq != 0 && !i.durable
  | none => false

/-- The entry that the leaf path finds for a key (R192): leaf by leaf, an entry is taken only once the header of its record has the
key. -/
def leafFind (ls : List Leaf) (quay digest : Nat) (key : List Byte) : Option LeafEntry :=
  (ls.flatMap Leaf.entries).find? (fun e => e.digest == digest && e.quay == quay && e.key == key)

/-- The key's state for a read at its CSN: the item, or the completion that the read ends with. A key whose header is first met on a
lost page is marked lost (R284). -/
def lookUp (s : State) (cmd : Cmd) (key : List Byte) : State × Except Completion Item :=
  match keyUnavailable s cmd.quay with
  | some st => (s, .error (readFail cmd st 0))
  | none =>
    match newestItem s.flash.items cmd.quay key cmd.csn with
    | none => (s, .error (readFail cmd .notFound 0))
    | some i =>
      match i.kind with
      | .deletion => (s, .error (readFail cmd .notFound 0))
      | .lost => (s, .error { readFail cmd (lostAs i) i.version with result := fit (beBytes (itemLen i) 8) 16 })
      | .value =>
        if headLost i then (markLost s i, .error (readFail cmd .media i.version)) else (s, .ok i)

/-- The segments of a range of a value, by their numbers. -/
def rangeSegments (off stop : Nat) : List Nat :=
  if stop ≤ off then [] else (List.range ((stop - 1) / 65536 + 1)).filter (fun k => decide (off / 65536 ≤ k))

/-- The slot holds the epoch that a record's segments name (R348). -/
def epochHeld (s : State) (slot epoch : Nat) : Bool :=
  match slotOf s slot with
  | some x => x.epoch == epoch || x.shadows.any (fun h => h.epoch == epoch)
  | none => false

/-- Why a segment of a read is not released: its page is lost (R234), its word in value staging is uncorrectable (R28), its epoch is
gone (R348), a pipeline meets a parity fault, in lineage mode (R359), or its tag fails (R348). -/
def segmentFate (s : State) (cmd : Cmd) (i : Item) (held : Bool) (k : Nat) : Option Status :=
  if segmentLost i k then some .media
  else if cmd.badSegs.contains k then some .integrity
  else if !held then some .keyErased
  else if s.flash.otp.lineage && cmd.parity.any (fun p => p.1 == k) then some .cipherParity
  else if cmd.badTags.contains k then some .integrity
  else none

/-- The first segment of a range that is not released, and why. -/
def rangeEnd (s : State) (cmd : Cmd) (i : Item) (off stop : Nat) (held : Bool) : Option (Nat × Status) :=
  (rangeSegments off stop).findSome? (fun k => (segmentFate s cmd i held k).map (fun st => (k, st)))

/-- The completion of a read of the range `off` to `stop` of an item's value (R159, R160), which ends before the segment that `ended`
names. `bytes` gives what one segment sends for its part of the range. -/
def rangeReply (cmd : Cmd) (i : Item) (off stop total : Nat) (ended : Option (Nat × Status)) (bytes : Nat → List Byte) :
    Completion :=
  let segs := rangeSegments off stop
  let base := { Completion.plain cmd.opcode cmd.tag .ok cmd.csn with
                version := i.version, result := fit (beBytes i.value.length 8) 16 }
  let good := match ended with
    | some e => segs.filter (fun k => decide (k < e.1))
    | none => segs
  let st : Status := (ended.map Prod.snd).getD .ok
  let value := good.flatMap bytes
  if segs.length ≤ 1 ∨ good.isEmpty then
    if st = .ok then { base with valueLen := value.length, value := value }
    else { readFail cmd st i.version with result := base.result }
  else
    let last := min stop (65536 * (good.getLastD 0 + 1)) - 1
    { base with flags := 1, status := statusCode st, valueLen := total, verified := last, value := value, streamed := true }

/-- What the end of a read leaves behind: a failed tag is counted, a parity fault counts against its pipeline (R359), and a key first met
on a lost page is marked lost (R284). -/
def endRead (s : State) (cmd : Cmd) (i : Item) (ended : Option (Nat × Status)) : State :=
  match ended with
  | none => s
  | some (k, st) =>
    if st = .media then markLost s i
    else if st = .cipherParity then (match cmd.parity.find? (fun p => p.1 == k) with
      | some p => raise (countPipe s p.2) 6 3
      | none => s)
    else if st = .integrity ∧ !cmd.badSegs.contains k then bump s A.CP_TAG_FAIL
    else s

/-- A read that found its key follows the hot-key rules (R207): a hit sets the reference bit, a leaf-path read that found the key's entry
inserts. -/
def hotRead (s : State) (i : Item) : State :=
  if i.pseq ≠ 0 ∧ !i.durable then s
  else if hotHit s i.quay i.key i.digest then hotTouch s i.quay i.key
  else match (tabGet s.index.chains (bucketOf i.digest)).bind (fun c => leafFind c.leaves i.quay i.digest i.key) with
    | some _ => if bit (regGet s A.CM_HOT_POLICY) 1 then hotInsert s i else s
    | none => s

/-- GET (R159). -/
def runGet (s : State) (cmd : Cmd) (key : List Byte) (off len : Nat) : State :=
  let (s, r) := lookUp s cmd key
  match r with
  | .error c => complete s cmd.berth c
  | .ok i =>
    let n := i.value.length
    let stop := if len = 0 then n else min n (off + len)
    let part := fun (k : Nat) =>
      let a := max off (65536 * k)
      (i.value.drop a).take (min stop (65536 * (k + 1)) - a)
    let s := enqueueSegments s 1 cmd.csn (quaySlot s cmd.quay) i.epoch i.ctr ((rangeSegments off stop).map (segmentLen n))
    let ended := rangeEnd s cmd i off stop (epochHeld s (quaySlot s cmd.quay) i.epoch)
    complete (endRead (hotRead s i) cmd i ended) cmd.berth (rangeReply cmd i off stop (stop - off) ended part)

/-- EXISTS (R164). -/
def runExists (s : State) (cmd : Cmd) (key : List Byte) : State :=
  let (s, r) := lookUp s cmd key
  match r with
  | .error c => complete s cmd.berth c
  | .ok i =>
    let c := { Completion.plain cmd.opcode cmd.tag .ok cmd.csn with
               version := i.version, result := fit (beBytes i.value.length 8) 16 }
    complete (hotRead s i) cmd.berth c

/-- One envelope (R173): the nonce, the tag, and segment `k` of an item's value under a key of the export slot. -/
def envelope (key : List Byte) (owner ctr : Nat) (i : Item) (k : Nat) (plain : List Byte) : List Byte :=
  let domain := 2 * 2 ^ 28 + owner
  let aad := beBytes i.quay 2 ++ beBytes i.digest 16 ++ beBytes i.version 8 ++ beBytes i.value.length 4 ++ beBytes k 2
  let out := gcmSeal key domain ctr aad plain
  beBytes domain 4 ++ beBytes ctr 8 ++ out.drop plain.length ++ beBytes k 2 ++ zeroBytes 2 ++ beBytes plain.length 4 ++
    zeroBytes 4 ++ out.take plain.length

/-- EXPORT (R173): the slot must have been an export slot at the command's CSN. One erased since then has no key for it
(R342), and one whose key is not loaded has none to give (R354). -/
def runExport (s : State) (cmd : Cmd) (key : List Byte) (off slot segs epoch kind : Nat) : State :=
  let plain := fun (st : Status) => readFail cmd st 0
  if kind ≠ 4 then complete s cmd.berth (plain .auth)
  else match slotOf s slot with
  | none => complete s cmd.berth (plain .keyErased)
  | some x =>
    if x.kind ≠ 4 then complete s cmd.berth (plain .keyErased)
    else if x.st ≠ .live then complete s cmd.berth (plain .keyLost)
    else
      let (s, r) := lookUp s cmd key
      match r with
      | .error c => complete s cmd.berth c
      | .ok i =>
        let n := i.value.length
        let stop := if segs = 0 then n else min n (off + 65536 * segs)
        let count := (rangeSegments off stop).length
        match reserveCounter s slot count with
        | none => complete (bumpHalf s A.CP_KEY_REFUSED 0) cmd.berth { plain .keyWorn with version := i.version }
        | some t =>
          let part := fun (k : Nat) => (i.value.drop (65536 * k)).take (min stop (65536 * (k + 1)) - 65536 * k)
          let ekey := ((epochKey x epoch).map keyBytes).getD []
          let env := fun (k : Nat) => envelope ekey x.owner (x.ctr + 1 + (k - off / 65536)) i k (part k)
          let total := (stop - off) + 40 * count
          let t := enqueueSegments t 1 cmd.csn (quaySlot t cmd.quay) i.epoch i.ctr ((rangeSegments off stop).map (segmentLen n))
          let t := enqueueSegments t 3 cmd.csn slot epoch (x.ctr + 1) ((List.range count).map (fun j => (part (off / 65536 + j)).length))
          let ended := rangeEnd t cmd i off stop (epochHeld t (quaySlot t cmd.quay) i.epoch && epochHeld t slot epoch)
          complete (endRead (hotRead t i) cmd i ended) cmd.berth (rangeReply cmd i off stop total ended env)

/-! ### SCAN pages (R170 to R172) -/

/-- The item decides its key's state at CSN `c`. -/
def decides (s : State) (i : Item) (c : Nat) : Bool :=
  match newestItem s.flash.items i.quay i.key c with
  | some y => y.csn == i.csn && y.entry == i.entry
  | none => false

/-- The keys of a page that exist at CSN `c`, in digest order. -/
def pageItems (s : State) (q c cursor log : Nat) (pfx : List Byte) : List Item :=
  sortBy Item.digest ((s.flash.items.map (asSeen c)).filter (fun i => i.quay == q && i.settled && decide (i.csn < c) && exists_ i &&
    inPage cursor log i.digest && i.key.take pfx.length == pfx && decides s i c))

/-- The items of a page: at most `k`, but a group of equal digests stays whole. -/
def cutPage (k : Nat) (is : List Item) : List Item :=
  match is[k]? with
  | none => is
  | some next =>
    let kept := (is.take k).filter (fun i => i.digest != next.digest)
    if kept.isEmpty then is.filter (fun i => i.digest == next.digest) else kept

/-- One SCAN entry (R172). -/
def scanEntry (keys : Bool) (i : Item) : List Byte :=
  let body := beBytes i.digest 16 ++ beBytes i.version 8 ++ beBytes (itemLen i) 4 ++ beBytes i.key.length 2 ++
    beBytes (flag (i.kind == .lost)) 2 ++ (if keys then i.key else [])
  fit body ((body.length + 7) / 8 * 8)

/-- Keys of a page whose records cannot be read are marked lost (R175, R284). -/
def markUnread (s : State) (is : List Item) : State :=
  (is.filter (fun i => i.kind == .value && itemUnread i)).foldl markLost s

/-- The items whose records a page with KEYS reads (R172): those of the window, up to the last one returned where the page
stopped short. -/
def readByPage (window page : List Item) (short : Bool) : List Item :=
  if short then window.filter (fun i => decide (i.digest ≤ (page.getLast?.map Item.digest).getD 0)) else window

/-- SCAN (R170 to R172). -/
def runScan (s : State) (cmd : Cmd) (cursor most log : Nat) (keys : Bool) (pfx : List Byte) : State :=
  let all := pageItems s cmd.quay cmd.csn cursor log pfx
  let page := cutPage most all
  let short := decide (page.length < all.length)
  let seen := readByPage (pageItems s cmd.quay cmd.csn cursor log []) page short
  if !quayOpen s cmd.quay then complete s cmd.berth (Completion.plain cmd.opcode cmd.tag .keyErased cmd.csn)
  else if keys ∧ seen.any (fun i => i.kind == .value && headLost i) then
    complete ((seen.filter (fun i => i.kind == .value && headLost i)).foldl markLost s) cmd.berth (Completion.plain cmd.opcode cmd.tag .media cmd.csn)
  else if keys ∧ !cmd.badSegs.isEmpty then
    complete s cmd.berth (Completion.plain cmd.opcode cmd.tag .integrity cmd.csn)
  else
    let stop := windowEnd cursor log
    let value := page.flatMap (scanEntry keys)
    let next := if short then (page.getLast?.map Item.digest).getD 0 + 1
      else if stop = 2 ^ 28 - 1 then 0 else (stop + 1) * 2 ^ 100
    let c := { Completion.plain cmd.opcode cmd.tag .ok cmd.csn with
               flags := flag (!short && stop == 2 ^ 28 - 1), valueLen := value.length, verified := page.length,
               result := beBytes next 16, value := value }
    complete s cmd.berth c

/-! ### TOW windows (R174, R441) -/

/-- An entry of a TOW_DATA (R440). -/
def towEntryBytes (i : Item) : List Byte :=
  let lost := i.kind == .lost
  let body := beBytes i.key.length 2 ++ beBytes (flag lost) 2 ++ beBytes (if lost then 0 else i.value.length) 4 ++
    beBytes i.version 8 ++ i.key ++ (if lost then [] else i.value)
  fit body ((body.length + 7) / 8 * 8)

/-- Entries gathered into capsules of at most 256 entries and 80 MiB (R440). -/
def towGroups : List (List Byte) → List (List (List Byte)) → List (List (List Byte))
  | [], acc => acc
  | e :: rest, acc =>
    match acc.getLast? with
    | some g =>
      if g.length < 256 ∧ (g.map List.length).foldl (· + ·) e.length ≤ 83886080 then
        towGroups rest (acc.dropLast ++ [g ++ [e]])
      else towGroups rest (acc ++ [[e]])
    | none => towGroups rest [[e]]

/-- The header of a TOW_DATA (R440), but for MSG_SEQ, which it takes when it is sent. -/
def towHeader (quay msgSeq window count : Nat) : List Byte :=
  beBytes 0x71 1 ++ [0] ++ beBytes quay 2 ++ beBytes msgSeq 4 ++ beBytes window 4 ++ beBytes count 2 ++ zeroBytes 2

/-- Change a TOW. -/
def updTow (s : State) (csn : Nat) (f : Tow → Tow) : State :=
  { s with harbour := { s.harbour with tows := s.harbour.tows.map (fun x => if x.csn = csn then f x else x) } }

/-- Capsules not yet acknowledged on a towline. -/
def towOutstanding (s : State) (t : Nat) : Nat :=
  listSum ((s.harbour.tows.filter (fun x => x.towline == some t)).map (fun x => x.outstanding.length))

/-- Send the window's capsules while at most 4 of a towline are unacknowledged (R440); MSG_SEQ counts on the towline. -/
def sendTow : Nat → State → Nat → State
  | 0, s, _ => s
  | fuel + 1, s, csn =>
    match s.harbour.tows.find? (fun x => x.csn == csn) with
    | none => s
    | some x =>
      match x.toSend, x.towline with
      | bs :: rest, some t =>
        if 4 ≤ towOutstanding s t then s
        else
          let seq := 1 + listMax (s.harbour.tows.map (fun y => if y.towline = x.towline then y.nextSeq else 0))
          let s := updTow s csn (fun y => { y with toSend := rest, outstanding := y.outstanding ++ [seq], nextSeq := seq })
          sendTow fuel (sendCapsule s (.towline t) 0 none (bs.take 4 ++ beBytes seq 4 ++ bs.drop 8)) csn
      | _, _ => s

/-- A TOW window's content is read as a SCAN page with KEYS and cut into capsules; an unreadable record, a failed tag or a quay that is
gone ends the TOW at the start of the window. -/
def runWindow (s : State) (cmd : Cmd) (tow cursor log : Nat) : State :=
  match s.harbour.tows.find? (fun x => x.csn == tow) with
  | none => s
  | some x =>
    let page := pageItems s cmd.quay cmd.csn cursor log []
    match keyUnavailable s cmd.quay with
    | some st => endTow s x st cursor
    | none =>
      let parity := if s.flash.otp.lineage then
          x.parity.find? (fun p => page.any (fun i => i.kind == .value && i.recordId == p.1))
        else none
      if page.any (fun i => i.kind == .value && itemUnread i) then endTow (markUnread s page) x .media cursor
      else if !cmd.badSegs.isEmpty then endTow s x .integrity cursor
      else if parity.isSome then
        endTow (raise (parity.elim s (fun p => countPipe s p.2)) 6 3) x .cipherParity cursor
      else if page.any (fun i => i.kind == .value && x.badRecords.contains i.recordId) then
        endTow (bump s A.CP_TAG_FAIL) x .integrity cursor
      else
        let groups := towGroups (page.map towEntryBytes) []
        let bs := groups.map (fun g => towHeader x.destQuay 0 (cursor / 2 ^ 116) g.length ++ g.flatten)
        let g := listSum (page.map (fun i => granules i.key.length (itemLen i)))
        let pins := (page.map Item.setId).dedup
        let s := updTow s tow (fun y => { y with toSend := bs, windowKeys := page.length, windowGranules := g, pinned := pins })
        sendTow 5 s tow

/-! ### Resuming -/

/-- The buckets whose leaves a command reads: the key's, unless it is met in flight or in the hot-key banks; of a page, those of its window
that have held a key (R192, R208). Only an export slot has its value read. -/
def leavesNeeded (s : State) (cmd : Cmd) : List Nat :=
  let own := fun (key : List Byte) (d : Nat) =>
    if !quayOpen s cmd.quay || metInFlight s cmd.quay key cmd.csn || hotHit s cmd.quay key d then [] else [bucketOf d]
  match cmd.job with
  | .get key d _ _ | .exist key d => own key d
  | .exportSegs key d _ _ _ _ kind => if kind = 4 then own key d else []
  | .scan cursor _ log _ _ =>
    let inWindow := fun (b : Nat) => decide (cursor / 2 ^ 100 ≤ b) && decide (b ≤ windowEnd cursor log)
    if quayOpen s cmd.quay then
      (sortBy id ((s.index.dir.map Prod.fst ++ s.index.chains.map Prod.fst).filter inWindow)).dedup
    else []
  | .write _ => []

/-- The hot-key search of a read, made once, unless the posted write buffer serves it (R208). -/
def lookOnce (s : State) (cmd : Cmd) : State :=
  let look := fun (key : List Byte) (d : Nat) =>
    if cmd.looked || metInFlight s cmd.quay key cmd.csn then s
    else updCmd (hotLook s cmd.quay key d) cmd.csn (fun c => { c with looked := true })
  match cmd.job with
  | .get key d _ _ | .exist key d | .exportSegs key d _ _ _ _ _ => look key d
  | .scan _ _ _ _ _ | .write _ => s

/-- Carry out an admitted command that nothing holds back and whose leaves are there. TOW windows run under their TOW, whose CSN their tag
names. -/
def doCmd (s : State) (cmd : Cmd) : State :=
  match cmd.job with
  | .get key _ off len => runGet (dropCmd s cmd.csn) cmd key off len
  | .exist key _ => runExists (dropCmd s cmd.csn) cmd key
  | .exportSegs key _ off slot segs epoch kind => runExport (dropCmd s cmd.csn) cmd key off slot segs epoch kind
  | .scan cursor most log keys pfx =>
    if cmd.opcode = 0x09 then runWindow (dropCmd s cmd.csn) cmd cmd.tag cursor log
    else runScan (dropCmd s cmd.csn) cmd cursor most log keys pfx
  | .write ops => runWrite s cmd ops

/-- The other dies of a die's stripe. -/
def stripeMates (d : Nat) : List Nat := (stripeDies (stripeOf d)).filter (fun x => x != d)

/-- Reconstruction of a die's pages fails: another die of the stripe has failed (R234). -/
def rebuildFails (s : State) (d : Nat) : Bool := (stripeMates d).any (fun x => (dieOf s x).st == 3)

/-- Reconstruction of a die's pages waits for another die that is in dry dock or calibrating (R234). -/
def rebuildWaits (s : State) (d : Nat) : Bool := (stripeMates d).any (fun x => (dieOf s x).st == 1 || (dieOf s x).st == 2)

/-- The pages that a read needs of a record in flash: its head, and the segments of its range (R159). -/
def readPages (cmd : Cmd) (i : Item) : List Nat :=
  let head := unitPages i 0 (headUnits i.key.length)
  let segs := fun (off stop : Nat) => (rangeSegments off stop).flatMap (fun k => unitPages i (segmentUnits i k).1 (segmentUnits i k).2)
  let n := i.value.length
  match cmd.job with
  | .get _ _ off len => head ++ segs off (if len = 0 then n else min n (off + len))
  | .exportSegs _ _ off _ count _ _ => head ++ segs off (if count = 0 then n else min n (off + 65536 * count))
  | .exist _ _ => head
  | _ => []

/-- A read needs a page of a die that is unavailable, whose reconstruction needs another die that is in dry dock or calibrating: it waits
until that one serves again (R234). -/
def pagesWait (s : State) (cmd : Cmd) : Bool :=
  (jobKeys cmd.job).any (fun k => match newestItem s.flash.items cmd.quay k.1 cmd.csn with
    | some i => !metInFlight s cmd.quay k.1 cmd.csn && (readPages cmd i).any (fun p =>
        let d := dieOfBlock (p / 4096)
        dieUnavailable s d && rebuildWaits s d)
    | none => false)

/-- Run a command that nothing holds back: it pins the leaves that it reads, and waits for those that are not there (R194),
and for a die without which a page cannot be rebuilt. -/
def runCmd (s : State) (cmd : Cmd) : State :=
  let s := lookOnce s cmd
  let need := leavesNeeded s cmd
  let s := pinLeaves s cmd.csn need
  if need.all (leafIn s) && !pagesWait s cmd then doCmd s cmd else s

/-- Run every waiting command that nothing holds back, in order of CSN. -/
def resumeCmds (s : State) : State :=
  (sortBy Cmd.csn s.cmds).foldl (fun s c =>
    match s.cmds.find? (fun d => d.csn == c.csn) with
    | none => s
    | some d =>
      if d.voidFor.isNone ∧ d.stage = .waiting ∧ !blocked s d then runCmd s d else s) s

/-- The CSN chunk in use is recorded where a window's CSN would pass it (R36). -/
def ensureCsn (s : State) : State :=
  if csnReady s 1 then s
  else { s with flash := { s.flash with chunk := s.flash.chunk.map (· + 1),
                                        recChunk := some (s.space.nextRecord / 2 ^ 24 + 1) } }

/-- The next window of a TOW is admitted with a CSN of its own (R174): it reads like a SCAN page of 2^16 buckets, under the
TOW that its tag names. -/
def admitWindow (s : State) (x : Tow) : State :=
  let (csn, s) := takeCsn (ensureCsn s)
  let first := if x.firstCsn = 0 then csn else x.firstCsn
  let s := updTow s x.csn (fun y => { y with windowCsn := csn, firstCsn := first })
  let cmd : Cmd := { csn := csn, berth := x.berth, tag := x.csn, opcode := 0x09, quay := x.quay,
                     job := .scan x.windowStart (2 ^ 64) 16 true [], stage := .waiting, granules := 0, keyCount := 0,
                     epoch := slotEpoch s (quaySlot s x.quay), transferred := false, badSegs := [], badTags := [], parity := [], ctr := 0,
                     looked := false, versions := [], voidFor := none, engine := dispatchEngine s }
  { s with cmds := s.cmds ++ [cmd] }

/-- A TOW's window has been copied: read, sent and acknowledged whole (R441). -/
def windowCopied (s : State) (x : Tow) : Bool :=
  x.windowCsn != 0 && x.toSend.isEmpty && x.outstanding.isEmpty && !s.cmds.any (fun c => c.csn == x.windowCsn)

/-- A copied window is counted; the TOW ends after the quay's last bucket, and else its next window is admitted. -/
def nextWindow (s : State) (x : Tow) : State :=
  let stop := windowEnd x.windowStart 16
  let x := { x with keys := x.keys + x.windowKeys, granules := x.granules + x.windowGranules, lastCsn := x.windowCsn }
  if stop = 2 ^ 28 - 1 then endTow s x .ok 0
  else
    let y := { x with windowStart := (stop + 1) * 2 ^ 100, windowCsn := 0, windowKeys := 0, windowGranules := 0, pinned := [] }
    admitWindow (updTow s x.csn (fun _ => y)) y

/-- TOWs go on: capsules for which a towline has room are sent, and a copied window gives way to the next, at most `fuel`
of them; a TOW has at most 4,096 windows. -/
def towLoop : Nat → State → State
  | 0, s => s
  | fuel + 1, s =>
    let s := s.harbour.tows.foldl (fun s x => sendTow 5 s x.csn) s
    match s.harbour.tows.find? (windowCopied s) with
    | none => s
    | some x => towLoop fuel (resumeCmds (nextWindow s x))

/-- Run what can run: commands that nothing holds back, and the windows of TOWs. -/
def resumeAll (s : State) : State :=
  let s := resumeCmds s
  towLoop (4097 * s.harbour.tows.length) s

/-- Take a new command, dispatched to an engine (R21), and run what can run. -/
def startCmd (s : State) (cmd : Cmd) : State :=
  resumeAll { s with cmds := s.cmds ++ [{ cmd with engine := dispatchEngine s }] }

/-- The in-flight searches of a command, one for each key, after its admission (R203, R209). -/
def inflightSearches (s : State) (quay : Nat) (ds : List Nat) : State := ds.foldl (fun s d => inflightLook s quay d) s

/-! ### Admission of mutations -/

/-- The command of an admitted capsule. -/
def cmdOf (n : Nat) (c : Capsule) (csn epoch : Nat) (job : Job) (g k : Nat) : Cmd :=
  { csn := csn, berth := n, tag := c.tag, opcode := c.opcode, quay := c.quay, job := job, stage := .waiting, granules := g,
    keyCount := k, epoch := epoch, transferred := false, badSegs := [], badTags := [], parity := [], ctr := 0, looked := false,
    versions := [], voidFor := none, engine := 0 }

/-- A posted write (R130, R133, R156): its items settle at admission and are numbered, and it completes. -/
def postWrite (s : State) (cmd : Cmd) (ops : List KeyOp) : State :=
  let pseq := s.space.nextPseq
  let version := fun (o : KeyOp) => if o.change = .delete then 0 else cmd.csn
  let items := (List.range ops.length).filterMap (fun i => (ops[i]?).map (fun o =>
    itemOf cmd 1 pseq i (s.space.nextRecord + i) ((opCtrs cmd.ctr ops).getD i 0) (version o) false o))
  let s := { s with flash := { s.flash with items := s.flash.items ++ items },
                    space := { s.space with nextPseq := pseq + 1, nextRecord := s.space.nextRecord + ops.length } }
  let s := items.foldl hotSettle (recount s cmd.quay)
  let s := complete s cmd.berth (writeOk cmd.opcode cmd.tag cmd.csn (ops.map version))
  drainPosted s

/-- What admission does for a mutation whose key and counters are to be had (R129, R158, R195, R209, R289). -/
def enterWrite (s : State) (cmd : Cmd) (ops : List KeyOp) (posted : Bool) : State :=
  let ds := (ops.filter opWrites).map KeyOp.digest
  let s := { s with tide := { s.tide with paced := s.tide.paced + cmd.granules } }
  let s := inflightSearches s cmd.quay (ops.map KeyOp.digest)
  let s := chainRegister (inflightAdd s cmd.quay cmd.csn posted ds) cmd.csn ds
  if posted then postWrite s cmd ops
  else startCmd (reserve s cmd.quay cmd.granules cmd.keyCount) { cmd with job := .write ops }

/-- The first invocation that a slot would reserve now (R345). -/
def nextInvocation (s : State) (slot : Nat) : Nat := match slotOf s slot with
  | some x => x.ctr + 1
  | none => 0

/-- A mutation whose invocations are reserved from `first` on: its segments come to the pipelines (R335), and it goes its way. -/
def enterReserved (s : State) (first n : Nat) (c : Capsule) (csn slot : Nat) (ops : List KeyOp) (posted : Bool) : State :=
  let t := enqueueSegments s 2 csn slot (slotEpoch s slot) first (ops.flatMap opPieces)
  enterWrite t { cmdOf n c csn (slotEpoch s slot) (.write []) (granulesOf c) (putsOf c).length with ctr := first } ops posted

/-- A mutation is admitted (R165, R166, R345): with its quay's key gone, or its counter worn, it completes at once with no
effect and is never posted. -/
def admitWrite (s : State) (n : Nat) (c : Capsule) : State :=
  let posted := isPosted s c
  let (csn, s) := admitTag s n c.tag posted
  let ops := opsOf s c
  let slot := quaySlot s c.quay
  match keyUnavailable s c.quay with
  | some st => complete s n (Completion.plain c.opcode c.tag st csn)
  | none =>
    match reserveCounter s slot (listSum (ops.map opSegments)) with
    | none => complete (bumpHalf s A.CP_KEY_REFUSED 0) n (Completion.plain c.opcode c.tag .keyWorn csn)
    | some t => enterReserved t (nextInvocation s slot) n c csn slot ops posted

/-- A read is admitted: it reaches its commit point with its CSN (R31). `faults` is what its decryption will meet. -/
def admitRead (s : State) (n : Nat) (c : Capsule) (faults : ReadFaults) (job : State → Job) : State :=
  let (csn, s) := admitTag s n c.tag true
  let cmd := cmdOf n c csn (slotEpoch s (quaySlot s c.quay)) (job s) 0 0
  startCmd (inflightSearches s c.quay ((jobKeys cmd.job).map Prod.snd)) { cmd with badTags := faults.tags, parity := faults.parity }

end Sys2Proof.Machine
end

