-- ==== Sys2Proof/Machine/KeyValue.lean ====
section
/-! DEFINITION. The commands on keys (R152 to R173): each decides the capsule at the head of its berth and, once it is
admitted, starts its work. -/

namespace Sys2Proof.Machine

/-- Decide the capsule of a berth, as every capsule command does. -/
def capsule (s : State) (n opcode : Nat) (run : State → Berth → Mooring → Capsule → State) :
    Host.Outcome State Fault Refusal := conclude (decideCapsule s n opcode run)

/-- No fault is met. -/
def noFaults : ReadFaults := { tags := [], parity := [] }

/-- GET (R159). -/
def execGet (berth : Nat) (faults : ReadFaults) (s : State) : Host.Outcome State Fault Refusal :=
  capsule s berth 0x01 (fun s _ _ c =>
    admitRead s berth c faults (fun s => .get c.key (digestOf s c.quay c.key) c.segOff c.valueLen))

/-- PUT (R161). -/
def execPut (berth : Nat) (s : State) : Host.Outcome State Fault Refusal :=
  capsule s berth 0x02 (fun s _ _ c => admitWrite s berth c)

/-- DELETE (R163). -/
def execDelete (berth : Nat) (s : State) : Host.Outcome State Fault Refusal :=
  capsule s berth 0x03 (fun s _ _ c => admitWrite s berth c)

/-- EXISTS (R164). -/
def execExistsKey (berth : Nat) (s : State) : Host.Outcome State Fault Refusal :=
  capsule s berth 0x04 (fun s _ _ c => admitRead s berth c noFaults (fun s => .exist c.key (digestOf s c.quay c.key)))

/-- CAS (R162). -/
def execCas (berth : Nat) (s : State) : Host.Outcome State Fault Refusal :=
  capsule s berth 0x05 (fun s _ _ c => admitWrite s berth c)

/-- BATCH (R167 to R169). -/
def execBatch (berth : Nat) (s : State) : Host.Outcome State Fault Refusal :=
  capsule s berth 0x06 (fun s _ _ c => admitWrite s berth c)

/-- SCAN (R170 to R172). -/
def execScan (berth : Nat) (s : State) : Host.Outcome State Fault Refusal :=
  capsule s berth 0x07 (fun s _ _ c =>
    admitRead s berth c noFaults (fun _ =>
      .scan (beAt c.value 0 16) (natBits c.param 15 0) (natBits c.param 23 16) (c.flags % 2 == 1) c.key))

/-- EXPORT (R173, R345). -/
def execExportValue (berth : Nat) (faults : ReadFaults) (s : State) : Host.Outcome State Fault Refusal :=
  capsule s berth 0x08 (fun s _ _ c =>
    admitRead s berth c faults (fun s =>
      let k := natBits c.param 15 0
      .exportSegs c.key (digestOf s c.quay c.key) c.segOff k (natBits c.param 31 16) (slotEpoch s k)
        (match slotOf s k with
        | some x => x.kind
        | none => 0)))

end Sys2Proof.Machine
end

