-- ==== Sys2Proof/Machine/Quays.lean ====
section
/-! DEFINITION. Quays (R177 to R179) and rules (R180 to R183), with the places of rule entries and bodies (R211, R213). -/

namespace Sys2Proof.Machine

/-! ### Completions -/

/-- Admit a capsule that reaches its commit point with its CSN, and complete it. -/
def answerAt (s : State) (n : Nat) (c : Capsule) (run : State → Nat → State × Completion) : State :=
  let (csn, s) := admitTag s n c.tag true
  let (s, r) := run s csn
  complete s n r

/-- A completion that carries a status alone. -/
def statusOnly (c : Capsule) (csn : Nat) (st : Status) : Completion := Completion.plain c.opcode c.tag st csn

/-! ### Definition blocks (R178) -/

/-- The largest sum of guaranteed quotas, in GiB. -/
def wholeGib : Nat := 186264

/-- Check 1: the block's fields follow their table. -/
def blockLegal (v : List Byte) : Bool :=
  decide (beAt v 0 1 ≤ 1) && beAt v 1 3 == 0 && decide (beAt v 4 4 ≤ 0x04000000) && decide (beAt v 8 4 ≤ wholeGib) &&
    (beAt v 12 4 == 0 || inRange (beAt v 12 4) (beAt v 8 4) wholeGib) && beAt v 16 16 == 0

/-- Check 2: the guaranteed quotas of the open quays, with this block in place of quay `q`'s. -/
def guaranteesFit (s : State) (q : Option Nat) (v : List Byte) : Bool :=
  let rest := s.flash.quays.filter (fun p => !p.2.erasing && some p.1 != q)
  decide (listSum (rest.map (fun p => p.2.guarGib)) + beAt v 8 4 ≤ wholeGib)

/-- The quay that a QUAY_CREATE takes: the one named, or with ANY the lowest FREE one. -/
def createTarget (s : State) (c : Capsule) : Except Status Nat :=
  if c.flags % 2 = 1 then
    match freeKey s.flash.quays 4096 with
    | some q => .ok q
    | none => .error .tableFull
  else match tabGet s.flash.quays c.quay with
    | some _ => .error .state
    | none => .ok c.quay

/-- A quay is created: its at-rest and index keys are two draws of the key DRBG, held in the lowest free slot (R177, R339). -/
def createQuay (s : State) (q slot csn : Nat) (v : List Byte) : State :=
  let d := s.draws
  let y : Quay := { erasing := false, posted := beAt v 0 1 == 1, maxValue := beAt v 4 4, guarGib := beAt v 8 4,
                    limitGib := beAt v 12 4, used := 0, keys := 0, slot := slot, reserved := 0, createCsn := csn,
                    refused := 0, lost := 0, indexKey := d + 1 }
  let s := putSlot { s with draws := d + 2 } slot 1 q (.drawn d) (d + 1)
  saveKey { s with flash := { s.flash with quays := tabPut s.flash.quays q y } } slot

/-- QUAY_CREATE after its admission (R178). -/
def quayCreate (s : State) (c : Capsule) (csn : Nat) : State × Completion :=
  let no := fun (st : Status) => (s, statusOnly c csn st)
  if !blockLegal c.value then no .range
  else if !guaranteesFit s (if c.flags % 2 = 1 then none else some c.quay) c.value then no .range
  else match createTarget s c with
    | .error st => no st
    | .ok q =>
      if s.cipher.locked then no .keyLost
      else if s.cipher.entropyFailed then no .state
      else match lowestSlot s with
        | none => no .tableFull
        | some slot =>
          (createQuay s q slot csn c.value, { statusOnly c csn .ok with result := fit (beBytes q 2) 16 })

/-- QUAY_CREATE. -/
def execQuayCreate (berth : Nat) (s : State) : Host.Outcome State Fault Refusal :=
  capsule s berth 0x20 (fun s _ _ c => answerAt s berth c (fun s csn => quayCreate s c csn))

/-- QUAY_SET after its admission (R178). -/
def quaySet (s : State) (c : Capsule) (csn : Nat) : State × Completion :=
  let v := c.value
  if !blockLegal v || !guaranteesFit s (some c.quay) v then (s, statusOnly c csn .range)
  else if !quayOpen s c.quay then (s, statusOnly c csn .state)
  else
    let set := fun (y : Quay) =>
      { y with posted := beAt v 0 1 == 1, maxValue := beAt v 4 4, guarGib := beAt v 8 4, limitGib := beAt v 12 4 }
    ({ s with flash := { s.flash with quays := tabUpd s.flash.quays c.quay set } }, statusOnly c csn .ok)

/-- QUAY_SET. -/
def execQuaySet (berth : Nat) (s : State) : Host.Outcome State Fault Refusal :=
  capsule s berth 0x21 (fun s _ _ c => answerAt s berth c (fun s csn => quaySet s c csn))

/-! ### QUAY_DESTROY (R179, R342) -/

/-- The rules of a quay are deleted. -/
def dropRules (s : State) (q : Nat) : State :=
  let ids := (rulesOf s q).map Rule.id
  let s := removeRules s ids
  { s with flash := { s.flash with rules := s.flash.rules.filter (fun r => r.quay != q) } }

/-- CSNs of posted writes of a quay that are not yet encrypted. -/
def plainPosted (s : State) (q : Nat) : List Nat :=
  (((undurable s).filter (fun i => i.quay == q && !i.encrypted && i.kind != .lost)).map Item.csn).dedup

/-- The quay becomes ERASING: its slot and index key are erased, posted writes not yet encrypted become deferred errors,
its rules go, and its waiting commands meet the erase. -/
def destroyQuay (s : State) (q slot : Nat) : State :=
  let s := saveKey (freeSlot s slot) slot
  let s := { s with cipher := { s.cipher with rekey := s.cipher.rekey.filter (fun r => r.1 != q) } }
  let s := { s with flash := { s.flash with quays := tabUpd s.flash.quays q (fun y =>
    { y with erasing := true, used := 0, keys := 0, indexKey := 0 }) } }
  let s := recount (dropRules s q) q
  (plainPosted s q).foldl (fun s csn => deferredError s csn .keyErased) s

/-- QUAY_DESTROY. -/
def execQuayDestroy (berth : Nat) (s : State) : Host.Outcome State Fault Refusal :=
  capsule s berth 0x22 (fun s _ _ c =>
    let (csn, s) := admitTag s berth c.tag true
    if quayOpen s c.quay then
      resumeAll (complete (destroyQuay s c.quay (quaySlot s c.quay)) berth (statusOnly c csn .ok))
    else complete s berth (statusOnly c csn .state))

/-! ### Rules -/

/-- The rule that 64 bytes spell. -/
def ruleOf (id : Nat) (v : List Byte) : Rule :=
  { id := id, quay := beAt v 4 2, priority := beAt v 6 2, subject := beAt v 8 8, grants := beAt v 16 2,
    anySubject := beAt v 19 1 == 1, pfx := (v.drop 32).take (beAt v 18 1) }

/-- The 64 bytes of a rule (R180). -/
def ruleBytes (r : Rule) : List Byte :=
  beBytes r.id 4 ++ beBytes r.quay 2 ++ beBytes r.priority 2 ++ beBytes r.subject 8 ++ beBytes r.grants 2 ++
    beBytes r.pfx.length 1 ++ beBytes (flag r.anySubject) 1 ++ zeroBytes 12 ++ fit r.pfx 32

/-- The body keeps to R180. -/
def ruleLegal (v : List Byte) : Bool :=
  beAt v 0 4 == 0 && decide (beAt v 4 2 < 4096) && decide (beAt v 16 2 < 64) && decide (beAt v 18 1 ≤ 32) &&
    decide (beAt v 19 1 ≤ 1) && !(beAt v 19 1 == 1 && beAt v 8 8 != 0) && beAt v 20 12 == 0 &&
    ((v.drop 32).drop (beAt v 18 1)).all (fun b => b == 0)

/-- RULE_PUT after its admission (R182). -/
def rulePut (s : State) (c : Capsule) (csn : Nat) : State × Completion :=
  let v := c.value
  let no := fun (st : Status) => (s, statusOnly c csn st)
  let id := s.flash.topRule + 1
  let lens := prefixLens s c.quay
  if !ruleLegal v then no .range
  else if 4 ≤ lens.length ∧ ¬lens.contains (beAt v 18 1) then no .range
  else if !quayOpen s c.quay then no .state
  else if 65536 ≤ s.flash.rules.length ∨ 0xFFFFFFFF < id then no .tableFull
  else
    let r := ruleOf id v
    let s := placeRule { s with flash := { s.flash with rules := s.flash.rules ++ [r], topRule := id } } r
    (s, { statusOnly c csn .ok with result := fit (beBytes id 4) 16 })

/-- RULE_PUT. -/
def execRulePut (berth : Nat) (s : State) : Host.Outcome State Fault Refusal :=
  capsule s berth 0x23 (fun s _ _ c => answerAt s berth c (fun s csn => rulePut s c csn))

/-- RULE_DEL after its admission (R182). -/
def ruleDel (s : State) (c : Capsule) (csn : Nat) : State × Completion :=
  if s.flash.rules.any (fun r => r.id == c.param) then
    let s := removeRules s [c.param]
    ({ s with flash := { s.flash with rules := s.flash.rules.filter (fun r => r.id != c.param) } }, statusOnly c csn .ok)
  else (s, statusOnly c csn .notFound)

/-- RULE_DEL. -/
def execRuleDel (berth : Nat) (s : State) : Host.Outcome State Fault Refusal :=
  capsule s berth 0x24 (fun s _ _ c => answerAt s berth c (fun s csn => ruleDel s c csn))

/-- RULE_READ after its admission (R182). -/
def ruleRead (s : State) (c : Capsule) (csn : Nat) : State × Completion :=
  let found := (sortBy Rule.id (s.flash.rules.filter (fun r => decide (c.param % 2 ^ 32 ≤ r.id)))).take
    (natBits c.param 39 32)
  (s, { statusOnly c csn .ok with valueLen := 64 * found.length, verified := found.length,
                                  value := found.flatMap ruleBytes })

/-- RULE_READ. -/
def execRuleRead (berth : Nat) (s : State) : Host.Outcome State Fault Refusal :=
  capsule s berth 0x25 (fun s _ _ c => answerAt s berth c (fun s csn => ruleRead s c csn))

end Sys2Proof.Machine
end

