-- ==== Sys2Proof/Machine/Control.lean ====
section
/-! DEFINITION. Berth control capsules (R134 to R147), the management capsules (R55, R111, R112), and the reservation of
CSN chunks (R36). -/

namespace Sys2Proof.Machine

/-! ### SEAL (R134, R139, R140) -/

/-- SEAL. -/
def execSealWrites (berth : Nat) (s : State) : Host.Outcome State Fault Refusal :=
  capsule s berth 0x40 (fun s _ _ c =>
    let (csn, s) := admitTag s berth c.tag true
    beginSeal s { csn := csn, scope := c.flags % 4, quay := c.quay, berth := berth, purpose := .capsule berth c.tag })

/-! ### ABORT (R143 to R145, R301) -/

/-- The completion of an ABORT: RESULT names the target's CSN. -/
def abortAnswer (tag csn target : Nat) (st : Status) : Completion :=
  { Completion.plain 0x41 tag st csn with result := fit (beBytes target 8) 16 }

/-- E_ABORTED_HOST for the command aborted. -/
def abortedTarget (x : Cmd) : Completion := Completion.plain x.opcode x.tag .abortedHost x.csn

/-- Abort an admitted write, at an ABORT of a berth and tag with CSN `csn`: its tag is free and both completions are written
(R125, R131). Where a page of it has begun its transfer, a void marker lands before they are sent (R145, R301). -/
def abortWrite (s : State) (n tag csn : Nat) (x : Cmd) : State :=
  let s := releaseWrite (dropPieces s x.csn) x false
  if x.transferred || transferred s x.csn then
    let s := updCmd s x.csn (fun y => { y with voidFor := some (n, tag, csn), stage := .marking })
    let s := complete s x.berth { abortedTarget x with voidOf := x.csn }
    let s := complete s n { abortAnswer tag csn x.csn .ok with voidOf := x.csn }
    queueMarker s .voidMarker x.csn 0 false
  else
    let s := { s with flash := { s.flash with items := s.flash.items.filter (fun i => i.csn != x.csn) } }
    let s := complete (dropCmd s x.csn) x.berth (abortedTarget x)
    complete s n (abortAnswer tag csn x.csn .ok)

/-- ABORT (R144). -/
def execAbort (berth : Nat) (s : State) : Host.Outcome State Fault Refusal :=
  capsule s berth 0x41 (fun s b _ c =>
    let target := b.tags.find? (fun t => t.tag == c.param)
    let (csn, s) := admitTag s berth c.tag true
    match target with
    | none => complete s berth (abortAnswer c.tag csn 0 .abortTooLate)
    | some t =>
      match (if t.committed then none else s.cmds.find? (fun x => x.csn == t.csn)) with
      | some x => resumeAll (abortWrite s berth c.tag csn x)
      | none => complete s berth (abortAnswer c.tag csn t.csn .abortTooLate))

/-! ### BERTH_RESET (R146, R147) -/

/-- The opcode and tag of the capsules of a berth that are QUEUED or ASSEMBLING, in ring order. -/
def undecided (b : Berth) : List (Nat × Nat) :=
  b.sq.map (fun e => (beAt (fit e.bytes 32) 0 1, beAt (fit e.bytes 32) 2 2)) ++
    (match b.asm with
    | some p => if p.entry then [(beAt (fit p.bytes 32) 0 1, beAt (fit p.bytes 32) 2 2)] else []
    | none => [])

/-- A discarded capsule takes the next CSN and completes with E_ABORTED_RESET. -/
def discardCapsule (n : Nat) (s : State) (x : Nat × Nat) : State :=
  let (csn, s) := takeCsn s
  complete s n (Completion.plain x.1 x.2 .abortedReset csn)

/-- The target's capsules leave its ring; the frames still to come of the one in assembly will be dropped. -/
def clearRing (b : Berth) : Berth :=
  match b.asm with
  | some p => if p.entry then { b with sq := [], asm := none, rx := .dropping } else { b with sq := [] }
  | none => { b with sq := [] }

/-- A reset of berth `n` admitted on berth `source` with CSN `csn`. -/
def resetBerth (s : State) (n source tag csn : Nat) : State :=
  match berthOf s n with
  | none => s
  | some b =>
    let gone := undecided b
    let running := (b.tags.filter (fun t => t.csn != csn)).length
    let r : Resetting := { csn := csn, berth := source, tag := tag, discarded := gone.length, running := running }
    let s := withdraw s (fun q => q.berth == n && !q.reset)
    let s := updBerth s n (fun b => { clearRing b with reset := some r })
    gone.foldl (discardCapsule n) s

/-- BERTH_RESET. -/
def execBerthReset (berth : Nat) (s : State) : Host.Outcome State Fault Refusal :=
  capsule s berth 0x42 (fun s _ m c =>
    let (csn, s) := admitTag s berth c.tag true
    resetBerth s (m.berths.getD (c.param % 16) 16384) berth c.tag csn)

/-- BERTH_RESET_END: every command of the target admitted before the reset has completed. -/
def execBerthResetEnd (berth : Nat) (s : State) : Host.Outcome State Fault Refusal :=
  match berthOf s berth with
  | none => conclude s
  | some b =>
    match b.reset with
    | none => conclude s
    | some r =>
      if b.tags.any (fun t => decide (t.csn < r.csn)) then conclude s
      else
        let s := updBerth s berth (fun b => { b with reset := none })
        let c := { Completion.plain 0x42 r.tag .ok r.csn with
                   result := fit (beBytes r.discarded 2 ++ beBytes r.running 2) 16 }
        conclude (complete s r.berth c)

/-! ### Deferred records (R137, R142) -/

/-- The 32 bytes of a deferred record. -/
def deferredBytes (d : Deferred) : List Byte :=
  beBytes d.csn 8 ++ beBytes d.index 2 ++ beBytes d.tag 2 ++ beBytes d.quay 2 ++ beBytes d.status 2 ++ beBytes d.digest 16

/-- The mask of the indices present. -/
def deferredMask (b : Berth) : Nat := listSum (b.deferreds.map (fun d => 2 ^ d.index))

/-- The answer of DEFERRED_READ. -/
def deferredAnswer (b : Berth) (c : Capsule) (csn : Nat) : Completion :=
  let lo := natBits c.param 5 0
  let hi := lo + natBits c.param 15 8
  let found := sortBy Deferred.index (b.deferreds.filter (fun d => decide (lo ≤ d.index) && decide (d.index < hi)))
  { statusOnly c csn .ok with
    valueLen := 32 * found.length, value := found.flatMap deferredBytes
    result := fit (beBytes (deferredMask b) 8 ++ beBytes b.lostCount 2 ++ beBytes (flag b.overflow) 1) 16 }

/-- DEFERRED_READ. -/
def execDeferredRead (berth : Nat) (s : State) : Host.Outcome State Fault Refusal :=
  capsule s berth 0x43 (fun s b _ c => answerAt s berth c (fun s csn => (s, deferredAnswer b c csn)))

/-- What DEFERRED_ACK leaves of a berth. -/
def ackDeferreds (c : Capsule) (b : Berth) : Berth :=
  let b := { b with deferreds := b.deferreds.filter (fun d => natBits c.param d.index d.index == 0) }
  if c.flags % 2 = 1 then { b with overflow := false, lostCount := 0, unlisted := [] } else b

/-- DEFERRED_ACK: rejected whole when its mask names a free index, or OVERFLOW is to be cleared while it is clear. -/
def execDeferredAck (berth : Nat) (s : State) : Host.Outcome State Fault Refusal :=
  capsule s berth 0x44 (fun s b _ c => answerAt s berth c (fun s csn =>
    if c.param &&& (2 ^ 64 - 1 - deferredMask b) ≠ 0 ∨ (c.flags % 2 = 1 ∧ !b.overflow) then
      (s, statusOnly c csn .state)
    else (updBerth s berth (ackDeferreds c), statusOnly c csn .ok)))

/-! ### Management capsules (R55, R111, R112) -/

/-- A capsule that is served before service opens too, then with CSN 0 (R386). -/
def serveAt (s : State) (n : Nat) (c : Capsule) (run : State → Nat → State × Completion) : State :=
  if serviceOpen s then answerAt s n c run
  else
    let (s, r) := run s 0
    complete s n r

/-- Why a register read is rejected (R44, R55). -/
def readStatus (addr count : Nat) : Option Status :=
  if !pageMapped (addr / 0x1000) || decide (addr % 4 ≠ 0) then some .range
  else if count = 0 ∨ 64 < count ∨ 0x1000 < addr % 0x1000 + 4 * count then some .badLength
  else none

/-- MGMT_READ after its admission. -/
def mgmtRead (s : State) (c : Capsule) (csn : Nat) : State × Completion :=
  let count := c.param % 256
  match readStatus c.segOff count with
  | some st => (recordReject s 0 c.segOff st, statusOnly c csn st)
  | none =>
    let (s, ws) := readRegs false count s c.segOff
    (s, { statusOnly c csn .ok with valueLen := 4 * count, value := ws.flatMap (fun w => beBytes w.toNat 4) })

/-- MGMT_READ. -/
def execMgmtRead (berth : Nat) (s : State) : Host.Outcome State Fault Refusal :=
  capsule s berth 0x50 (fun s _ _ c => serveAt s berth c (fun s csn => mgmtRead s c csn))

/-- MGMT_WRITE: the completion of a mode change that seals, or of a freeze, is sent later. -/
def execMgmtWrite (berth : Nat) (s : State) : Host.Outcome State Fault Refusal :=
  capsule s berth 0x51 (fun s b m c =>
    let (csn, s) := admitTag s berth c.tag true
    let (s, st, waits) := writeRegs s 0 b.mooring m.role c.segOff csn (some (berth, c.tag)) (capsuleWords c)
    if waits then s else complete s berth (statusOnly c csn st))

/-- CAPABILITY. -/
def execCapability (berth : Nat) (s : State) : Host.Outcome State Fault Refusal :=
  capsule s berth 0x52 (fun s _ m c => serveAt s berth c (fun s csn =>
    let v := capability s m.tp.maxPayload m.berths.length m.tp.recvWindow
    (s, { statusOnly c csn .ok with valueLen := 64, value := v })))

/-! ### CSN chunks (R36, R271) -/

/-- CSN_CHUNK_RESERVE: when half of the current chunk has been assigned, the next is recorded; the chunk of RECORD_IDs is
recorded in the same page. -/
def execCsnChunkReserve (s : State) : Host.Outcome State Fault Refusal :=
  match s.flash.chunk with
  | none => conclude s
  | some k =>
    if k * 2 ^ 24 + 2 ^ 23 ≤ s.seqr.next then
      conclude { s with flash := { s.flash with chunk := some (k + 1), recChunk := some (s.space.nextRecord / 2 ^ 24 + 1) } }
    else conclude s

end Sys2Proof.Machine
end

