-- ==== Sys2Proof/Machine/Logbook.lean ====
section
/-! DEFINITION. The logbook at work: LB_READ (R372), LB_CLEAR (R377, R378), word lines and what becomes durable with them
(R364, R373), coalescing (R371), wraps (R375), media failures (R379, R380) and the end of a freeze by time (R374). -/

namespace Sys2Proof.Machine

/-! ### LB_READ (R372) -/

/-- The records of a stream that a read sees: those on flash, or the SRAM ring while the logbook is volatile (R380). -/
def readable (s : State) (ledger : Bool) : List LogRec :=
  if s.log.media = 3 then s.log.staging.filter (fun r => r.ledger == ledger) else (streamOf s ledger).recs

/-- The first available sequence of a stream. -/
def firstAvailable (s : State) (ledger : Bool) : Nat :=
  if s.log.media = 3 then ((readable s ledger).head?.map LogRec.seq).getD 0 else (streamOf s ledger).first

/-- Whole records from the front that fit a number of bytes. -/
def takeRecords : Nat → List LogRec → List LogRec
  | _, [] => []
  | room, r :: rest =>
    if recLength r.payload ≤ room then r :: takeRecords (room - recLength r.payload) rest else []

/-- The answer of LB_READ. -/
def logAnswer (s : State) (c : Capsule) (csn : Nat) : Completion :=
  let ledger := c.flags % 2 == 1
  let all := (readable s ledger).dropWhile (fun r => decide (r.seq < c.param))
  let found := takeRecords c.valueLen all
  let left := all.drop found.length
  let next := match listMin? (left.map LogRec.seq) with
    | some q => q
    | none => if found.isEmpty then c.param else listMax (found.map LogRec.seq) + 1
  let value := found.flatMap recBytes
  let first := firstAvailable s ledger
  { statusOnly c csn .ok with
    flags := flag (decide (c.param < first)) + 2 * flag left.isEmpty, valueLen := value.length, value := value,
    result := beBytes next 8 ++ beBytes first 8 }

/-- LB_READ. -/
def execLbRead (berth : Nat) (s : State) : Host.Outcome State Fault Refusal :=
  capsule s berth 0x53 (fun s _ _ c => serveAt s berth c (fun s csn => (s, logAnswer s c csn)))

/-! ### LB_CLEAR (R377, R378) -/

/-- A clear that passed: the records through LB_NONCE_SEQ are no longer read, and CLEARED is staged. -/
def clearLog (s : State) (slot keyHash : Nat) : State × Nat × Nat :=
  let first := firstAvailable s false
  let last := s.log.nonceSeq
  let keep := fun (r : LogRec) => r.ledger || decide (last < r.seq)
  let g := { s.flash.general with recs := s.flash.general.recs.filter keep, first := max s.flash.general.first (last + 1) }
  let s := { s with flash := { s.flash with general := g } }
  let s : State := if s.log.media = 3 then { s with log := { s.log with staging := s.log.staging.filter keep } } else s
  let s := logRecord s 6 (src 4 0) true
    (leBytes first 8 ++ leBytes last 8 ++ leBytes slot 1 ++ zeroBytes 7 ++ beBytes (keyHash / 2 ^ 320) 8)
  (raise s 3 3, first, last)

/-- The completion of a clear whose CLEARED record is durable. -/
def clearDone (s : State) (w : Nat × Nat × Nat × Nat × Nat) : State :=
  complete s w.1 { Completion.plain 0x54 w.2.1 .ok w.2.2.1 with result := beBytes w.2.2.2.1 8 ++ beBytes w.2.2.2.2 8 }

/-- LB_CLEAR: `keyHash` is the SHA-384 of the public key it carries, and `sigOk` tells whether its signature verifies over m. -/
def execLbClear (berth keyHash : Nat) (sigOk : Bool) (s : State) : Host.Outcome State Fault Refusal :=
  capsule s berth 0x54 (fun s _ _ c =>
    let (csn, s) := admitTag s berth c.tag true
    let fresh : Bool := match s.log.nonce with
      | some n => decide (s.sessionUs < n.issuedAt + 60000000)
      | none => false
    let s := { s with log := { s.log with nonce := none } }
    if !fresh then complete s berth (statusOnly c csn .state)
    else match (enabledRoots s).find? (fun r => r.2 == keyHash) with
      | none => complete s berth (statusOnly c csn .auth)
      | some (slot, _) =>
        if !sigOk then complete s berth (statusOnly c csn .auth)
        else
          let (s, first, last) := clearLog s slot keyHash
          let w := (berth, c.tag, csn, first, last)
          if s.log.media = 3 then clearDone s w
          else { s with log := { s.log with clearWait := s.log.clearWait ++ [w] } })

/-! ### Durability -/

/-- Staged records that a freeze makes durable. -/
def beforeFreeze (s : State) : Bool := s.log.staging.any (fun r => decide (r.seq ≤ s.log.frozenSeq))

/-- Staged records of a type. -/
def stagedOf (s : State) (typ : Nat) : Nat := (s.log.staging.filter (fun r => r.typ == typ)).length

/-- What waited for records to be durable: a freeze, clears, and mount, which follows the boot record (R373, R378, R385).
In the volatile ring a record is as durable as it can be. -/
def afterFlush (s : State) : State :=
  let ring := s.log.media == 3
  let s : State := match s.log.freezeWait with
    | some w => if ring || !beforeFreeze s then registerDone { s with log := { s.log with freezeWait := none } } w .ok else s
    | none => s
  let done := if ring then s.log.clearWait else s.log.clearWait.take (s.log.clearWait.length - stagedOf s 6)
  let s := { s with log := { s.log with clearWait := s.log.clearWait.drop done.length } }
  let s := done.foldl clearDone s
  if s.boot.stage = .stageTwo ∧ 0 < s.boot.bootSeq ∧ (ring || stagedOf s 0x100 == 0) then
    let s := { s with boot := { s.boot with stage := .mounting, mountBegan := s.sessionUs },
                      seqr := { s.seqr with stopped := false } }
    setPhase s 1
  else s

/-- The places of the written copies of a logbook block (R363). -/
def logPlaces (s : State) (b : LogBlock) : List Nat :=
  let p := copyPlaces b.fallback b.block
  [p.1, p.2].filter (fun k => !copyRetired s k b.block)

/-- The global number of the block that holds a copy of a logbook block. -/
def logBlockAt (b : LogBlock) (k : Nat) : Nat :=
  4096 * logDies.getD k 0 + (if b.fallback then 1020 + b.block else b.block / 2 / 4 * 1024 + 1020 + b.block / 2 % 4)

/-- The blocks that hold the written copies of a logbook block, by their global numbers. -/
def logCopies (s : State) (b : LogBlock) : List Nat := (logPlaces s b).map (logBlockAt b)

/-- The code of a copy in IDENT (R364), by its place. -/
def copyCode (k : Nat) : Nat := if k < 2 then 0 else if k < 4 then 1 else k - 2

/-- The records of a word line by page, as packLine lays them out. -/
def linePages : List LogRec → Nat → List (List LogRec)
  | [], _ => [[]]
  | r :: rest, used =>
    let len := (recLength r.payload + 7) / 8 * 8
    let fits := decide (used + len ≤ 16384)
    match linePages rest (if fits then used + len else len) with
    | p :: ps => if fits then (r :: p) :: ps else [] :: (r :: p) :: ps
    | [] => [[r]]

/-- The data area of a page of the logbook: each record on an 8-byte boundary, and zeros after them (R364). -/
def logData (rs : List LogRec) : List Byte := rs.flatMap (fun r => fit (recBytes r) ((recLength r.payload + 7) / 8 * 8))

/-- The spare metadata of a page of the logbook (R364): stripe position by its channel, and no row, set or CSN. -/
def logMeta (s : State) (ledger : Bool) (rs : List LogRec) (b : LogBlock) (k : Nat) : PageMeta :=
  let x := blockOf s (logBlockAt b k)
  { typ := if ledger then 8 else 7, pflags := 2 * flag x.firstCycle, position := 4096 * stripePos (logDies.getD k 0), set := 0, csn := 0,
    ident := (rs.head?.map LogRec.seq).getD 0 + 2 ^ 64 * rs.length + 2 ^ 80 * copyCode k + 2 ^ 88 * b.block +
      2 ^ 96 * ((streamOf s ledger).wraps % 2 ^ 32),
    eraseCount := x.erases }

/-- The three pages of the word line that a stream wrote last are programmed, in the written copies of its block. -/
def putLogLine (s : State) (ledger : Bool) (line : List LogRec) : State := match (streamOf s ledger).blocks.getLast? with
  | none => s
  | some b =>
    let first := 3 * ((streamOf s ledger).lines - 1)
    let pages := (logPlaces s b).flatMap (fun k => (List.range 3).map (fun j =>
      let rs := (linePages line 0).getD j []
      (4096 * logBlockAt b k + first + j, Page.of (logMeta s ledger rs b k) (logData rs))))
    { s with flash := { s.flash with logPages := pages.foldl (fun t p => tabPut t p.1 p.2) s.flash.logPages } }

/-- A word line of the stream whose record was staged first is programmed and confirmed. -/
def flushLine (s : State) (ledger : Bool) : State :=
  let x := streamOf s ledger
  let (packed, rest) := packLine ledger s.log.staging 0 0
  let y := takeWordLine s ledger
  let block := (y.blocks.getLast?.map LogBlock.use).getD 0
  let line := (packed.map (fun r => { r with block := block })).filter (fun r => ledger || decide (x.first ≤ r.seq))
  let first := if x.recs.isEmpty ∧ x.first = 0 then (line.head?.map LogRec.seq).getD 0 else x.first
  let y := { y with recs := x.recs ++ line, first := first }
  putLogLine (setStream { s with log := { s.log with staging := rest } } ledger y) ledger packed

/-- The program of the word line that a stream wrote last is counted, on both copies (R247). -/
def countLine (s : State) (ledger : Bool) : State := match (streamOf s ledger).blocks.getLast? with
  | some b => (logCopies s b).foldl (fun s g => countProgram s (dieOfBlock g)) s
  | none => s

/-- LOG_FLUSH (R364); nothing is programmed before hold-up ready (R464), nor where the line has failed already (R379). -/
def execLogFlush (s : State) : Host.Outcome State Fault Refusal :=
  if !flushDue s || !s.power.holdUpReady then conclude s
  else match s.log.staging with
    | [] => conclude (afterFlush s)
    | r :: _ =>
      if needsWrap s r.ledger || lineLost s r.ledger then conclude s
      else conclude (afterFlush (countLine (flushLine s r.ledger) r.ledger))

/-- COALESCED (R371, step 4). -/
def execCoalesced (s : State) : Host.Outcome State Fault Refusal :=
  let l := s.log
  if 3584 ≤ l.staging.length ∨ 1835008 ≤ stagedBytes l.staging then conclude s
  else
    let s := { s with log := { l with coalesce := [], dropped := 0, droppedCritical := 0 } }
    let s := l.coalesce.foldl (fun s c =>
      logRecord s 3 (src 4 0) false (leBytes c.typ 2 ++ leBytes c.source 2 ++ leBytes c.count 4)) s
    conclude (if l.dropped = 0 then s
      else logRecord s 4 (src 4 0) true (leBytes l.dropped 4 ++ leBytes l.droppedCritical 4))

/-! ### Wrap (R375) -/

/-- Boot numbers of boot records, and the digest of the last of them. -/
def bootAnchor (rs : List LogRec) : List Byte :=
  let boots := rs.filter (fun r => r.typ == 0x100)
  let num := fun (r : Option LogRec) => (r.map (fun r => leAt r.payload 0 4)).getD 0
  let digest := match boots.getLast? with
    | some r => beBytes (Config.sha384 (recBytes r)) 48
    | none => zeroBytes 48
  leBytes (num boots.head?) 4 ++ leBytes (num boots.getLast?) 4 ++ digest

/-- The block that a stream gives up: its oldest in the region being written that has a copy left, so that it can be written
again. -/
def oldestBlock (s : State) (ledger : Bool) : Option LogBlock :=
  (streamOf s ledger).blocks.find? (fun b => b.fallback == (s.log.media == 2) && blockRemains s b.fallback b.block)

/-- The copies of a block of the region are erased. -/
def eraseCopies (s : State) (b : LogBlock) : State :=
  let gone := logCopies s b
  let pages := s.flash.logPages.filter (fun p => !gone.contains (p.1 / 4096))
  gone.foldl eraseMirrored { s with flash := { s.flash with logPages := pages } }

/-- The oldest block of a stream in the region being written is erased, once a record naming its content is staged. -/
def wrapStream (s : State) (ledger : Bool) : State :=
  let x := streamOf s ledger
  match oldestBlock s ledger with
  | none => s
  | some old =>
    let gone := x.recs.filter (fun r => r.block == old.use)
    let keep := x.recs.filter (fun r => r.block != old.use)
    let lo := (listMin? (gone.map LogRec.seq)).getD 0
    let hi := listMax (gone.map LogRec.seq)
    let body := leBytes lo 8 ++ leBytes hi 8 ++ (if ledger then bootAnchor gone else zeroBytes 56)
    let s := logRecord s (if ledger then 0x101 else 7) (src 4 0) ledger body ledger
    let first := if gone.isEmpty then x.first else max x.first (hi + 1)
    let y := { x with recs := keep, blocks := x.blocks.filter (fun b => b != old), first := first, wraps := x.wraps + 1 }
    let s := setStream s ledger y
    let s := eraseCopies s old
    if ledger then raise s 3 5 else s

/-- WRAPPED. While a freeze holds, no block is erased, but for what was staged before it. -/
def execWrapped (ledger : Bool) (s : State) : Host.Outcome State Fault Refusal :=
  if s.log.media = 3 ∨ !s.power.holdUpReady ∨ (s.log.frozen.isSome ∧ s.log.freezeWait.isNone) then conclude s
  else if needsWrap s ledger && s.log.staging.any (fun r => r.ledger == ledger) then
    conclude (wrapStream s ledger)
  else conclude s

/-! ### Media failures (R379, R380) -/

/-- The place of a die in that list. -/
def logDieIndex (die : Nat) : Nat := logDies.findIdx (fun d => d == die)

/-- LOG_MEDIA_FAILED goes ahead of the records of the failed word line, which are written again with their numbers. -/
def mediaRecord (s : State) (stage copy block : Nat) (ledger : Bool) : State :=
  let (line, _) := packLine ledger s.log.staging 0 0
  let lo := (line.head?.map LogRec.seq).getD 0
  let hi := (line.getLast?.map LogRec.seq).getD 0
  let r : LogRec := { seq := s.log.nextSeq, typ := 8, source := src 4 0, flags := 1, ledger := ledger,
                      payload := leBytes stage 1 ++ leBytes copy 1 ++ leBytes block 1 ++ leBytes (flag ledger) 1 ++
                        leBytes lo 8 ++ leBytes hi 8,
                      createdAt := s.sessionUs, block := 0 }
  { s with log := { s.log with nextSeq := s.log.nextSeq + 1, staging := r :: s.log.staging } }

/-- A copy of a logbook block is retired. -/
def retireCopy (s : State) (k b : Nat) : State :=
  if copyRetired s k b then s else { s with flash := { s.flash with logRetired := s.flash.logRetired ++ [(k, b)] } }

/-- Writing continues in the fallback region, with both copies of the failed block retired. -/
def toFallback (s : State) (block : Nat) (ledger : Bool) : State :=
  let s := retireCopy (retireCopy s (block % 2) block) (block % 2 + 2) block
  raise (mediaRecord { s with log := { s.log with media := 2 } } 2 0 block ledger) 3 1

/-- Writing continues in the SRAM ring. -/
def toVolatile (s : State) (block : Nat) (ledger : Bool) : State :=
  let s := mediaRecord (retireCopy (retireCopy s 4 block) 5 block) 3 2 block ledger
  let ring := s.log.staging.map (fun r => { r with flags := r.flags ||| 4 })
  let s := { s with log := { s.log with media := 3, unacked := true, staging := ring } }
  raise (afterFlush s) 3 0

/-- A program failure of one copy: its block is retired and its logical block is written single from then on; a block
already single has no other copy. -/
def oneCopyFailed (s : State) (k block : Nat) (ledger : Bool) : State :=
  let other := if k < 2 then k + 2 else k - 2
  if copyRetired s other block then toFallback s block ledger
  else
    let s := mediaRecord (retireCopy s k block) 1 (k / 2) block ledger
    { s with log := { s.log with media := if s.log.media = 0 then 1 else s.log.media } }

/-- LOG_MEDIA_FAILED (R379): the word line that is due fails to program, in a copy that is still written or in both. -/
def execLogMediaFailed (f : LineFail) (s : State) : Host.Outcome State Fault Refusal :=
  match s.log.staging with
  | [] => conclude s
  | r :: _ =>
    if !flushDue s || !s.power.holdUpReady then conclude s
    else match f with
      | .oneCopy die block =>
        let k := logDieIndex die
        if s.log.media ≤ 1 ∧ lineBlock s r.ledger = some block ∧ (k = block % 2 ∨ k = block % 2 + 2) ∧ !copyRetired s k block
        then conclude (oneCopyFailed s k block r.ledger) else conclude s
      | .bothCopies block => if s.log.media ≤ 1 ∧ lineBlock s r.ledger = some block then conclude (toFallback s block r.ledger) else conclude s
      | .fallback block => if s.log.media = 2 ∧ lineBlock s r.ledger = some block then conclude (toVolatile s block r.ledger) else conclude s

/-! ### Freeze -/

/-- FREEZE_TIMEOUT (R374). -/
def execFreezeTimeout (s : State) : Host.Outcome State Fault Refusal :=
  match s.log.frozen with
  | none => conclude s
  | some f =>
    if f.since + 1000000 * fieldOf s A.LB_FREEZE 15 0 ≤ s.sessionUs then conclude (endFreeze s f.owner 2) else conclude s

end Sys2Proof.Machine
end

