-- ==== Sys2Proof/Machine/Fuses.lean ====
section
/-! DEFINITION. The one-time-programmable rows of dies 0 and 512 (R244 to R246): the image that the boot ROM forms of the two copies,
and the steps in which a field is programmed into one copy and then the other. -/

namespace Sys2Proof.Machine

/-- What a copy's seed cells read as: ones once the boot ROM has handed over (R245). -/
def seedRead (s : State) (r : OtpRow) : Nat := if s.boot.stage = .rom then r.seed else 2 ^ 256 - 1

/-- Bytes 0x000 to 0x03F of a copy. -/
def factoryBytes (s : State) (r : OtpRow) : List Byte :=
  leBytes r.magic 4 ++ leBytes r.hwType 2 ++ leBytes r.format 2 ++ leBytes r.serial 8 ++ leBytes r.lot 8 ++ leBytes r.macBase 6 ++
    [0xFF, 0xFF] ++ leBytes (seedRead s r) 32

/-- FACTORY_CRC of a copy verifies. -/
def factoryOk (s : State) (r : OtpRow) : Bool := crc32c (factoryBytes s r) == r.factoryCrc

/-- The copy that gives the factory fields: none where both verify and differ, or neither verifies. -/
def factoryCopy (s : State) : Option OtpRow :=
  let a := s.flash.row0
  let b := s.flash.row512
  match factoryOk s a, factoryOk s b with
  | true, true => if factoryBytes s a = factoryBytes s b then some a else none
  | true, false => some a
  | false, true => some b
  | false, false => none

/-- A ROOT slot of a copy whose CRC verifies. -/
def rootOf (r : OtpRow) (k : Nat) : Option Nat := match r.roots[k]? with
  | some (h, c) => if crc32c (beBytes h 48) = c then some h else none
  | none => none

/-- Both copies of a ROOT slot verify and differ. -/
def rootSplit (s : State) (k : Nat) : Bool := match rootOf s.flash.row0 k, rootOf s.flash.row512 k with
  | some a, some b => a != b
  | _, _ => false

/-- A ROOT slot of the image: empty where the copies disagree. -/
def rootImage (s : State) (k : Nat) : Option Nat :=
  if rootSplit s k then none else (rootOf s.flash.row0 k).orElse (fun _ => rootOf s.flash.row512 k)

/-- Bits that at least one copy has programmed, of a field `n` bits wide: an unprogrammed bit reads 1. -/
def programmed (n a b : Nat) : Nat := (2 ^ n - 1) ^^^ ((a &&& b) % 2 ^ n)

/-- The image of R245; none, and boot stops. -/
def otpImage (s : State) : Option Otp :=
  (factoryCopy s).map (fun r =>
    let back := programmed 128 s.flash.row0.rollback s.flash.row512.rollback
    let line := programmed 8 s.flash.row0.lineage s.flash.row512.lineage
    let debug := programmed 8 s.flash.row0.debug s.flash.row512.debug
    { serial := r.serial, lot := r.lot, macBase := r.macBase, roots := (List.range 4).map (rootImage s),
      secVersion := if back = 0 then 0 else Nat.log2 back + 1, chosen := line % 2 == 1, lineage := line / 2 % 2 == 1,
      debug := debug % 8 })

/-- The raw LINEAGE byte: an unprogrammed bit reads 1 (R244). -/
def lineageByte (o : Otp) : Nat := 0xFF - flag o.chosen - 2 * flag o.lineage

/-- The raw DEBUG byte. -/
def debugByte (o : Otp) : Nat := 0xFF - o.debug % 8

/-- The cells of a copy once everything that an image counts as programmed is programmed in it: programming clears bits, and none is
ever set again. -/
def burn (o : Otp) (r : OtpRow) : OtpRow :=
  { r with
    roots := ((List.range 4).zip r.roots).map (fun p => match o.roots.getD p.1 none with
      | some h => (p.2.1 &&& h, p.2.2 &&& crc32c (beBytes h 48))
      | none => p.2)
    rollback := r.rollback ^^^ (r.rollback &&& (2 ^ o.secVersion - 1))
    lineage := r.lineage &&& lineageByte o
    debug := r.debug &&& debugByte o }

/-- A field is programmed in die 0 and read back, and then in die 512: where the readback differs, it is die 512 that has not taken it
(DESIGN CHOICE: log entry 173), and the next boot completes the step (R246). -/
def burnRows (s : State) (o : Otp) (readbackOk : Bool) : State :=
  { s with flash := { s.flash with row0 := burn o s.flash.row0, row512 := if readbackOk then burn o s.flash.row512 else s.flash.row512 } }

end Sys2Proof.Machine
end

