-- ==== Sys2Proof/Machine/Identity.lean ====
section
/-! DEFINITION. What proves the drive's identity and opens its keys: quotes (R398 to R400, R475), the unlock (R354, R402)
and requests for the OTP (R403). -/

namespace Sys2Proof.Machine

/-! ### Quotes -/

/-- MR0 to MR7 as they stand. -/
def mrBytes (s : State) : List Byte := s.boot.mr.flatMap (fun m => beBytes m 48)

/-- The 208-byte quote (R399). -/
def quoteOf (s : State) (nonce : List Byte) : List Byte :=
  let body := leBytes 0x51544539 4 ++ leBytes s.boot.bootNumber 4 ++ leBytes s.flash.otp.serial 8 ++
    leBytes s.boot.bootSeq 8 ++ leBytes s.sessionUs 8 ++ fit nonce 32 ++ beBytes (Config.sha384 (mrBytes s)) 48
  let m := Config.sha384 (ascii "FLT-Q" ++ body)
  body ++ signWith s.boot.keyStore.ak m

/-- QUOTE (R398). -/
def execQuote (berth : Nat) (s : State) : Host.Outcome State Fault Refusal :=
  capsule s berth 0x55 (fun s _ _ c => serveAt s berth c (fun s csn =>
    if keysPresent s then
      (s, { statusOnly c csn .ok with valueLen := 592, value := quoteOf s c.value ++ mrBytes s })
    else (s, statusOnly c csn .keyLost)))

/-- The sideband serves: the controller runs and stage two has begun (R385). -/
def sidebandUp (s : State) : Bool := live s && s.boot.stage != .none && s.boot.stage != .rom && s.boot.stage != .stoppedOtp

/-- A transfer addressed to the drive is answered: it has a dynamic address (R472). -/
def addressed (s : State) : Bool := sidebandUp s && s.sideband.dynamicAddr.isSome

/-- A sideband transfer is discarded and counted (R475). -/
def rejectTransfer (s : State) : State := bump s (A.BW_REJ_COUNT + 28)

/-- QUOTE_REQ (R400, R475). -/
def execQuoteReq (nonce : List Byte) (s : State) : Host.Outcome State Fault Refusal :=
  if !addressed s then conclude s
  else if nonce.length ≠ 32 then conclude (rejectTransfer s)
  else if s.boot.quoteBusy then conclude { s with boot := { s.boot with quoteIgnored := sat (s.boot.quoteIgnored + 1) 16 } }
  else
    let boot := { s.boot with quoteBusy := true, quoteReady := false, quoteFailed := false, quoteNonce := nonce }
    conclude { s with boot := boot }

/-- SIDEBAND_QUOTE_READY (R400): the quote is signed and placed in its window, or fails with a zeroised key store. -/
def execSidebandQuoteReady (s : State) : Host.Outcome State Fault Refusal :=
  if !s.boot.quoteBusy then conclude s
  else if keysPresent s then
    let q := quoteOf s s.boot.quoteNonce
    let boot := { s.boot with quoteBusy := false, quoteReady := true, quoteFailed := false, quoteBytes := q }
    conclude { s with boot := boot }
  else
    let boot := { s.boot with quoteBusy := false, quoteReady := false, quoteFailed := true, quoteBytes := [] }
    conclude { s with boot := boot }

/-! ### Unlock -/

/-- A key record fails to unwrap: its slot stays SEALED (R354). -/
def unwrapFailed (s : State) (r : KeyRecord) : State :=
  logRecord s 0x61 (src 7 0) true (leBytes r.slot 2 ++ leBytes r.kind 1)

/-- A key record unwraps into its slot, which becomes LIVE. -/
def unwrapSlot (s : State) (r : KeyRecord) : State :=
  updSlot s r.slot (fun x => { x with st := .live, key := r.key, indexKey := r.indexKey, shadows := r.shadows })

/-- The steps of R354 for an unlock that passed: the KEK is derived from the secret; `fails` are the slots whose record does not
unwrap. -/
def unlockSlots (s : State) (mooring : Nat) (secret : List Byte) (fails : List Nat) : State × Nat × Nat :=
  let kek := kekOf (s.cipher.wrapBase.getD []) secret
  let rs := s.flash.keyRecords.map Prod.snd
  let bad := rs.filter (fun r => fails.contains r.slot)
  let good := rs.filter (fun r => !fails.contains r.slot)
  let s := good.foldl unwrapSlot s
  let s := bad.foldl unwrapFailed s
  let s := { s with flash := { s.flash with verifier := s.flash.verifier.orElse (fun _ => some (verifierBytes kek)) },
                    cipher := { s.cipher with locked := false, kek := some kek },
                    boot := { s.boot with unlockFails := 0 } }
  let s := logRecord s 0x62 (src 7 0) true (leBytes mooring 2 ++ leBytes good.length 4)
  (raise s 6 1, good.length, bad.length)

/-- A failed unlock is counted, and its back-off begins. -/
def unlockFailed (s : State) : State :=
  { s with boot := { s.boot with unlockFails := s.boot.unlockFails + 1, unlockFailAt := s.sessionUs,
                                 unlockTotal := sat (s.boot.unlockTotal + 1) 16 } }

/-- UNLOCK (R402): `verifierOk` tells whether the verifier unwraps under the KEK that the secret derives. -/
def execUnlock (berth : Nat) (verifierOk : Bool) (unwrapFails : List Nat) (s : State) : Host.Outcome State Fault Refusal :=
  capsule s berth 0x56 (fun s b _ c => answerAt s berth c (fun s csn =>
    if s.cipher.meshTripped ∨ ¬s.cipher.locked then (s, statusOnly c csn .state)
    else if s.flash.verifier.isSome ∧ ¬verifierOk then (unlockFailed s, statusOnly c csn .auth)
    else if s.cipher.alarm = .settle then (s, statusOnly c csn .keyLost)
    else
      let (s, live, bad) := unlockSlots s b.mooring c.value unwrapFails
      (s, { statusOnly c csn .ok with result := fit (beBytes live 4 ++ beBytes bad 2) 16 })))

/-! ### OTP requests -/

/-- Why an OTP_REQUEST fails (R403). -/
def otpStatus (s : State) (c : Capsule) : Option Status :=
  if c.param % 4 = 1 then
    let slot := beAt c.value 0 1
    let hash := beAt c.value 4 48
    if 3 < slot ∨ hash = 2 ^ 384 - 1 ∨ (rootSlots s).contains (some hash) then some .range
    else if ((rootSlots s).getD slot none).isSome then some .state
    else none
  else
    let mask := beAt c.value 0 1
    if mask = 0 ∨ 7 < mask then some .range else none

/-- Store a request for stage two: a later enrolment of a slot replaces the earlier, fuse masks are joined. -/
def otpStore (s : State) (c : Capsule) : State :=
  if c.param % 4 = 1 then
    let slot := beAt c.value 0 1
    let rest := s.flash.otpRoots.filter (fun r => r.1 != slot)
    { s with flash := { s.flash with otpRoots := rest ++ [(slot, beAt c.value 4 48)] } }
  else { s with flash := { s.flash with otpDebug := s.flash.otpDebug ||| beAt c.value 0 1 } }

/-- OTP_REQUEST. -/
def execOtpRequest (berth : Nat) (s : State) : Host.Outcome State Fault Refusal :=
  capsule s berth 0x57 (fun s _ _ c => answerAt s berth c (fun s csn =>
    match otpStatus s c with
    | some st => (s, statusOnly c csn st)
    | none => (otpStore s c, statusOnly c csn .ok)))

end Sys2Proof.Machine
end

