-- ==== Sys2Proof/Machine/Update.lean ====
section
/-! DEFINITION. Updates: the manifest (R408, R409), staging (R411 to R413), the checks of an application (R415), arming
(R418), and the phases of an activation (R419 to R425) with their records (R428). -/

namespace Sys2Proof.Machine

/-! ### The manifest (R408, R409) -/

/-- A part entry, at an offset of the manifest. -/
def partEntryAt (v : List Byte) (off : Nat) : PartEntry :=
  { partId := leAt v off 2, pflags := leAt v (off + 2) 2, version := leAt v (off + 4) 4, deltaOffset := leAt v (off + 8) 4,
    deltaLength := leAt v (off + 12) 4, baseDigest := beAt v (off + 16) 48, resultDigest := beAt v (off + 64) 48 }

/-- The part entries of a manifest. -/
def manifestParts (v : List Byte) : List PartEntry :=
  (List.range (leAt v 0x10 1)).map (fun j => partEntryAt v (32 + 112 * j))

/-- The length that a manifest's counts give it. -/
def manifestLength (v : List Byte) : Nat := 32 + 112 * leAt v 0x10 1 + 8 * leAt v 0x11 1 + 196

/-- An ASCII letter. -/
def letter (n : Nat) : Bool := inRange n 0x41 0x5A || inRange n 0x61 0x7A

/-- Two deltas do not overlap. -/
def deltasApart (a b : PartEntry) : Bool :=
  decide (a.deltaOffset + a.deltaLength ≤ b.deltaOffset) || decide (b.deltaOffset + b.deltaLength ≤ a.deltaOffset)

/-- The deltas of a list of parts are pairwise apart. -/
def allApart : List PartEntry → Bool
  | [] => true
  | p :: rest => rest.all (deltasApart p) && allApart rest

/-- Parts in ascending PART_ID, none twice. -/
def ascending : List PartEntry → Bool
  | p :: q :: rest => decide (p.partId < q.partId) && ascending (q :: rest)
  | _ => true

/-- The last check of UP_OPEN (R412). -/
def manifestStatus (v : List Byte) : Option Status :=
  let parts := manifestParts v
  let after := manifestLength v - 196
  let total := leAt v 0x14 4
  if v.length < 32 ∨ v.length ≠ manifestLength v then some .badLength
  else if leAt v 0x0B 1 ≥ 8 ∨ leAt v 0x0F 1 ≠ 0 ∨ leAt v 0x13 1 ≠ 0 ∨ leAt v 0x18 8 ≠ 0 ∨ leAt v (after + 97) 3 ≠ 0 ∨
      parts.any (fun p => decide (2 ≤ p.pflags)) then some .reservedBits
  else if leAt v 0 4 = 0x4D464B39 ∧ leAt v 4 2 = 1 ∧ letter (leAt v 8 1) ∧ letter (leAt v 9 1) ∧ leAt v 8 1 ≤ leAt v 9 1 ∧
      leAt v 0x0A 1 ≤ 128 ∧ inRange (leAt v 0x10 1) 1 6 ∧ leAt v 0x11 1 ≤ 64 ∧ leAt v 0x12 1 ≤ 3 ∧
      inRange total 1 (2 ^ 28 - v.length) ∧ ascending parts ∧ allApart parts ∧
      parts.all (fun p => inRange p.partId 1 6 && decide (p.deltaOffset + p.deltaLength ≤ total) &&
        !(p.pflags == 1 && p.baseDigest != 0)) then none
  else some .range

/-- The manifest that bytes spell. -/
def manifestOf (v : List Byte) : Manifest :=
  let flags := leAt v 0x0B 1
  let serialsAt := 32 + 112 * leAt v 0x10 1
  { hwType := leAt v 6 2, revMin := leAt v 8 1, revMax := leAt v 9 1, secVersion := leAt v 0x0A 1,
    cold := flags % 2 == 1, atPowerOn := flags / 2 % 2 == 1, raiseFloor := flags / 4 % 2 == 1,
    release := leAt v 0x0C 4, parts := manifestParts v,
    serials := (List.range (leAt v 0x11 1)).map (fun k => leAt v (serialsAt + 8 * k) 8),
    rootSlot := leAt v 0x12 1, deltaTotal := leAt v 0x14 4, digest := Config.sha384 v,
    bytes := v }

/-- PUBKEY of a manifest. -/
def manifestKey (x : Manifest) : List Byte := (x.bytes.drop (x.bytes.length - 196)).take 97

/-- SIG verifies over every byte before it. -/
def manifestSigOk (x : Manifest) : Bool :=
  Config.sigVerifies (manifestKey x) (x.bytes.take (x.bytes.length - 96)) (x.bytes.drop (x.bytes.length - 96))

/-- MFLAGS. -/
def mflags (m : Manifest) : Nat := flag m.cold + 2 * flag m.atPowerOn + 4 * flag m.raiseFloor

/-! ### Staging (R412, R413) -/

/-- Another mooring holds the staging lock. -/
def heldByOther (s : State) (m : Nat) : Bool := s.update.st == .staging && s.update.owner != m

/-- The mooring holds the staging lock. -/
def heldBy (s : State) (m : Nat) : Bool := s.update.st == .staging && s.update.owner == m

/-- The checks of UP_OPEN. -/
def upOpenStatus (s : State) (m : Nat) (c : Capsule) : Option Status :=
  if 128 ≤ s.flash.otp.secVersion then some .rollback
  else if heldByOther s m then some .stagingHeld
  else if s.update.st ≠ .empty ∧ s.update.st ≠ .staged then some .state
  else if s.update.st = .staged ∧ c.flags % 2 = 0 then some .state
  else manifestStatus c.value

/-- A committed set is discarded (R412): UPDATE_ABANDONED names the mooring that does it. -/
def discardCommitted (s : State) (m cause : Nat) : State :=
  let u := s.update
  let s := { s with update := { u with st := .empty, owner := 0, manifest := none, staged := 0, cohort := 0,
                                       switchMs := 0, deadline := 0 },
                    flash := { s.flash with update := none, deltas := [] } }
  logRecord s 0x0071 (src 5 0) true (leBytes m 2 ++ leBytes cause 1 ++ [0] ++ leBytes u.staged 4)

/-- The lock is claimed and the manifest stored. -/
def openStaging (s : State) (m : Nat) (v : List Byte) : State :=
  let s := if s.update.st = .staged then discardCommitted s m 4 else s
  { s with update := { s.update with st := .staging, owner := m, manifest := some (manifestOf v), staged := 0,
                                     lastAccepted := s.sessionUs },
           flash := { s.flash with deltas := [] } }

/-- UP_OPEN. -/
def execUpOpen (berth : Nat) (s : State) : Host.Outcome State Fault Refusal :=
  capsule s berth 0x58 (fun s b _ c => answerAt s berth c (fun s csn =>
    match upOpenStatus s b.mooring c with
    | some st => (s, statusOnly c csn st)
    | none => (openStaging s b.mooring c.value, statusOnly c csn .ok)))

/-- DELTA_TOTAL of the staged set. -/
def deltaTotal (s : State) : Nat := match s.update.manifest with
  | some m => m.deltaTotal
  | none => 0

/-- The checks of UP_WRITE. -/
def upWriteStatus (s : State) (m : Nat) (c : Capsule) : Option Status :=
  if heldByOther s m then some .stagingHeld
  else if !heldBy s m then some .state
  else if c.segOff ≠ s.update.staged then some .range
  else if deltaTotal s < c.segOff + c.valueLen then some .badLength
  else none

/-- UP_WRITE: RESULT gives the bytes staged. -/
def execUpWrite (berth : Nat) (s : State) : Host.Outcome State Fault Refusal :=
  capsule s berth 0x59 (fun s b _ c => answerAt s berth c (fun s csn =>
    match upWriteStatus s b.mooring c with
    | some st => (s, statusOnly c csn st)
    | none =>
      let n := s.update.staged + c.valueLen
      ({ s with update := { s.update with staged := n, lastAccepted := s.sessionUs },
                flash := { s.flash with deltas := s.flash.deltas ++ c.value } },
        { statusOnly c csn .ok with result := fit (beBytes n 4) 16 })))

/-- The checks of UP_COMMIT. -/
def upCommitStatus (s : State) (m : Nat) : Option Status :=
  if heldByOther s m then some .stagingHeld
  else if !heldBy s m then some .state
  else if s.update.staged ≠ deltaTotal s then some .badLength
  else none

/-- The set is committed and the lock released: UPDATE_STAGED. -/
def commitStaging (s : State) (x : Manifest) (m : Nat) : State :=
  let s := { s with update := { s.update with st := .staged, owner := 0 }, flash := { s.flash with update := some x } }
  let pay := leBytes m 2 ++ [0, 0] ++ leBytes x.release 4 ++ leBytes x.secVersion 1 ++ leBytes (mflags x) 1 ++
    leBytes x.parts.length 1 ++ leBytes x.serials.length 1 ++ leBytes x.deltaTotal 4 ++ beBytes x.digest 48
  raise (raise (logRecord s 0x0070 (src 5 0) true pay) 4 0) 4 5

/-- UP_COMMIT: RESULT gives the first 16 bytes of the manifest's digest. -/
def execUpCommit (berth : Nat) (s : State) : Host.Outcome State Fault Refusal :=
  capsule s berth 0x5A (fun s b _ c => answerAt s berth c (fun s csn =>
    match upCommitStatus s b.mooring, s.update.manifest with
    | some st, _ => (s, statusOnly c csn st)
    | none, none => (s, statusOnly c csn .state)
    | none, some x =>
      (commitStaging s x b.mooring, { statusOnly c csn .ok with result := (beBytes x.digest 48).take 16 })))

/-- The checks of UP_ABANDON. -/
def upAbandonStatus (s : State) (m : Nat) : Option Status :=
  if heldByOther s m then some .stagingHeld
  else if heldBy s m ∨ s.update.st = .staged ∨ s.update.st = .armed then none
  else some .state

/-- UP_ABANDON. -/
def execUpAbandon (berth : Nat) (s : State) : Host.Outcome State Fault Refusal :=
  capsule s berth 0x5B (fun s b _ c => answerAt s berth c (fun s csn =>
    match upAbandonStatus s b.mooring with
    | some st => (s, statusOnly c csn st)
    | none =>
      let s := if s.update.st = .staging then abandonStaging s 1 else discardCommitted s b.mooring 1
      (s, statusOnly c csn .ok)))

/-- STAGING_LOCK_TIMEOUT: 10 minutes without an accepted UP_OPEN or UP_WRITE. -/
def execStagingLockTimeout (s : State) : Host.Outcome State Fault Refusal :=
  if s.update.st = .staging ∧ s.update.lastAccepted + 600000000 ≤ s.sessionUs then conclude (abandonStaging s 2)
  else conclude s

/-! ### Arming and firing (R418, R419) -/

/-- The checks of UP_ARM. -/
def upArmStatus (s : State) : Option Status :=
  match s.update.st, s.update.manifest with
  | .staged, some x => if x.cold ∨ s.phase ≠ 2 then some .state else none
  | _, _ => some .state

/-- The activation is armed: UPDATE_ARMED. -/
def armUpdate (s : State) (m cohort switchMs seconds : Nat) : State :=
  let d := s.sessionUs + 1000000 * seconds
  let s := { s with update := { s.update with st := .armed, cohort := cohort, switchMs := switchMs, deadline := d } }
  let dig := match s.update.manifest with
    | some x => x.digest
    | none => 0
  raise (logRecord s 0x0072 (src 5 0) true
    (leBytes m 2 ++ [0, 0] ++ leBytes cohort 4 ++ leBytes switchMs 2 ++ [0, 0] ++ leBytes d 8 ++ beBytes dig 48)) 4 1

/-- UP_ARM. -/
def execUpArm (berth : Nat) (s : State) : Host.Outcome State Fault Refusal :=
  capsule s berth 0x5C (fun s b _ c => answerAt s berth c (fun s csn =>
    match upArmStatus s with
    | some st => (s, statusOnly c csn st)
    | none => (armUpdate s b.mooring (c.param % 2 ^ 32) (natBits c.param 47 32) c.segOff, statusOnly c csn .ok)))

/-- UP_DISARM. -/
def execUpDisarm (berth : Nat) (s : State) : Host.Outcome State Fault Refusal :=
  capsule s berth 0x5D (fun s _ _ c => answerAt s berth c (fun s csn =>
    if s.update.st = .armed then (disarm s 2, statusOnly c csn .ok) else (s, statusOnly c csn .state)))

/-- ARMING_DEADLINE: the arming lapses. -/
def execArmingDeadline (s : State) : Host.Outcome State Fault Refusal :=
  if s.update.st = .armed ∧ s.update.deadline ≤ s.sessionUs then conclude (disarm s 1) else conclude s

/-- What a trigger that names a cohort does: it fires the armed activation, changes nothing when the activation that it
names has already fired, or is ignored and counted. The answer says whether it was heeded. -/
def fireCohort (s : State) (cohort : Nat) : State × Bool :=
  if s.update.st = .armed ∧ s.update.cohort = cohort ∧ s.sessionUs < s.update.deadline then
    let at_ := s.sessionUs + 1000 * s.update.switchMs
    let s := { s with update := { s.update with st := .preparing, switchAt := at_ } }
    let was := s.pstate.cur
    if 2 ≤ was then
      let s := setPState s 1
      ({ s with pstate := { s.pstate with excursion := some was } }, true)
    else (s, true)
  else if activating s ∧ s.update.cohort = cohort then (s, true)
  else ({ s with update := { s.update with trigIgnored := sat (s.update.trigIgnored + 1) 32 } }, false)

/-- UP_TRIGGER. -/
def execUpTrigger (berth : Nat) (s : State) : Host.Outcome State Fault Refusal :=
  capsule s berth 0x5E (fun s _ _ c => answerAt s berth c (fun s csn =>
    let r := fireCohort s (c.param % 2 ^ 32)
    (r.1, statusOnly c csn (if r.2 then .ok else .state))))

/-! ### Applying a set (R415, R416) -/

/-- MO_ROOT_SLOTS.ENABLE of the installed base. -/
def installedRoots (s : State) : Word :=
  let es := match s.flash.config.installed with
    | some b => imgEntries b
    | none => []
  es.foldl (fun w e => if entryAddr e = A.MO_ROOT_SLOTS then (w &&& ~~~e.mask) ||| (e.value &&& e.mask) else w)
    (regDefault A.MO_ROOT_SLOTS)

/-- REVISION of the installed base, 0 when none is installed. -/
def installedRevision (s : State) : Nat := match s.flash.config.installed with
  | some b => imgRevision b
  | none => 0

/-! ### Banks and markers (R406, R407) -/

/-- The image of a part in a bank: bytes and a version, with no page layout, which R406 does not give (DESIGN CHOICE: log entry 203). -/
def imageOf (s : State) (bank part : Nat) : Image :=
  tabGetD s.flash.images (8 * bank + part) ⟨Config.factoryVersion bank part, Config.factoryImage bank part⟩

/-- The image of a part in the active bank; of part 6, the installed base. -/
def partImage (s : State) (part : Nat) : Image :=
  if part = 6 then (match s.flash.config.installed with
    | some b => ⟨65536 * imgSchema b + imgRevision b, b.bytes⟩
    | none => ⟨0, []⟩)
  else imageOf s s.flash.banks.active part

/-- The blocks of a bank, 1,020 and 1,021 of plane 0, in its primary and its mirror. -/
def bankBlocks (bank : Nat) : List Nat :=
  [0, 32].flatMap (fun ch => [1020, 1021].map (blockNo (16 * (16 * bank + ch) + 13) 0))

/-- The four copies of a marker block. -/
def markerBlocks (k : Nat) : List Nat := [0, 16, 32, 48].map (fun ch => blockNo (16 * ch + 13) 0 (1022 + k))

/-- The pages of a block in SLC mode (R225). -/
def markerPages : Nat := 1365

/-- The data area of a marker before its zeros. -/
def markerBytes (b : Banks) : List Byte :=
  let head := leBytes 0x424B4D39 4 ++ leBytes b.active 1 ++ [0, 0, 0] ++ leBytes b.generation 4 ++ leBytes b.switchBoot 4 ++
    leBytes b.release 4 ++ beBytes b.setDigest 48
  head ++ leBytes (crc32c head) 4

/-- The spare metadata of a marker: an SLC page of TYPE 0x09 (R229) outside the sets (DEDUCED: log entry 204). -/
def markerMeta (s : State) (g : Nat) : PageMeta :=
  let x := blockOf s g
  { typ := 9, pflags := 1 + 2 * flag x.firstCycle, position := 4096 * stripePos (dieOfBlock g), set := 0, csn := 0, ident := 0,
    eraseCount := x.erases }

/-- The marker that a page holds, where it is intact; the page tells its block and the next free page. -/
def markerAt (p : Nat × Page) : Option Banks :=
  let v := p.2.data
  if leAt v 0 4 = 0x424B4D39 ∧ leAt v 0x44 4 = crc32c (v.take 0x44) then
    some { active := leAt v 4 1, generation := leAt v 8 4, switchBoot := leAt v 0xC 4, release := leAt v 0x10 4,
           setDigest := beAt v 0x14 48, block := p.1 / 4096 % 1024 - 1022, page := p.1 % 4096 + 1 }
  else none

/-- The intact marker with the highest GENERATION found in any copy; where no marker has been written since, the factory's. -/
def newestMarker (s : State) : Banks :=
  (s.flash.markers.filterMap markerAt).foldl (fun m b => if m.generation < b.generation then b else m) s.flash.banks

/-- A marker goes to the next free page of the current marker block in all four copies; when that block is full, the other one is erased
and takes it at its page 0. -/
def writeMarker (s : State) (b : Banks) : State :=
  let full := decide (markerPages ≤ s.flash.banks.page)
  let k := if full then 1 - s.flash.banks.block else s.flash.banks.block
  let page := if full then 0 else s.flash.banks.page
  let blocks := markerBlocks k
  let s : State := if full then
      let kept := s.flash.markers.filter (fun p => !blocks.contains (p.1 / 4096))
      blocks.foldl eraseMirrored { s with flash := { s.flash with markers := kept } }
    else s
  let put := fun (t : Tab Page) g => tabPut t (4096 * g + page) (Page.of (markerMeta s g) (markerBytes b))
  let s := blocks.foldl (fun s g => countProgram s (dieOfBlock g)) s
  { s with flash := { s.flash with banks := { b with block := k, page := page + 1 }, markers := blocks.foldl put s.flash.markers } }

/-- The largest image of a part (R405). -/
def largestImage (partId : Nat) : Nat := match partId with
  | 1 => 16 * 2 ^ 20 | 2 => 48 * 2 ^ 20 | 3 => 4 * 2 ^ 20 | 4 => 2 * 2 ^ 20 | 5 => 8 * 2 ^ 20 | _ => 65536

/-- The operations of a delta, applied to a base image after `acc` bytes of the result (R410): none where one fails. -/
def runDelta (base : List Byte) (limit : Nat) : Nat → List Byte → List Byte → Option (List Byte)
  | 0, _, _ => none
  | _ + 1, [], _ => none
  | fuel + 1, code :: rest, acc =>
    if code = 0 then if rest.isEmpty then some acc else none
    else if code = 1 then
      let src := leAt rest 0 4
      let n := leAt rest 4 4
      if rest.length < 8 ∨ base.length < src + n ∨ limit < acc.length + n then none
      else runDelta base limit fuel (rest.drop 8) (acc ++ (base.drop src).take n)
    else if code = 2 then
      let n := leAt rest 0 4
      if rest.length < 4 + n ∨ limit < acc.length + n then none
      else runDelta base limit fuel (rest.drop (4 + n)) (acc ++ (rest.drop 4).take n)
    else none

/-- What a part's staged delta makes of its image in the active bank; a whole image has no base. -/
def partResult (s : State) (p : PartEntry) : Option (List Byte) :=
  let delta := (s.flash.deltas.drop p.deltaOffset).take p.deltaLength
  if delta.length < p.deltaLength then none
  else runDelta (if p.pflags % 2 = 1 then [] else (partImage s p.partId).bytes) (largestImage p.partId) (delta.length + 1) delta []

/-- The first part whose delta fails or whose result differs from RESULT_DIGEST. -/
def deltaFail (s : State) : List PartEntry → Option Nat
  | [] => none
  | p :: ps =>
    match partResult s p with
    | some out => if Config.sha384 out = p.resultDigest then deltaFail s ps else some p.partId
    | none => some p.partId

/-- The new base of a set: what the delta of part 6 makes. -/
def newBaseOf (s : State) (x : Manifest) (r : ApplyReport) : Option BaseImage :=
  (x.parts.find? (fun p => p.partId == 6)).bind (fun p =>
    (partResult s p).map (fun out => { readable := true, bytes := out, roles := r.roles }))

/-- The first entry whose BASE_DIGEST is not that of the part's image in the active bank. -/
def baseMismatch (s : State) (ps : List PartEntry) : Option Nat :=
  (ps.find? (fun p => p.pflags % 2 == 0 && Config.sha384 (partImage s p.partId).bytes != p.baseDigest)).map PartEntry.partId

/-- Parts that take effect only at a power-on (R405). -/
def coldPart (p : PartEntry) : Bool := p.partId == 1 || p.partId == 5 || p.partId == 6

/-- REVISION and SCHEMA of a new base, within check 7. -/
def newBaseStatus (s : State) (x : Manifest) (r : ApplyReport) : Option (Status × Nat) :=
  if x.parts.any (fun p => p.partId == 6) then
    match newBaseOf s x r with
    | some b => match baseVerdict s (imgSchema b) b with
      | some (st, _) => some (st, 6)
      | none =>
      if imgRevision b ≤ installedRevision s then some (.rollback, 6)
      else if imgSchema b ≠ r.newSchema then some (.binding, 6)
      else none
    | none => none
  else none

/-- The checks of R415, in order: the status and the part of the first that fails. -/
def applyStatus (s : State) (x : Manifest) (r : ApplyReport) (prepare : Bool) : Option (Status × Nat) :=
  if !r.readable then some (.media, 0)
  else if (rootSlots s).getD x.rootSlot none ≠ some (Config.sha384 (manifestKey x)) ∨
      !bit (installedRoots s) x.rootSlot ∨ !manifestSigOk x then
    some (.auth, 0)
  else if x.hwType ≠ 0x9256 ∨ 0x42 < x.revMin ∨ x.revMax < 0x42 ∨
      (x.serials ≠ [] ∧ !x.serials.contains s.flash.otp.serial) then some (.binding, 0)
  else if x.secVersion < s.flash.otp.secVersion then some (.rollback, 0)
  else match baseMismatch s x.parts with
    | some p => some (.binding, p)
    | none =>
      match deltaFail s x.parts with
      | some p => some (.integrity, p)
      | none =>
        (r.imageFail.orElse fun _ => newBaseStatus s x r).orElse fun _ =>
          if prepare ∧ (x.cold ∨ x.parts.any coldPart ∨ !r.handoverOk) then some (.binding, 0)
          else if !r.programOk then some (.media, 0)
          else none

/-- UP_LAST. -/
def lastWord (status phase part : Nat) : Word := pack [(status, 16, 16), (phase, 12, 4), (part, 8, 4)]

/-- An application ends in failure (R415, R421): UPDATE_FAILED, the set kept or discarded. -/
def failUpdate (s : State) (x : Manifest) (status phase part : Nat) (keep : Bool) : State :=
  let u := s.update
  let n := sat (u.failures + 1) 16
  let u := { u with cohort := 0, switchMs := 0, deadline := 0, switchAt := 0, phase := .none, sealed := false, failures := n,
                    last := lastWord status phase part, otpFailed := false, held := [] }
  let u := if keep then { u with st := .staged } else { u with st := .empty, manifest := none, staged := 0 }
  let s := { s with update := u, flash := { s.flash with update := if keep then s.flash.update else none,
                                                         deltas := if keep then s.flash.deltas else [] } }
  raise (logRecord s 0x0074 (src 5 0) true
    (leBytes status 2 ++ leBytes phase 1 ++ leBytes part 1 ++ beBytes x.digest 48)) 4 4

/-- The image of a part in the new bank: what its delta makes, or, of a part that is not listed, the active bank's. -/
def newImage (s : State) (x : Manifest) (part : Nat) : Image := match x.parts.find? (fun p => p.partId == part) with
  | some p => ⟨p.version, (partResult s p).getD []⟩
  | none => partImage s part

/-- Check 9 overwrites the inactive bank once the checks before it have passed: its blocks are erased and hold the images of the new set,
and the previous copy of the base is lost (R415). The new base is put in force by the commit (R70). -/
def overwriteBank (s : State) (x : Manifest) (r : ApplyReport) (prepare : Bool) : State :=
  if (applyStatus s x { r with programOk := true } prepare).isNone then
    let k := 1 - s.flash.banks.active
    let images := [1, 2, 3, 4, 5].foldl (fun t p => tabPut t (8 * k + p) (newImage s x p)) s.flash.images
    let s := (bankBlocks k).foldl eraseMirrored s
    { s with flash := { s.flash with images := images, config := { s.flash.config with previous := none } } }
  else s

/-- PREPARE (R420): the checks of R415 end before the switch time. -/
def execPrepare (r : ApplyReport) (s : State) : Host.Outcome State Fault Refusal :=
  match s.update.st, s.update.manifest with
  | .preparing, some x =>
    if s.update.switchAt ≤ s.sessionUs then conclude s
    else
      let verdict := applyStatus s x r true
      let s := overwriteBank s x r true
      match verdict with
      | some (st, part) => conclude (failUpdate s x (statusCode st) 2 part false)
      | none => conclude { s with update := { s.update with st := .prepared } }
  | _, _ => conclude s

/-- SWITCH_TIME (R420, R421): the barrier is raised and the drive-scope seal begins, or the activation fails. -/
def execSwitchTime (s : State) : Host.Outcome State Fault Refusal :=
  if s.sessionUs < s.update.switchAt then conclude s
  else match s.update.st, s.update.manifest with
    | .preparing, some x => conclude (failUpdate s x (statusCode .retry) 2 0 true)
    | .prepared, some _ =>
      let u := { s.update with st := .switching, phase := .draining, sealed := false, barrierAt := s.sessionUs }
      let s := { s with update := u, seqr := { s.seqr with barrier := true } }
      conclude (beginSeal s { csn := s.seqr.next, scope := 2, quay := 0, berth := 16384, purpose := .activation })
    | _, _ => conclude s

/-- Every admitted command has completed. -/
def allComplete (s : State) : Bool := s.cmds.isEmpty && s.berths.all (fun p => p.2.tags.isEmpty)

/-- Steps 1 and 2 of R416: the bank marker, and the OTP floor. The bank left keeps the base that was installed in it (R70). -/
def commitSet (s : State) (x : Manifest) (switchBoot : Nat) (otpOk : Bool) : State :=
  let b := s.flash.banks
  let b' := { b with active := 1 - b.active, generation := b.generation + 1, switchBoot := switchBoot,
                     release := x.release, setDigest := x.digest }
  let raiseIt := x.raiseFloor && decide (s.flash.otp.secVersion < x.secVersion)
  let otp := if raiseIt then { s.flash.otp with secVersion := x.secVersion } else s.flash.otp
  let config := { s.flash.config with previous := s.flash.config.installed }
  let s := if raiseIt then burnRows s otp otpOk else s
  let s := writeMarker s b'
  { s with flash := { s.flash with otp := otp, config := config },
           update := { s.update with prevRelease := b.release, prevDigest := b.setDigest,
                                     otpFailed := raiseIt && !otpOk } }

/-- DRAIN (R420): admitted commands have completed and the seal has ended, so the set is committed. -/
def execDrain (otpOk : Bool) (s : State) : Host.Outcome State Fault Refusal :=
  match s.update.phase, s.update.manifest with
  | .draining, some x =>
    if s.update.sealed ∧ allComplete s ∧ s.sessionUs ≤ s.update.barrierAt + 1000 * fieldOf s A.UP_BUDGET 9 0 then
      let s := commitSet s x 0 otpOk
      conclude { s with update := { s.update with phase := .committed } }
    else conclude s
  | _, _ => conclude s

/-- The barrier is lowered after units have restarted: admission goes on at the first CSN of the chunk after the highest
recorded reservation (R36, R422). -/
def lowerBarrier (s : State) : State :=
  let s := { s with update := { s.update with pauseUs := s.sessionUs - s.update.barrierAt } }
  let k := match s.flash.chunk with
    | some k => k + 1
    | none => 0
  { s with seqr := { s.seqr with barrier := false, next := k * 2 ^ 24 }, flash := { s.flash with chunk := some k } }

/-- DRAIN_BUDGET (R421): the activation ends without a commit. -/
def execDrainBudget (s : State) : Host.Outcome State Fault Refusal :=
  match s.update.phase, s.update.manifest with
  | .draining, some x =>
    if s.update.barrierAt + 1000 * fieldOf s A.UP_BUDGET 9 0 ≤ s.sessionUs then
      let s := { s with seqr := { s.seqr with barrier := false },
                        seals := s.seals.filter (fun q => q.purpose != .activation),
                        update := { s.update with pauseUs := s.sessionUs - s.update.barrierAt } }
      conclude (failUpdate s x (statusCode .retry) 3 0 true)
    else conclude s
  | _, _ => conclude s

/-- Extend a measurement register (R391). -/
def extendMr (mr : List Nat) (k digest : Nat) : List Nat :=
  mr.set k (Config.sha384 (beBytes (mr.getD k 0) 48 ++ beBytes digest 48))

/-- A signature of the AK. -/
def akSignature (s : State) (digest : Nat) : List Byte := signWith s.boot.keyStore.ak digest

/-- A record's header as it will stand (R365), for a record that is created now. -/
def nextHeader (s : State) (typ len source : Nat) : List Byte :=
  leBytes s.log.nextSeq 8 ++ leBytes typ 2 ++ leBytes len 2 ++ leBytes source 2 ++
    leBytes (1 + 2 * flag s.log.frozen.isSome) 1 ++ [0]

/-- The mask of the listed parts. -/
def partsMask (x : Manifest) : Nat := x.parts.foldl (fun m p => m ||| 2 ^ p.partId) 0

/-- The payload of UPDATE_ACTIVATED (R425) before its signature. -/
def activatedBody (s : State) (x : Manifest) : List Byte :=
  leBytes s.boot.bootNumber 4 ++ leBytes s.update.activations 2 ++ leBytes (flag s.update.otpFailed) 2 ++
    leBytes x.release 4 ++ leBytes s.flash.otp.secVersion 4 ++ beBytes x.digest 48 ++ beBytes s.boot.chainDigest 48 ++
    leBytes (partsMask x) 8 ++ mrBytes s

/-- UPDATE_ACTIVATED is written to the ledger, and the chain goes on from it. -/
def logActivated (s : State) (x : Manifest) : State :=
  let body := activatedBody s x
  let m := Config.sha384 (ascii "FLT-UA" ++ nextHeader s 0x0075 0x026C (src 5 0) ++ body)
  let pay := body ++ akSignature s m
  let r : LogRec := { seq := s.log.nextSeq, typ := 0x0075, source := src 5 0, flags := 1 + 2 * flag s.log.frozen.isSome,
                      payload := pay, ledger := true, createdAt := s.sessionUs, block := 0 }
  let s := { s with boot := { s.boot with chainDigest := Config.sha384 (recBytes r) } }
  logRecord s 0x0075 (src 5 0) true pay true

/-- UPDATE_APPLIED (R428). -/
def logApplied (s : State) (x : Manifest) (phase pauseUs : Nat) : State :=
  logRecord s 0x0076 (src 5 0) true (leBytes phase 1 ++ leBytes s.flash.banks.active 1 ++ [0, 0] ++
    leBytes s.flash.banks.generation 4 ++ leBytes x.release 4 ++ leBytes pauseUs 4 ++ beBytes x.digest 48)

/-- The index dies reload (R422): the hot-key banks are dropped and the rule entries rebuilt. -/
def reloadIndex (s : State) (x : Manifest) : State :=
  if x.parts.any (fun p => p.partId == 4) then
    rebuildRules { s with index := { s.index with hot := [] } }
  else s

/-- The staged set is gone and the state is empty. -/
def clearUpdate (s : State) : State :=
  let u := { s.update with st := .empty, manifest := none, staged := 0, cohort := 0, switchMs := 0, deadline := 0,
                           switchAt := 0, phase := .none, sealed := false, otpFailed := false, held := [] }
  { s with update := u, flash := { s.flash with update := none, deltas := [] } }

/-- A successful restart (R425). -/
def finishActivation (s : State) (x : Manifest) : State :=
  let mr := x.parts.foldl (fun mr p => extendMr mr (p.partId - 1) p.resultDigest) s.boot.mr
  let s := { reloadIndex s x with boot := { s.boot with mr := mr } }
  let s := { s with update := { s.update with activations := sat (s.update.activations + 1) 16 } }
  let s := lowerBarrier (logActivated s x)
  let s := logApplied s x 5 s.update.pauseUs
  let s := clearUpdate s
  raise { s with update := { s.update with last := lastWord 0 5 0 } } 4 3

/-- The channel sequencers can reload where they are listed: no die operation is running (R422). -/
def mayReload (s : State) (x : Manifest) : Bool := !x.parts.any (fun p => p.partId == 3) || s.dies.all (fun d => d.2.op == 0)

/-- RESTART: the listed units run their new images, or one of them fails to start. -/
def execRestart (partFailed : Option Nat) (s : State) : Host.Outcome State Fault Refusal :=
  match s.update.phase, s.update.manifest with
  | .committed, some x =>
    if !mayReload s x then conclude s else (match partFailed with
    | none => conclude (finishActivation s x)
    | some p =>
      if x.parts.any (fun e => e.partId == p) then
        conclude { s with update := { s.update with phase := .reverting, failedPart := p } }
      else conclude s)
  | _, _ => conclude s

/-- REVERT (R424): a marker names the old bank again, and the set is discarded. The spec gives no status for a unit that
fails to start: the record and UP_LAST carry a free one. -/
def execRevert (s : State) : Host.Outcome State Fault Refusal :=
  match s.update.phase, s.update.manifest with
  | .reverting, some x =>
    let b := s.flash.banks
    let b' := { b with active := 1 - b.active, generation := b.generation + 1, switchBoot := 0,
                       release := s.update.prevRelease, setDigest := s.update.prevDigest }
    let s := reloadIndex (writeMarker s b') x
    let part := s.update.failedPart
    let (w, s) := takeFree (lowerBarrier s)
    conclude (failUpdate s x (bits w 15 0) 5 part false)
  | _, _ => conclude s

end Sys2Proof.Machine
end

