-- ==== Sys2Proof/Machine/Campaign.lean ====
section
/-! DEFINITION. Campaigns (R251, R252, R256): how a stripe plane drains, becomes held, asks for dry dock position by
position, and returns its planes. -/

namespace Sys2Proof.Machine

/-- The plane number, 4 × die + plane, of a campaign's stripe position. -/
def campPlane (c : Campaign) (pos : Nat) : Nat := 4 * (stripeDies c.stripe).getD pos 0 + c.plane

/-- CA_CTRL.PAUSE: campaigns stop at their next step boundary. -/
def paused (s : State) : Bool := bit (regGet s A.CA_CTRL) 31

/-- The campaign whose stripe plane a plane belongs to. -/
def campaignAt (s : State) (p : Nat) : Option Campaign :=
  s.careen.campaigns.find? (fun c => c.stripe == stripeOf (p / 4) && c.plane == p % 4)

/-- Change the campaign of a stripe. -/
def updCampaign (s : State) (stripe : Nat) (f : Campaign → Campaign) : State :=
  { s with careen := { s.careen with campaigns := s.careen.campaigns.map (fun c => if c.stripe = stripe then f c else c) } }

/-- The maintenance engine requests dry dock for a die and plane (R253). -/
def requestDock (s : State) (die plane : Nat) : State :=
  updDock s die (fun x => { x with phase := 1, plane := plane, since := s.sessionUs, aborted := false })

/-- A plane's blocks return to the free pool, those at their threshold apart (R252, R256). A plane that can be careened no
more reads no-careen. -/
def planeReturn (s : State) (p : Nat) : State :=
  let worn := s.flash.blocks.any (fun b => planeOfBlock b.1 == p && !b.2.bad && !b.2.retired &&
    decide (fieldOf s A.CA_TRIGGER 15 0 ≤ b.2.wear))
  let lost := s.flash.failedHeaters.contains p || (worn && failedInStripe s (stripeOf (p / 4)) != 0)
  let s := updPlane s p (fun x => { x with st := if lost then 3 else 0 })
  let s := { s with careen := { s.careen with docks := tabErase s.careen.docks (p / 4) } }
  giveBlocks s (freeInPlane s p)

/-- No block of the stripe plane holds data or waits for its erase (R252, step 3). -/
def evacuated (s : State) (c : Campaign) : Bool :=
  !s.flash.sets.any (fun x => x.1 / 1024 == 4 * c.stripe + c.plane) &&
    !s.flash.blocks.any (fun b => b.2.unfinished && !b.2.bad && !b.2.retired && planeOfBlock b.1 % 4 == c.plane &&
      stripeOf (dieOfBlock b.1) == c.stripe)

/-- A held campaign goes on to its next position: planes that can be careened no more are passed over, the next die's dry
dock is requested, and after position 15 has returned the campaign ends. -/
def nextPosition : Nat → State → Campaign → State
  | 0, s, _ => s
  | fuel + 1, s, c =>
    if 16 ≤ c.position then
      if (List.range 16).all (fun k => (planeOf s (campPlane c k)).st != 2) then
        let rest := s.careen.campaigns.filter (fun x => x.stripe != c.stripe)
        raise { s with careen := { s.careen with campaigns := rest } } 9 0
      else s
    else if paused s then s
    else
      let p := campPlane c c.position
      let c' := { c with position := c.position + 1 }
      let k := dockOf s (p / 4)
      if (1 ≤ k.phase ∧ k.phase ≤ 6) ∨ k.aborted then s
      else if (planeOf s p).st ≠ 2 then nextPosition fuel (updCampaign s c.stripe (fun _ => c')) c'
      else if s.flash.failedHeaters.contains p then
        nextPosition fuel (planeReturn (updCampaign s c.stripe (fun _ => c')) p) c'
      else requestDock s (p / 4) c.plane

/-- A campaign reviewed: an evacuated stripe plane becomes held, and a held one goes on. -/
def reviewCampaign (s : State) (c : Campaign) : State :=
  if c.step = 1 then
    if evacuated s c && !paused s then
      let s := (List.range 16).foldl (fun s k => updPlane s (campPlane c k) (fun x => { x with st := 2 })) s
      let c' := { c with step := 2, position := 0 }
      nextPosition 18 (updCampaign s c.stripe (fun _ => c')) c'
    else s
  else nextPosition 18 s c

/-- Every campaign reviewed. -/
def reviewCampaigns (s : State) : State := s.careen.campaigns.foldl reviewCampaign s

/-- What becomes of one position when its campaign ends because a die of the stripe failed (R256): one that was heated is
verified, one that was not returns its blocks; a docked one leaves through its abort. -/
def endPosition (c : Campaign) (s : State) (pos : Nat) : State :=
  let p := campPlane c pos
  let k := dockOf s (p / 4)
  if (planeOf s p).st ≠ 1 ∧ (planeOf s p).st ≠ 2 then s
  else if 2 ≤ k.phase then s
  else if k.heated then updDock s (p / 4) (fun x => { x with phase := 7, next := 0, verified := 0, retired := 0 })
  else planeReturn s p

/-- The campaign of a stripe ends because a die of it has failed. -/
def endCampaign (s : State) (stripe : Nat) : State :=
  let mine := s.careen.campaigns.filter (fun c => c.stripe == stripe)
  let rest := s.careen.campaigns.filter (fun c => c.stripe != stripe)
  let s := { s with careen := { s.careen with campaigns := rest } }
  mine.foldl (fun s c => (List.range 16).foldl (endPosition c) s) s

end Sys2Proof.Machine
end

