-- ==== Sys2Proof/Machine/Faults.lean ====
section
/-! DEFINITION. What a lasting fault does to its unit (R22, R23, R221, R234, R240, R286, R382), the handshake watchdog
(R26) and the DRAM scrub (R28). -/

namespace Sys2Proof.Machine

/-! ### Engines (R22, R23) -/

/-- Moorings whose home pilot (R20) is lost are torn down (R114, cause 0x03). -/
def loseHomed (s : State) (pilot : Nat) : State :=
  s.moorings.foldl (fun s p => if p.1 % 8 = pilot then teardown s p.1 3 else s) s

/-- The highest-numbered healthy command engine takes a place of another role. -/
def replaceEngine (s : State) (role place : Nat) : State :=
  match (healthy s 1).getLast? with
  | some r => updEngine s r (fun e => { e with role := some (role, place) })
  | none => s

/-- The commands that an engine held are reissued on another (R22, R26). -/
def reissueCmds (s : State) (n : Nat) : State :=
  let mine := engineCmds s n
  let s := bumpBy s (0x50060 + 0x1000 * n) mine.length
  mine.foldl (fun s c =>
    let e := dispatchEngine s
    { s with cmds := s.cmds.map (fun d => if d.csn = c.csn then { d with engine := e } else d) }) s

/-- An engine is deconfigured (R22). -/
def engineOut (s : State) (n : Nat) : State :=
  if (engineOf s n).deconfigured then s
  else
    let r := roleOf s n
    let s := raise (updEngine s n (fun e => { e with deconfigured := true, testing := false })) (0x50 + n) 1
    let s := reissueCmds s n
    let s : State :=
      if r.1 = 0 then loseHomed (replaceEngine s 0 r.2) r.2
      else if r.1 = 2 ∧ (healthy s 2).length < 12 then replaceEngine s 2 r.2
      else if r.1 = 3 ∧ (healthy s 3).length < 4 then replaceEngine s 3 r.2
      else s
    if (healthy s 1).length < 16 then permanentMaintenance s else s

/-! ### Flash (R234, R240, R286) -/

/-- The pages that `p` names can be neither read nor reconstructed: the items on them keep which. -/
def loseItems (s : State) (p : Nat → Bool) : State :=
  { s with flash := { s.flash with items := s.flash.items.map (fun i =>
      if i.kind = .value then { i with badPages := (i.badPages ++ (i.spans.map Span.page).filter p).dedup } else i) } }

/-- A die is marked failed (R234): its stripe forms no new sets, and its hull parity rebuild begins (R286, R500). With a
second failed die in the stripe, the pages of both are lost. -/
def dieOut (s : State) (d : Nat) : State :=
  if s.flash.failedDies.contains d then s
  else
    let st := stripeOf d
    let s := { s with flash := { s.flash with failedDies := d :: s.flash.failedDies } }
    let s := updDie s d (fun x => { x with st := 3, op := 0 })
    let s := { s with careen := { s.careen with docks := tabErase s.careen.docks d } }
    let s := endCampaign s st
    let s := (stripeDies st).foldl (fun s x =>
      if x ≠ d ∧ (dieOf s x).st = 2 then updDie s x (fun y => { y with st := 0, op := 0, calDue := true }) else s) s
    let s := logRecord s 0x0041 (src 14 (chanOf d)) true (leBytes d 2 ++ leBytes (failedInStripe s st) 1)
    let s := raise s (0x10 + chanOf d) 0
    let s : State := if 2 ≤ failedInStripe s st then
        loseItems s (fun pg => stripeOf (dieOfBlock (pg / 4096)) == st && s.flash.failedDies.contains (dieOfBlock (pg / 4096)))
      else s
    let moves := s.flash.sets.any (fun x => x.1 / 4096 == st)
    let s := { s with mode := { s.mode with hull := if moves then (st :: s.mode.hull).dedup else s.mode.hull, rebuild := true } }
    reviewRebuild (recomputeLife (autoMode s 4 8 [0]))

/-- A plane is retired whole: its blocks leave allocation and count as retired (row 10 of R382). -/
def planeOut (s : State) (p : Nat) : State :=
  if (planeOf s p).gone then s
  else
    let mine := s.flash.blocks.filter (fun b => planeOfBlock b.1 == p)
    let out := (mine.filter (fun b => b.2.bad || b.2.retired)).length
    let free := freeInPlane s p
    let s := updPlane s p (fun x => { x with gone := true, retired := 1024 - (mine.filter (fun b => b.2.bad)).length })
    let s := { s with flash := { s.flash with retired := s.flash.retired + (1024 - out) } }
    recomputeLife (takeBlocks s free)

/-- Count an occurrence of row 10 and take its action. -/
def planeFault (s : State) (p : Nat) : State :=
  let (s, lasting) := faultOccur s 10 p 0
  if lasting then planeOut s p else s

/-- Count an occurrence against a die (row 9) and take its action. -/
def dieFault (s : State) (d : Nat) : State :=
  let (s, lasting) := faultOccur s 9 d 0
  if lasting then dieOut s d else s

/-- A block is retired (R240, R258): BLOCK_RETIRED, and an occurrence against its plane. The spec gives the record's cause
no codes: it carries a free one. `free` tells that the block stood in the free pool. -/
def retireBlock (s : State) (b : Nat) (free : Bool) : State :=
  let x := blockOf s b
  if x.retired ∨ x.bad then s
  else
    let s := updBlock s b (fun x => { x with retired := true, unfinished := false })
    let s := { s with flash := { s.flash with retired := s.flash.retired + 1 } }
    let s := if free then takeBlocks s 1 else s
    let s := updPlane s (planeOfBlock b) (fun p => { p with retired := p.retired + 1 })
    let (w, s) := takeFree s
    let s := logRecord s 0x0042 (src 14 (chanOf (dieOfBlock b))) false
      (leBytes (dieOfBlock b) 2 ++ leBytes (b / 1024 % 4) 1 ++ leBytes (bits w 7 0) 1 ++ leBytes (b % 1024) 2 ++
        leBytes x.erases 4)
    recomputeLife (planeFault s (planeOfBlock b))

/-- A block has failed for good (row 11): the fault is lasting at once, and its action retires the block. -/
def blockFault (s : State) (b : Nat) (free : Bool) : State :=
  let (s, lasting) := faultOccur s 11 b 0
  if lasting then retireBlock s b free else s

/-! ### Heaters (R261, R382) -/

/-- A heater has failed: its plane is no-careen. -/
def heaterOut (s : State) (p : Nat) : State :=
  if s.flash.failedHeaters.contains p then s
  else
    let s := { s with flash := { s.flash with failedHeaters := p :: s.flash.failedHeaters } }
    recomputeLife (raise (updPlane s p (fun x => { x with st := 3 })) 9 2)

/-- Count an occurrence against a heater (row 12) and take its action. -/
def heaterFault (s : State) (p : Nat) : State :=
  let (s, lasting) := faultOccur s 12 p 0
  if lasting then heaterOut s p else s

/-! ### Aborts (R256) -/

/-- The row of an abort's cause in the table of R256. -/
def abortRow : AbortCause → Nat
  | .overTemp => 1 | .sensorFailed => 2 | .dieHot => 3 | .withdrawn => 4 | .dieFailed => 5

/-- The heater goes off and the die cools. -/
def abortCareen (s : State) (die : Nat) (cause : AbortCause) : State :=
  let k := dockOf s die
  let t := s.sessionUs
  let s := updDock s die (fun x => { x with phase := 5, since := t, pulses := pulsesDone s x, overran := false, aborted := true, retryAt := t + 10000000 })
  let s := bump s A.CA_ABORTS
  let s := raise (logRecord s 0x0045 (src 10 0) false (leBytes die 2 ++ leBytes k.plane 1 ++ leBytes (abortRow cause) 1)) 9 1
  if cause = .overTemp then heaterFault s (4 * die + k.plane) else s

/-- A die's pulse train is under way: its dry dock is granted, and no cool has begun. -/
def inTrain (k : Dock) : Bool := decide (2 ≤ k.phase) && decide (k.phase ≤ 4)

/-- Every dry-dock grant is withdrawn (R320). -/
def withdrawDocks (s : State) : State :=
  ((s.careen.docks.filter (fun p => inTrain p.2)).map Prod.fst).foldl (fun s d => abortCareen s d .withdrawn) s

/-! ### Ports, channels, pipelines -/

/-- A port is held down until power-on (row 2). -/
def portOut (s : State) (p : Port) : State :=
  linkDown (setLink s p { linkOf s p with heldDown := true }) p

/-- Every die of a channel is marked failed (row 1). -/
def channelOut (s : State) (c : Nat) : State := (List.range 16).foldl (fun s k => dieOut s (16 * c + k)) s

/-- Count an occurrence of a row and take its lasting action. -/
def faultAct (s : State) (row inst detail : Nat) : State :=
  let (s, lasting) := faultOccur s row inst detail
  if !lasting then s
  else match row with
    | 0 => engineOut s inst
    | 1 => channelOut s inst
    | 2 => portOut s (if inst = 0 then .a else .b)
    | 6 => bankOut s inst
    | 7 => indexDieOut s inst
    | 8 => pipeOut s inst
    | 9 => dieOut s inst
    | 10 => planeOut s inst
    | 11 => retireBlock s inst false
    | 12 => heaterOut s inst
    | _ => s

end Sys2Proof.Machine
end

