-- ==== Sys2Proof/Machine/Landing.lean ====
section
/-! DEFINITION. The landing of records and markers: a page closes, is confirmed or fails (R31, R240, R276, R277), and the
erases that free blocks start (R239). -/

namespace Sys2Proof.Machine

/-! ### Closing (R276) -/

/-- A landing page closes when it is full, 12 µs after its first record, or when a record that did not fit it has opened
another. -/
def pageCloses (s : State) (page : Nat) (p : LandingPage) : Bool :=
  p.free == 0 || decide (p.firstAt + 12 ≤ s.sessionUs) || decide (page + 1 < s.space.nextPage)

/-- A die takes a program or an erase: it serves, is idle, and no dry dock has been requested for it (R236, R253). -/
def dieTakes (s : State) (d : Nat) : Bool :=
  let x := dieOf s d
  let k := (dockOf s d).phase
  x.st == 0 && x.op == 0 && (k == 0 || k == 7)

/-- The stripe position of a landing page's die. -/
def pagePos (p : LandingPage) : Nat := stripePos p.die

/-- The block that a landing page lies in. -/
def pageBlock (s : State) (p : LandingPage) : Nat :=
  match tabGet s.flash.sets p.setId with
  | some x => x.blocks.getD (pagePos p) 0
  | none => 0

/-- The pieces of a page are on their way to a die (R145). -/
def markTransferred (s : State) (p : LandingPage) : State :=
  { s with cmds := s.cmds.map (fun c =>
    if p.pieces.any (fun x => x.csn == c.csn) then { c with transferred := true } else c) }

/-- A lower page of the same block is still open: pages of a block are programmed in ascending order (R225). -/
def lowerOpen (s : State) (p : LandingPage) : Bool :=
  s.space.pages.any (fun q => q.2.setId == p.setId && q.2.die == p.die && decide (q.2.row < p.row))

/-- A block waits for its erase. -/
def eraseWaits (x : Block) : Bool := x.unfinished && !x.retired && !x.bad

/-- The program of a landing page waits for its die. -/
def programWaits (s : State) (page : Nat) (p : LandingPage) : Bool := !p.closed && pageCloses s page p && !lowerOpen s p

/-- The program of a landing page, of class HOST_WRITE. -/
def programWork (s : State) (d : Nat) : Work := workOn s 1 3 d 1 none

/-- The class of the operation that a free die takes next, of the programs of landing pages and the erases that wait for it
(R313). -/
def dieNext (s : State) (d : Nat) : Option Nat :=
  let programs := (s.space.pages.filter (fun q => q.2.die == d && programWaits s q.1 q.2)).map (fun _ => programWork s d)
  let erases := if live s && s.power.holdUpReady && serviceOpen s then
      (s.flash.blocks.filter (fun q => dieOfBlock q.1 == d && eraseWaits q.2)).map (fun q => eraseWork s q.1)
    else []
  (nextOp s (programs ++ erases)).map Work.cls

/-- Close a page, transfer it and begin its program. -/
def closePage (s : State) (page : Nat) (p : LandingPage) : State :=
  let b := pageBlock s p
  let s := { s with space := { s.space with pages := tabPut s.space.pages page { p with closed := true } } }
  let s := updDie (markTransferred s p) p.die (fun d =>
    { d with op := 2, suspends := 0, plane := b / 1024 % 4, block := b % 1024, runSince := s.sessionUs })
  countProgram (charge s (programWork s p.die)) p.die

/-- LANDING_PAGE_CLOSE: no program begins before hold-up ready (R464), nor on a die that is busy. -/
def execLandingPageClose (page : Nat) (s : State) : Host.Outcome State Fault Refusal :=
  match tabGet s.space.pages page with
  | none => conclude s
  | some p =>
    if live s && s.power.holdUpReady && programWaits s page p && dieTakes s p.die && dieNext s p.die == some 1 then
      conclude (closePage s page p)
    else conclude s

/-! ### Erases (R239) -/

/-- Begin the erase of a block on its die: its pages are gone. -/
def beginErase (s : State) (b : Nat) : State :=
  let s := { s with flash := { s.flash with pages := s.flash.pages.filter (fun p => p.1 / 4096 != b) } }
  updDie (charge s (eraseWork s b)) (dieOfBlock b) (fun d =>
    { d with op := 5, suspends := 0, plane := b / 1024 % 4, block := b % 1024, runSince := s.sessionUs, queuedReads := 0 })

/-- Blocks to be erased are started on the dies that can take them, once service has opened. -/
def startErases (s : State) : State :=
  if live s && s.power.holdUpReady && serviceOpen s && mayBegin s then
    (s.flash.blocks.filter (fun p => eraseWaits p.2)).foldl (fun s p =>
      if dieTakes s (dieOfBlock p.1) && dieNext s (dieOfBlock p.1) == some 3 then beginErase s p.1 else s) s
  else s

/-! ### Confirmation (R31, R269 to R273) -/

/-- Change the items of a CSN that are, or are not, a posted write's. -/
def updItems (s : State) (csn : Nat) (posted : Bool) (f : Item → Item) : State :=
  { s with flash := { s.flash with items := s.flash.items.map (fun i =>
    if i.csn = csn ∧ (i.pseq ≠ 0 ↔ posted) then f i else i) } }

/-- The items of a write. -/
def itemsOf (s : State) (csn : Nat) (posted : Bool) : List Item :=
  s.flash.items.filter (fun i => i.csn == csn && (i.pseq != 0) == posted)

/-- Every record of a write has landed: one that counts only with its commit marker lands it; a committed-mode write that
needs none reaches its commit point (R31, R272). -/
def recordsLanded (s : State) (csn : Nat) (posted : Bool) : State :=
  let mine := itemsOf s csn posted
  if mine.isEmpty || mine.any (fun i => !i.landed) then s
  else
    let marked := mine.any (fun i => i.marked && !i.commit)
    if posted then
      (if marked && !pieceLeft s .commitMarker csn 0 then queueMarker s .commitMarker csn 0 true else s)
    else match s.cmds.find? (fun c => c.csn == csn && c.stage == .placed) with
      | none => s
      | some c =>
        if marked then updCmd (queueMarker s .commitMarker csn 0 false) csn (fun c => { c with stage := .marking })
        else commitWrite s c

/-- A piece of an item has been confirmed on a page from unit `at_` on; the item has landed when no piece of it is left. A page that was
transferred before the write was lost lands nothing of it: the lost marker does (R136). -/
def itemPage (s : State) (x : Piece) (setId page at_ : Nat) (fresh : Bool) : State :=
  let left := pieceLeft s x.kind x.csn x.entry
  let span : Span := { page := page, at_ := at_, first := x.first, units := x.units }
  let s := { s with flash := { s.flash with items := s.flash.items.map (fun i =>
    if i.csn = x.csn ∧ i.entry = x.entry ∧ (x.kind = .lostMarker ∨ i.kind ≠ .lost) then
      { i with setId := setId, spans := if fresh then [span] else sortBy Span.first (i.spans ++ [span]), landed := i.landed || !left }
    else i) } }
  if left then s else recordsLanded s x.csn x.posted

/-- A commit marker has landed. -/
def commitLanded (s : State) (x : Piece) : State :=
  if x.posted then updItems s x.csn true (fun i => { i with commit := true })
  else match s.cmds.find? (fun c => c.csn == x.csn && c.stage == .marking && c.voidFor.isNone) with
    | some c => commitWrite s c
    | none => s

/-- A void marker has landed: the completions of the aborted write and of the ABORT may be sent (R145, R301). -/
def voidLanded (s : State) (x : Piece) : State :=
  let s := { s with flash := { s.flash with voids := x.csn :: s.flash.voids,
                                            items := s.flash.items.filter (fun i => i.csn != x.csn) } }
  sendWithheld (dropCmd s x.csn) x.csn

/-- One piece of a confirmed page, with the unit that it begins at. -/
def pieceLanded (setId page : Nat) (s : State) (p : Piece × Nat) : State :=
  match p.1.kind with
  | .record => itemPage s p.1 setId page p.2 false
  | .lostMarker => itemPage s p.1 setId page p.2 true
  | .commitMarker => commitLanded s p.1
  | .voidMarker => voidLanded s p.1

/-- The pieces of a page from unit `u` on, each with the unit that it begins at. -/
def pieceUnits : Nat → List Piece → List (Piece × Nat)
  | _, [] => []
  | u, x :: rest => (x, u) :: pieceUnits (u + x.units) rest

/-- Bytes of records on a page. -/
def recordBytesOn (p : LandingPage) : Nat :=
  64 * listSum ((p.pieces.filter (fun x => x.kind == .record)).map Piece.units)

/-- IDENT of a landing page (R229, R273). -/
def landingIdent (s : State) (p : LandingPage) : Nat := match p.pieces with
  | [] => 0
  | x :: _ =>
    let mine := fun (i : Item) => i.csn == x.csn && i.entry == x.entry
    if x.kind = .record then
      ((s.flash.items.find? mine).map Item.recordId).getD 0 + 64 * x.first * 2 ^ 64 +
        (p.pieces.filter (fun y => y.first == 0)).length * 2 ^ 96
    else markerIdent x.kind (sortBy Item.entry (recordsOf s x.csn)) (s.flash.items.find? (fun i => mine i && i.kind == .lost))

/-- A page of records or a marker stands on flash, with its metadata (R228). -/
def landPage (s : State) (p : LandingPage) : State := match tabGet s.flash.sets p.setId with
  | none => s
  | some x =>
    let typ := if p.pieces.any (fun y => y.kind != .record) then 3 else 1
    putPage s p.setId x p.row (pagePos p) typ (listMax (p.pieces.map Piece.csn)) (landingIdent s p)
      (p.pieces.flatMap (fun y => fit y.bytes (64 * y.units)))

/-- A page's program status is confirmed. -/
def confirmPage (s : State) (page : Nat) (p : LandingPage) : State :=
  let where_ := 4096 * pageBlock s p + p.row
  let s := { landPage s p with space := { s.space with pages := tabErase s.space.pages page } }
  let s := updDie s p.die (fun d => { d with op := 0, suspends := 0, plane := 0, block := 0 })
  let top := listMax (p.pieces.map Piece.csn)
  let s := updSet s p.setId (fun x => { x with topCsn := max x.topCsn top })
  let s := noteProgram s (recordBytesOn p) 16384
  (pieceUnits 0 p.pieces).foldl (pieceLanded p.setId where_) s

/-- What follows a landing: a row that is whole takes its parity page, records that waited are placed, waiting commands run, and a freed die takes its next erase. -/
def afterLanding (s : State) : State := startErases (resumeAll (retryPieces (drainPosted (closeParity s))))

/-- POSTED_DURABLE (R277): durability advances over the landed prefix, and commands that waited for it run. -/
def execPostedDurable (s : State) : Host.Outcome State Fault Refusal :=
  conclude (resumeAll (drainPosted (advanceDurable s)))

/-! ### Failure (R240, R276) -/

/-- A set is due for refresh, with the cause index of CA_REFRESH; 4 is a failed program, which the registers do not
count. -/
def markDue (s : State) (id cause : Nat) : State :=
  updSet s id (fun x => { x with refreshDue := x.refreshDue.orElse (fun _ => some cause) })

/-- Place a piece again after a failed landing: a second failure of a record ends its write; markers are placed until they
land. -/
def replaceFailed (die : Nat) (s : State) (x : Piece) : State :=
  let x := { x with fails := x.fails + 1 }
  let again := fun (s : State) => queuePiece s x (some die)
  if x.kind ≠ .record ∨ x.fails < 2 then
    match x.kind with
    | .record =>
      if x.posted || s.cmds.any (fun c => c.csn == x.csn && c.voidFor.isNone) then again s else s
    | _ => again s
  else if x.posted then
    (if (itemsOf s x.csn true).any (fun i => i.kind != .lost) then deferredError s x.csn .recordLost else s)
  else match s.cmds.find? (fun c => c.csn == x.csn && c.voidFor.isNone) with
    | some c => failPlain s c .media
    | none => s

/-- Open pages on the block that failed: their records are placed elsewhere. -/
def moveOpenPages (s : State) (setId die : Nat) : State :=
  let here := s.space.pages.filter (fun p => p.2.setId == setId && p.2.die == die && !p.2.closed)
  let s := here.foldl (fun s p => { s with space := { s.space with pages := tabErase s.space.pages p.1 } }) s
  here.foldl (fun s p => p.2.pieces.foldl (fun s x => queuePiece s x (some die)) s) s

/-- Close a set that is open at its current row (R235, R283). -/
def closeIfOpen (s : State) (id : Nat) : State := match tabGet s.flash.sets id with
  | some x => if x.isOpen then closeSet (flushSet (padOpenRow s id) id) id else s
  | none => s

/-- A landing page's program fails: the block is retired, a fault is counted against its die, its set is closed and due for
refresh, and the page's records are placed again on another die. -/
def failPage (s : State) (page : Nat) (p : LandingPage) : State :=
  let b := pageBlock s p
  let s := { s with space := { s.space with pages := tabErase s.space.pages page } }
  let s := updDie s p.die (fun d => { d with op := 0, suspends := 0, plane := 0, block := 0 })
  let s := closeIfOpen (markDue s p.setId 4) p.setId
  let s := dieFault (blockFault s b false) p.die
  let s := moveOpenPages s p.setId p.die
  p.pieces.foldl (replaceFailed p.die) s

/-- Every codeword of a margin read has at most a number of flipped bits (R241). -/
def flipsAtMost (most : Nat) (flips : List Nat) : Bool := flips.all (fun n => decide (n ≤ most))

/-- A page that was programmed in the first cycle after a careen passes its first-program verify (R241), at −60 and +60 mV of every
reference; another needs none. -/
def firstProgramOk (s : State) (p : LandingPage) (flips : List Nat) : Bool :=
  !(blockOf s (pageBlock s p)).firstCycle || flipsAtMost 32 flips

/-- LANDING_CONFIRMED: the program's status is good. A failed first-program verify fails the page as a failed status does (R240). -/
def execLandingConfirmed (program : Programmed) (s : State) : Host.Outcome State Fault Refusal :=
  match tabGet s.space.pages program.page with
  | none => conclude s
  | some p =>
    if live s && p.closed then
      conclude (afterLanding
        (if firstProgramOk s p program.flips then confirmPage s program.page p else failPage s program.page p))
    else conclude s

/-- PROGRAM_FAILED. -/
def execProgramFailed (page : Nat) (s : State) : Host.Outcome State Fault Refusal :=
  match tabGet s.space.pages page with
  | none => conclude s
  | some p => if live s && p.closed then conclude (afterLanding (failPage s page p)) else conclude s

end Sys2Proof.Machine
end

