-- ==== Sys2Proof/Machine/Array.lean ====
section
/-! DEFINITION. The die operations: suspension (R237), reads and the decode ladder (R242, R263), erases (R239, R240),
calibration (R243) and the diagnostic read (R248). -/

namespace Sys2Proof.Machine

/-- The base address of a channel's FC page (R247). -/
def fcBase (ch : Nat) : Nat := 0x10000 + 0x1000 * ch

/-- A field of a channel's FC page. -/
def fcField (s : State) (ch off hi lo : Nat) : Nat := fieldOf s (fcBase ch + off) hi lo

/-! ### Suspension (R237) -/

/-- The running operation of a die may be suspended for a read. -/
def maySuspend (s : State) (d : Nat) : Bool :=
  let x := dieOf s d
  let ch := chanOf d
  if x.op = 5 then
    decide (x.suspends < fcField s ch 0xA0 4 0) && decide (x.runSince + fcField s ch 0xA0 31 16 ≤ s.sessionUs)
  else x.op == 3 && decide (x.suspends < fcField s ch 0xA0 10 8)

/-- ERASE_SUSPEND: a read is queued for a die whose erase or TLC program runs or is suspended. It suspends a running one within the
limits; else it waits. -/
def execEraseSuspend (die : Nat) (s : State) : Host.Outcome State Fault Refusal :=
  let x := dieOf s die
  if live s && (x.op == 3 || x.op == 4 || x.op == 5 || x.op == 6) then
    let s := updDie s die (fun x => { x with queuedReads := x.queuedReads + 1 })
    conclude (if maySuspend s die then
      updDie s die (fun x => { x with op := if x.op = 5 then 6 else 4, suspends := x.suspends + 1,
                                      suspendedAt := s.sessionUs, readsServed := 0 })
      else s)
  else conclude s

/-- A suspended operation resumes: no read is left, 16 have been served, or 400 µs have passed. -/
def mayResume (s : State) (x : Die) : Bool :=
  (x.op == 6 || x.op == 4) &&
    (x.queuedReads == 0 || decide (16 ≤ x.readsServed) || decide (x.suspendedAt + 400 ≤ s.sessionUs))

/-- ERASE_RESUME. -/
def execEraseResume (die : Nat) (s : State) : Host.Outcome State Fault Refusal :=
  if live s && mayResume s (dieOf s die) then
    conclude (updDie s die (fun x => { x with op := if x.op = 6 then 5 else 3, runSince := s.sessionUs }))
  else conclude s

/-! ### Reads (R233, R242, R263, R264) -/

/-- The set that holds a block. -/
def setOfBlock (s : State) (b : Nat) : Option Nat :=
  (s.flash.sets.find? (fun p => p.2.blocks.contains b)).map Prod.fst

/-- The refresh threshold of a block (R263). -/
def readLimit (s : State) (b : Nat) : Nat :=
  1000 * (if (blockOf s b).tlc then fieldOf s A.CA_RD_CTRL 31 16 else fieldOf s A.CA_RD_CTRL 15 0)

/-- `n` array reads of a block: its counter rises, and at the threshold its set is due for refresh. -/
def countReads (s : State) (b n : Nat) : State :=
  if n = 0 then s
  else
    let s := bumpBy s (fcBase (chanOf (dieOfBlock b)) + 0x84) n
    let s := updBlock s b (fun x => { x with reads := x.reads + n })
    if readLimit s b ≤ (blockOf s b).reads then
      match setOfBlock s b with
      | some id => markDue s id 0
      | none => s
    else s

/-- Array reads that a read ending at a step has taken of its own block (R242); step 9 is failure. -/
def ladderReads (step : Nat) : Nat := if step ≤ 6 then 1 + step else 9

/-- The other members of the set that holds a block. -/
def rowMates (s : State) (b : Nat) : List Nat :=
  match s.flash.sets.find? (fun p => p.2.blocks.contains b) with
  | some p => p.2.blocks.filter (fun x => x != b)
  | none => []

/-- The ending of a read at a step of the ladder is counted in its channel's page. -/
def countEnding (s : State) (ch step : Nat) : State :=
  if step = 0 then s
  else bump s (fcBase ch + (if step ≤ 6 then 0x90 else if step = 7 then 0x94 else if step = 8 then 0x98 else 0x9C))

/-- A page can be neither read nor reconstructed (R234): its records are met as lost, and a sweep is pending (R284). -/
def pageLost (s : State) (b page : Nat) : State :=
  let s := loseItems s (fun pg => pg == 4096 * b + page)
  match setOfBlock s b with
  | some id => updSet s id (fun x => { x with sweepPending := true })
  | none => s

/-- The last step of the ladder that a read reaches, 9 for failure: on an unavailable die it is served by reconstruction
without a read of the die itself, which a second failed die prevents. -/
def lastStep (s : State) (b step : Nat) : Nat :=
  let d := dieOfBlock b
  let k := if dieUnavailable s d then max step 8 else step
  if k = 8 ∧ rebuildFails s d then 9 else k

/-- The read needs a reconstruction that waits. -/
def readWaits (s : State) (b step : Nat) : Bool :=
  (dieUnavailable s (dieOfBlock b) || decide (8 ≤ step)) && rebuildWaits s (dieOfBlock b)

/-- A die's reads of the present second, and those of them that needed step 1 or above; more than 1 % of them in a second asks for a
calibration (R243). -/
def noteRetry (s : State) (d step : Nat) : State :=
  let sec := s.sessionUs / 1000000
  updDie s d (fun x =>
    let many := decide (x.reads1 < 100 * x.retried1)
    let x := if x.readSec = sec then x else { x with readSec := sec, reads1 := 0, retried1 := 0, calDue := x.calDue || many }
    { x with reads1 := x.reads1 + 1, retried1 := x.retried1 + (if step = 0 then 0 else 1) })

/-- A read of a block runs the ladder (R242): the array reads are counted in their blocks and its ending in its channel, and
a read that needed step 7 or 8 asks for a refresh. -/
def ladderRuns (s : State) (b step : Nat) : State :=
  let away := dieUnavailable s (dieOfBlock b)
  let last := lastStep s b step
  let s := countReads s b (if away then 0 else ladderReads step)
  let s := if 8 ≤ last then (rowMates s b).foldl (fun s x => countReads s x 1) s else s
  let s := countEnding s (chanOf (dieOfBlock b)) last
  let s : State := if !away && (step == 7 || step == 8) then
      match setOfBlock s b with
      | some id => markDue s id 1
      | none => s
    else s
  if last = 9 then raise s (0x10 + chanOf (dieOfBlock b)) 3 else s

/-- A read of page `page` of block `b` ends at a step of the ladder. -/
def readEnds (s : State) (b page step : Nat) : State :=
  let last := lastStep s b step
  let s := ladderRuns s b step
  if last = 9 then pageLost s b page else s

/-- One of a suspended die's queued reads has been served. -/
def serveQueued (s : State) (d : Nat) : State :=
  let x := dieOf s d
  if x.op = 6 ∨ x.op = 4 then
    updDie s d (fun x => { x with queuedReads := x.queuedReads - 1, readsServed := x.readsServed + 1 })
  else s

/-- A die can serve an array read: it runs no program or erase, or has one suspended, for at most 16 reads and 400 µs (R237); an
unavailable die's page is reconstructed from the others. -/
def readServed (s : State) (d block : Nat) : Bool :=
  let x := dieOf s d
  let mine := (x.op == 5 || x.op == 6) && x.plane * 1024 + x.block == block
  let suspended := (x.op == 4 || x.op == 6) && decide (x.readsServed < 16) && decide (s.sessionUs < x.suspendedAt + 400)
  dieUnavailable s d || (!mine && (x.op == 0 || suspended))

/-- ARRAY_READ_DONE: `block` is 1,024 × plane + block of the die, `step` the last step of the ladder, 9 for failure. -/
def execArrayReadDone (die block page step : Nat) (s : State) : Host.Outcome State Fault Refusal :=
  let b := 4096 * die + block
  if live s && readServed s die block && !readWaits s b step then
    let s := charge (charge s (workOn s 0 0 die 1 none)) (workOn s 0 1 die 4 none)
    conclude (serveQueued (readEnds (if dieUnavailable s die then s else noteRetry s die step) b page step) die)
  else conclude s

/-! ### Erases (R239, R240, R249) -/

/-- Whether a block's plane lies in a campaign, which keeps its blocks out of the free pool (R252). -/
def planeHeld (s : State) (b : Nat) : Bool :=
  let p := planeOf s (planeOfBlock b)
  p.st == 1 || p.st == 2

/-- The native wear of an erase of a block (R249). -/
def eraseWear (x : Block) : Nat := if x.tlc then 10 else 1

/-- A block has been erased and verified: its marker is programmed and its count rises. -/
def blockErased (s : State) (b : Nat) : State :=
  let s := updBlock s b (fun x => { x with erases := x.erases + 1, wear := x.wear + eraseWear x, reads := 0,
                                           unfinished := false, eraseFails := 0, firstCycle := false })
  let s := bump s (fcBase (chanOf (dieOfBlock b)) + 0x8C)
  if planeHeld s b || decide (fieldOf s A.CA_TRIGGER 15 0 ≤ (blockOf s b).wear) then s else giveBlocks s 1

/-- An erase fails its verify: it is repeated once, and the second failure retires the block. -/
def eraseFailed (s : State) (b : Nat) : State :=
  let twice := decide (1 ≤ (blockOf s b).eraseFails)
  let s := dieFault (updBlock s b (fun x => { x with eraseFails := x.eraseFails + 1 })) (dieOfBlock b)
  if twice then blockFault s b false else s

/-- The erase verify of R241, at −150 mV of reference A: at most 8 bits of a codeword are not ones. -/
def eraseOk (flips : List Nat) : Bool := flipsAtMost 8 flips

/-- ERASE_DONE: the erase of a block ends, with the flipped bits that its erase verify finds. -/
def execEraseDone (block : Nat) (flips : List Nat) (s : State) : Host.Outcome State Fault Refusal :=
  let d := dieOfBlock block
  let x := dieOf s d
  if live s && x.op == 5 && x.plane == block / 1024 % 4 && x.block == block % 1024 then
    let s := updDie s d (fun x => { x with op := 0, suspends := 0, plane := 0, block := 0 })
    let s := if eraseOk flips then blockErased s block else eraseFailed s block
    conclude (reviewCampaigns (startErases (resumeAll (retryPieces (drainPosted s)))))
  else conclude s

/-! ### Calibration (R243) -/

/-- A row of an SLC set is open: some page of it programmed or being programmed, and its parity page not yet (R231). A TLC row is never
open. -/
def rowOpen (s : State) (id : Nat) (x : StripeSet) (row : Nat) : Bool :=
  (tabGet s.flash.pages (rowPage x row (row % 16))).isNone &&
    (!(rowPages s x row (row % 16)).isEmpty || s.space.pages.any (fun p => p.2.closed && p.2.setId == id && p.2.row == row))

/-- A die holds a page of an open row (R232). -/
def holdsOpenRow (s : State) (d : Nat) : Bool :=
  s.flash.sets.any (fun p => p.1 / 4096 == stripeOf d && p.2.pool == .landing &&
    (List.range ((p.2.rows + 14) / 15)).any (fun r => rowOpen s p.1 p.2 r &&
      (tabGet s.flash.pages (rowPage p.2 r (stripePos d))).isSome))

/-- The grant of a calibration (R232): no activation under way (R419). -/
def calGrant (s : State) (d : Nat) : Bool :=
  live s && s.boot.readySpace && dieTakes s d && stripeFree s d && !holdsOpenRow s d && !activating s

/-- The package temperature of a die, in 0.1 °C: its sensor of class 2. -/
def packageTemp (s : State) (d : Nat) : Option Int := sensorValue s (sensorKey 2 (d / 8))

/-- A calibration is due (R243): requested, by period, by temperature, or by the retry rate of a second that has ended. -/
def calibrationDue (s : State) (d : Nat) : Bool :=
  let x := dieOf s d
  let ch := chanOf d
  x.calDue || decide (x.calAt + 3600000000 * fcField s ch 0xA4 15 8 ≤ s.poweredUs) ||
    (decide (x.readSec < s.sessionUs / 1000000) && decide (x.reads1 < 100 * x.retried1)) ||
    (match packageTemp s d with
      | some t => decide (10 * fcField s ch 0xA4 7 0 ≤ (t - x.calTemp).natAbs)
      | none => false)

/-- CALIBRATION_DUE of a die of a package of a channel (R224): the die is marked due, and begins where it is granted. -/
def execCalibrationDue (channel package die : Nat) (s : State) : Host.Outcome State Fault Refusal :=
  let die := 16 * channel + 8 * package + die
  if live s && calibrationDue s die then
    let s := updDie s die (fun x => { x with calDue := true })
    if calGrant s die then
      let s := fieldSet s (fcBase (chanOf die) + 0xA8) 27 24 (die % 16)
      conclude (updDie s die (fun x => { x with st := 2, op := 7, runSince := s.sessionUs, calDue := false, readSec := 0,
                                                reads1 := 0, retried1 := 0 }))
    else conclude s
  else conclude s

/-- An offset byte within the ±60 mV of the sweep, in steps of 10 mV (R243). -/
def sweepByte (b : Nat) : Nat := if b ≤ 6 ∨ 250 ≤ b then b else if b < 128 then 6 else 250

/-- The offset bytes of a word, each within the sweep. -/
def sweepWord (w : Word) : Word :=
  word (listSum ((List.range 4).map (fun k => 256 ^ k * sweepByte (w.toNat / 256 ^ k % 256))))

/-- Store the offsets of a die: for each mode and wear bin, keyed as FC_OFFSET_SEL[3:0], references A to D at
that key and E to G at that key plus 16. -/
def storeOffsets (s : State) (d : Nat) (offsets : Tab Word) : State :=
  let base := fcBase (chanOf d)
  ([0, 1, 2, 3, 8, 9, 10, 11] : List Nat).foldl (fun s k =>
    let sel := 16 * (d % 16) + k
    let lo := sweepWord (tabGetD offsets k 0) &&& (if k < 8 then 0xFF else 0xFFFFFFFF)
    let hi := if k < 8 then 0 else sweepWord (tabGetD offsets (k + 16) 0) &&& 0xFFFFFF
    regSet (regSet s (regKey (base + 0xB0) sel) lo) (regKey (base + 0xB4) sel) hi) s

/-- CALIBRATION_DONE of a die of a channel. -/
def execCalibrationDone (channel die : Nat) (offsets : Tab Word) (s : State) : Host.Outcome State Fault Refusal :=
  let die := 16 * channel + die
  if live s && (dieOf s die).st == 2 then
    let s := storeOffsets s die offsets
    let s := updDie s die (fun x => { x with st := 0, op := 0, calAt := s.poweredUs, calTemp := (packageTemp s die).getD x.calTemp })
    conclude (startErases (resumeAll (retryPieces (closeParity (raise s (0x10 + chanOf die) 1)))))
  else conclude s

/-! ### The diagnostic read (R248) -/

/-- FC_DIAG_TARGET and MODE of a channel's diagnostic read, as they stood at its START. -/
def diagAsked (s : State) (ch : Nat) : Word × Nat := tabGetD s.space.diag ch (0, 0)

/-- The block that a channel's diagnostic read names. -/
def diagBlock (s : State) (ch : Nat) : Nat :=
  let t := (diagAsked s ch).1
  4096 * (16 * ch + bits t 27 24) + 1024 * bits t 23 22 + bits t 21 12

/-- A programmed page: of the stripe sets, of the logbook region or of the marker blocks. -/
def pageAt (s : State) (k : Nat) : Option Page :=
  ((tabGet s.flash.pages k).orElse fun _ => tabGet s.flash.logPages k).orElse fun _ => tabGet s.flash.markers k

/-- The data area of a page, of a stripe set from its row where its die is unavailable (R233). -/
def pageData (s : State) (b page : Nat) : Option (List Byte) :=
  let away := dieUnavailable s (dieOfBlock b)
  match s.flash.sets.find? (fun p => p.2.blocks.contains b), pageAt s (4096 * b + page) with
  | some p, some y => some (if away then rebuiltData s p.2 page (stripePos (dieOfBlock b)) else y.data)
  | none, some y => some y.data
  | _, none => none

/-- The window's bytes (R248): in decoded mode the corrected data area and the raw spare area; else the raw page as it was read. -/
def diagBytes (s : State) (mode b page : Nat) (ok : Bool) (raw : List Byte) : List Byte :=
  match (if mode = 0 ∧ ok then pageData s b page else none) with
  | some data => data ++ (fit raw 18432).drop 16384
  | none => raw

/-- The words of the diagnostic window: nine slices of 2,048 bytes, the first byte of a word in its top bits. -/
def diagWindow (s : State) (ch : Nat) (bytes : List Byte) : State :=
  let ws := beWords 4608 (fit bytes 18432)
  let put := fun (s : State) (p : Nat × Word) =>
    regSet s (regKey (fcBase ch + 0x800 + 4 * (p.1 % 512)) (p.1 / 512)) p.2
  ((List.range 4608).zip ws).foldl put s

/-- FC_DIAG_STATUS of a diagnostic read that has ended. -/
def diagStatus (mode step : Nat) (away erased ok : Bool) : Word :=
  let status := if mode = 0 ∧ !ok ∧ !erased then statusCode .media else 0
  let last := min (if away then max step 8 else step) 8
  pack [(flag (mode == 0 && (away || (step == 8 && ok))), 30, 1), (flag erased, 29, 1), (if mode = 0 then last else 0, 24, 4),
    (status, 0, 16)]

/-- The array reads of a diagnostic read: in decoded mode those of the ladder, unless the page read as erased, which is not
decoded (R229); in margin mode a normal read beside the shifted one. -/
def diagReads (s : State) (mode b step : Nat) (erased ok : Bool) : State :=
  let away := dieUnavailable s (dieOfBlock b)
  if mode = 0 ∧ !erased then ladderRuns s b (if ok then step else 9)
  else countReads s b (if away then 0 else if mode = 2 then 2 else 1)

/-- DIAG_READ_DONE: the read ends with the last step of the ladder, the page erased or not, and, in decoded mode, whether
decoding succeeded. No record is lost by it (R248). -/
def execDiagReadDone (channel step : Nat) (erased ok : Bool) (flips : Nat) (bytes : List Byte) (s : State) :
    Host.Outcome State Fault Refusal :=
  let st := fcBase channel + 0xC4
  let b := diagBlock s channel
  let page := bits (diagAsked s channel).1 11 0
  if live s && bit (regGet s st) 31 && !heldBack s (64 + channel) && readServed s (dieOfBlock b) (b % 4096) && !readWaits s b step then
    let mode := (diagAsked s channel).2
    let bytes := diagBytes s mode b page ok bytes
    let s := regSet s st (diagStatus mode step (dieUnavailable s (dieOfBlock b)) erased ok)
    let s := if mode = 2 then regSet s (fcBase channel + 0xCC) (word flips) else s
    let s := serveQueued (diagReads s mode b step erased ok) (dieOfBlock b)
    let s := { s with space := { s.space with diag := tabErase s.space.diag channel } }
    conclude (raise (diagWindow s channel bytes) (0x10 + channel) 2)
  else conclude s

end Sys2Proof.Machine
end

