-- ==== Sys2Proof/Machine/Power.lean ====
section
/-! DEFINITION. The input stage and the control pins (R459 to R469), and the phases of a power fail (R291). -/

namespace Sys2Proof.Machine

/-! ### Input qualification (R459, R460) -/

/-- The operating range of the input. -/
def inputQualified (mv : Nat) : Bool := decide (36000 ≤ mv) && decide (mv ≤ 75000)

/-- The input stage enters a phase. -/
def enterPower (s : State) (p : PowerPhase) : State :=
  { s with power := { s.power with phase := p, phaseSince := s.boardUs } }

/-- INPUT_RISE: the input takes a new level. Detect begins at a qualified level with PWRDIS low, begins afresh at a level
that comes as a break, and is left at one out of range. -/
def execInputRise (mv : Nat) (s : State) : Host.Outcome State Fault Refusal :=
  let s := { s with power := { s.power with inputMv := mv } }
  match s.power.phase with
  | .unpowered | .detect =>
    if inputQualified mv && !s.power.pwrdis then conclude (enterPower s .detect) else conclude (enterPower s .unpowered)
  | _ => conclude s

/-- DETECT: 50 ms of qualified input, and the bulk charge begins. -/
def execDetect (s : State) : Host.Outcome State Fault Refusal :=
  if s.power.phase = .detect ∧ s.power.phaseSince + 50000 ≤ s.boardUs ∧ inputQualified s.power.inputMv ∧ !s.power.pwrdis then
    conclude (enterPower s .bulkCharge)
  else conclude s

/-- BULK_CHARGE: the switch is fully on. -/
def execBulkCharge (s : State) : Host.Outcome State Fault Refusal :=
  if s.power.phase = .bulkCharge then conclude (enterPower s .rails) else conclude s

/-- RAILS: the controller leaves reset, and session time starts at 0. -/
def execRails (s : State) : Host.Outcome State Fault Refusal :=
  if s.power.phase = .rails then
    let t := enterPower s .running
    conclude { t with power := { t.power with running := true, failed := false }, sessionUs := 0,
                      boot := { t.boot with stage := .rom } }
  else conclude s

/-- HOLD_UP_READY. -/
def execHoldUpReady (s : State) : Host.Outcome State Fault Refusal :=
  if live s then conclude { s with power := { s.power with holdUpReady := true, holdUpLate := false } } else conclude s

/-- HOLD_UP_TIMEOUT: the lamp shows the hold-up fault while the wait lasts. -/
def execHoldUpTimeout (s : State) : Host.Outcome State Fault Refusal :=
  if live s ∧ !s.power.holdUpReady ∧ 2000000 ≤ s.sessionUs then
    conclude { s with power := { s.power with holdUpLate := true } }
  else conclude s

/-! ### Power fail (R291, R462, R465) -/

/-- Stop: admission, transfers, programs, erases and heaters stop, and nothing is sent. What is in flight on a die whose
transfer had completed finishes. -/
def powerStop (s : State) : State :=
  let t := enterPower s .stop
  { t with
    power := { t.power with failed := true, holdUpReady := false }
    seqr := { t.seqr with stopped := true, collecting := [], cycle := [] }
    linkA := { t.linkA with phase := .down, lanes := 0 }
    linkB := { t.linkB with phase := .down, lanes := 0 }
    handshakes := [], answered := [], moorings := [], berths := [], seals := []
    space := { t.space with pages := t.space.pages.filter (fun p => p.2.closed), waiting := [] }
    harbour := { t.harbour with towlines := [], tows := [], towIns := [] }
    mode := { t.mode with waiter := none }
    log := { t.log with clearWait := [], freezeWait := none }
    cipher := { t.cipher with armed := false } }

/-- Declare power fail where the switch is on. -/
def declareFail (s : State) : State :=
  match s.power.phase with
  | .bulkCharge | .rails | .running => powerStop s
  | _ => s

/-- POWER_FAIL: by the comparator, or with the opening of the switch; under PWRDIS only while it reads high. -/
def execPowerFail (cause : FailCause) (s : State) : Host.Outcome State Fault Refusal :=
  if cause = .pwrdis ∧ !s.power.pwrdis then conclude s else conclude (declareFail s)

/-- FINISH: every program whose transfer had completed is confirmed, and Park begins. -/
def execFinish (s : State) : Host.Outcome State Fault Refusal :=
  if s.power.phase = .stop then
    conclude (enterPower (s.space.pages.foldl (fun s p => confirmPage s p.1 p.2) s) .park)
  else conclude s

/-- PARK: the drive is reset, and Detect begins where the input is back. -/
def execPark (inputMv : Nat) (s : State) : Host.Outcome State Fault Refusal :=
  if s.power.phase = .park then
    let t := powerLost s
    let t := { t with power := { t.power with inputMv := inputMv } }
    conclude (enterPower t (if inputQualified inputMv && !t.power.pwrdis then .detect else .unpowered))
  else conclude s

/-- The filtered level of PWRDIS changes (R466). -/
def pwrdisChanged (s : State) (high : Bool) : State :=
  let s := { s with power := { s.power with pwrdis := high } }
  if high then (if s.power.phase = .detect then enterPower s .unpowered else declareFail s)
  else if s.power.phase = .unpowered ∧ inputQualified s.power.inputMv then enterPower s .detect else s

/-- PWRDIS: the raw level as the input stage samples it; a change counts once the new level has held for 1 ms (R65, R466). -/
def execPwrdis (high : Bool) (s : State) : Host.Outcome State Fault Refusal :=
  if high ≠ s.power.pwrdisRaw then
    conclude { s with power := { s.power with pwrdisRaw := high, pwrdisSince := s.boardUs } }
  else if high ≠ s.power.pwrdis ∧ s.power.pwrdisSince + 1000 ≤ s.boardUs then conclude (pwrdisChanged s high)
  else conclude s

/-! ### Straps (R65, R469) -/

/-- STRAP_READ: three samples of SLOT_ID. A set that agrees is accepted; the sixteenth in a row that does not declares the
straps failed, after which they are read no more. -/
def execStrapRead (a b c : Nat) (s : State) : Host.Outcome State Fault Refusal :=
  let up := s.boot.stage == .stageTwo || s.boot.stage == .mounting || s.boot.stage == .mounted
  if !live s || !up || s.power.strapFailed then conclude s
  else if a = b ∧ b = c then
    let first := if s.power.strapValid then s.power.slotFirst else a
    let s := fieldSet s A.BW_STRAP 5 0 a
    conclude { s with power := { s.power with strapValid := true, strapMisses := 0, slotFirst := first } }
  else
    let n := s.power.strapMisses + 1
    let s := bump s (A.BW_REJ_COUNT + 16)
    if 16 ≤ n then conclude (raise { s with power := { s.power with strapMisses := n, strapFailed := true } } 2 2)
    else conclude { s with power := { s.power with strapMisses := n } }

end Sys2Proof.Machine
end

