-- ==== Sys2Proof/Machine/Boot.lean ====
section
/-! DEFINITION. Start-up: the boot ROM (R387 to R389), stage two and the boot record (R390 to R397), the loading of the base
configuration (R68 to R72), and mount (R295 to R300). -/

namespace Sys2Proof.Machine

/-! ### The boot ROM -/

/-- The RESULT of the boot record is the status of the first failure. -/
def firstResult (s : State) (st : Nat) : State :=
  if s.boot.result = 0 then { s with boot := { s.boot with result := st } } else s

/-- Set a bit of BFLAGS. -/
def setBflag (s : State) (k : Nat) : State := { s with boot := { s.boot with bflags := s.boot.bflags ||| 2 ^ k } }

/-- A stage-two copy passes the last test of R388. -/
def copyPasses (s : State) (c : Option Nat) : Bool := match c with
  | some sv => decide (s.flash.otp.secVersion ≤ sv)
  | none => false

/-- The OTP seed, bytes 0x020 to 0x03F of the image. -/
def seedBytes (s : State) : List Byte := leBytes (((factoryCopy s).map OtpRow.seed).getD 0) 32

/-- The SHA-384 of a part's image in the active bank. -/
def partDigest (s : State) (part : Nat) : Nat := Config.sha384 (partImage s part).bytes

/-- The ROM measures the accepted image of stage two, derives the keys and hands over (R387, steps 4 to 7; R389). -/
def handOver (s : State) (mirror : Bool) : State :=
  let s := if mirror then setBflag s 5 else s
  let digest := partDigest s 1
  let seed := seedBytes s
  let boot := { s.boot with stage := .stageTwo, mirror := mirror, stage2Digest := digest, mr := extendMr s.boot.mr 0 digest,
                            keyStore := { dik := dikOf seed, ak := akOf (beBytes digest 48) seed } }
  { s with boot := boot, cipher := { s.cipher with wrapBase := some (wrapBaseOf seed), armed := true } }

/-- BOOT_ROM. -/
def execBootRom (r : RomReport) (s : State) : Host.Outcome State Fault Refusal :=
  if !live s || s.boot.stage != .rom then conclude s
  else match otpImage s with
  | none => conclude { s with boot := { s.boot with stage := .stoppedOtp } }
  | some o =>
    let s := { s with flash := { s.flash with otp := o, banks := newestMarker s }, boot := { s.boot with rootsOut := (List.range 4).filter (rootSplit s) } }
    let s : State := if r.entropyOk then s
      else raise { s with cipher := { s.cipher with entropyFailed := true } } 6 4
    if copyPasses s r.primary then conclude (handOver s false)
    else if copyPasses s r.mirror then
      conclude (handOver (if r.primary.isSome then firstResult s (statusCode .rollback) else s) true)
    else conclude { s with boot := { s.boot with stage := .stoppedImage } }

/-! ### Numbers found in the logbook (R366, R392) -/

/-- The highest sequence number in the region. -/
def highestSeq (s : State) : Nat :=
  max (listMax (s.flash.general.recs.map LogRec.seq)) (listMax (s.flash.ledger.recs.map LogRec.seq))

/-- Boot numbers that the ledger's records give: a boot record's own, and BOOT_LAST of a wrap. -/
def ledgerBoots (s : State) : List Nat :=
  s.flash.ledger.recs.filterMap (fun r =>
    if r.typ = 0x100 then some (leAt r.payload 0 4) else if r.typ = 0x101 then some (leAt r.payload 20 4) else none)

/-- The boot number of this power-on. -/
def findBootNumber (s : State) : Nat :=
  let ns := ledgerBoots s
  if s.flash.ledger.blocks.isEmpty then 1
  else if ns.isEmpty then s.flash.ledger.wraps * 2 ^ 20 + 1
  else listMax ns + 1

/-- The boot record with the highest number. -/
def newestBoot (s : State) : Option LogRec :=
  s.flash.ledger.recs.foldl (fun m r =>
    if r.typ = 0x100 then (match m with
      | some y => if leAt y.payload 0 4 ≤ leAt r.payload 0 4 then some r else m
      | none => some r)
    else m) none

/-- PREV_DIGEST: none where the previous record's digest is unavailable. -/
def prevDigest (s : State) (unreadable : Bool) : Option Nat :=
  if s.flash.ledger.blocks.isEmpty then some 0
  else match newestBoot s with
    | some r =>
      if unreadable ∨ leAt r.payload 0 4 < listMax (ledgerBoots s) then none else some (Config.sha384 (recBytes r))
    | none => none

/-- The logbook's media as a power-on finds them (R379, R380). -/
def startLog (s : State) : State :=
  match startMedia s with
  | 0 => s
  | 2 => raise { s with log := { s.log with media := 2 } } 3 1
  | m => raise { s with log := { s.log with media := m, unacked := true } } 3 0

/-- What stage two does once per power-on: a bit that one copy of the OTP image lacks is programmed in it (R246), the counters of the log and of powered time go on, the sideband's cursor starts
at the newest ledger record (R376), and what the ROM and the power loss left is recorded. -/
def firstBoot (s : State) : State :=
  let n := highestSeq s + 16384
  let us := s.poweredUs + 1000000 * s.flash.poweredS
  let cursor := s.flash.ledger.recs.getLast?.map LogRec.seq
  let s := { s with log := { s.log with nextSeq := n, firstSeq := n }, poweredUs := us, persistedAt := us,
                    sideband := { s.sideband with cursor := cursor } }
  let s := burnRows (startLog s) s.flash.otp true
  let s := s.boot.rootsOut.foldl (fun s k => logRecord s 0x25 (src 1 0) true (leBytes (0x40 + 52 * k) 2 ++ leBytes k 1)) s
  let s := if s.cipher.entropyFailed then logRecord s 0x64 (src 7 0) true (leBytes 3 2) else s
  let s : State := match s.flash.partialSet with
    | some (m, k) => logRecord s 0x71 (src 5 0) true (leBytes m 2 ++ [5, 0] ++ leBytes k 4)
    | none => s
  let s : State := match s.flash.armedCohort with
    | some c => raise (logRecord s 0x73 (src 5 0) true (leBytes c 4 ++ [3, 0, 0, 0])) 4 2
    | none => s
  { s with flash := { s.flash with partialSet := none, armedCohort := none,
                                   deltas := if s.flash.update.isNone then [] else s.flash.deltas } }

/-! ### A staged update (R390, step 3; R415 to R417) -/

/-- The set that stays staged through a power-on. -/
def stagedSet (s : State) : State := match s.flash.update with
  | some x => { s with update := { s.update with st := .staged, manifest := some x, staged := x.deltaTotal } }
  | none => s

/-- A new base becomes the installed one, with its default overlays (R70). -/
def installBase (s : State) (b : BaseImage) : State :=
  let c := s.flash.config
  let pending := c.defaultsPending && c.fwSchema != some (imgSchema b)
  { s with flash := { s.flash with config := { c with installed := some b, overlays := imgOverlays b, ovlFail := 0,
                                                      defaultsPending := pending } },
           boot := { s.boot with baseNew := true } }

/-- A set that passed its checks is committed (R416). -/
def applySet (s : State) (x : Manifest) (r : ApplyReport) (otpOk : Bool) : State :=
  let floor := s.flash.otp.secVersion
  let base := newBaseOf s x r
  let s := commitSet s x s.boot.bootNumber otpOk
  let s := if s.update.otpFailed then setBflag s 7 else if floor < s.flash.otp.secVersion then setBflag s 4 else s
  let s : State := match base with
    | some b => installBase s b
    | none => s
  let s := clearUpdate (logApplied s x 6 0)
  { s with update := { s.update with last := lastWord 0 6 0 } }

/-- The controller restarts from the boot ROM under the new bank (R417). -/
def restartRom (s : State) : State :=
  { s with boot := { s.boot with stage := .rom, mr := [0, 0, 0, 0, 0, 0, 0, 0], result := 0, applying := true } }

/-- Step 3: a staged set is applied where its flags say so. The answer tells that the controller restarts. -/
def applyStaged (s : State) (r : BootReport) : State × Bool :=
  match s.flash.update with
  | none => (s, false)
  | some x =>
    if !x.cold && !x.atPowerOn then (s, false)
    else
      let verdict := applyStatus s x r.apply false
      let s := overwriteBank s x r.apply false
      match verdict with
      | some (st, part) => (firstResult (setBflag (failUpdate s x (statusCode st) 6 part false) 1) (statusCode st), false)
      | none =>
        let restart := x.parts.any (fun p => p.partId == 1 && p.resultDigest != s.boot.stage2Digest)
        (applySet s x r.apply r.otpReadbackOk, restart)

/-! ### The base configuration (R68 to R72) -/

/-- A firmware with another SCHEMA resets the base and the overlays (R71); a base of the new schema stands. -/
def adoptSchema (s : State) (k : Nat) : State :=
  let c := s.flash.config
  let s := { s with flash := { s.flash with config := { c with fwSchema := some k } } }
  match c.fwSchema with
  | none => s
  | some old =>
    if old = k then s
    else
      let s := setBflag (logRecord s 0x24 (src 6 0) true (leBytes old 2 ++ leBytes k 2)) 3
      let c := s.flash.config
      let stands : Bool := match c.installed with
        | some b => imgSchema b == k
        | none => false
      if stands then { s with flash := { s.flash with config := { c with defaultsPending := false } } }
      else
        let c := { c with installed := none, previous := none, overlays := [[], [], [], [], [], []],
                          defaultsPending := true, ovlFail := 0 }
        raise { s with flash := { s.flash with config := c } } 5 3

/-- A failing entry is a rejection with PATH 2 (R57, R67). -/
def recordEntry (s : State) (v : Status × Option Nat) : State := match v.2 with
  | some a => bump (recordReject s 2 a v.1) (A.BW_REJ_COUNT + 24)
  | none => s

/-- A base that passed is put in force; its role counts hold from this boot on (R19). -/
def useBase (s : State) (b : BaseImage) (source loadStatus : Nat) : State :=
  let es := (baseOrder (imgEntries b)).map keptEntry
  let c := { s.flash.config with schema := imgSchema b, revision := imgRevision b, digest := imgDigest b, source := source,
                                 loadStatus := loadStatus, baseEntries := es }
  es.foldl applyEntry { s with flash := { s.flash with config := c },
                               boot := { s.boot with roleCounts := b.roles.getD defaultCounts } }

/-- No base is in force: every register keeps its Reset value. -/
def useResets (s : State) (loadStatus : Nat) : State :=
  { s with flash := { s.flash with config := { s.flash.config with schema := 0, revision := 0, digest := 0, source := 2,
                                                                   loadStatus := loadStatus, baseEntries := [] } },
           boot := { s.boot with roleCounts := defaultCounts } }

/-- The installed copy has failed: the previous copy is tried. -/
def fallBack (s : State) (schema : Nat) (v : Status × Option Nat) : State :=
  let code := statusCode v.1
  let s := raise (firstResult (setBflag (recordEntry s v) 2) code) 5 2
  match s.flash.config.previous with
  | none => useResets s code
  | some p => match baseVerdict s schema p with
    | none => useBase s p 1 code
    | some w => useResets (recordEntry s w) code

/-- The base is loaded (R70), and the overlay of SERVICE applied over it. CF_BOOT_MODE is as it was last written (R79). -/
def loadBase (s : State) (schema : Nat) : State :=
  let s := regSet s A.CF_BOOT_MODE s.flash.config.bootMode
  let s : State := match s.flash.config.installed with
    | none => useResets s 0
    | some b => match baseVerdict s schema b with
      | none => useBase s b 0 0
      | some v => fallBack s schema v
  let s : State := if s.boot.baseNew then
      let c := s.flash.config
      logRecord { s with boot := { s.boot with baseNew := false } } 0x23 (src 6 0) false
        (leBytes c.schema 2 ++ leBytes c.revision 2 ++ leBytes (regWord s false A.CF_BASE_STATUS).toNat 4)
    else s
  match overlayBreach s (overlayOf s 0) with
  | some f => ovlApplyFailed s 0 (overlayOf s 0) f s.seqr.next
  | none => putOverlay s (overlayOf s 0)

/-! ### Measurements, the OTP and the self-test (R390, steps 4 to 8) -/

/-- The event of MR6: the six stored overlays in mode order. -/
def overlayDigest (s : State) : Nat := Config.sha384 ((s.flash.config.overlays.flatten).flatMap entryBytes)

/-- Extend registers `k`, `k + 1`, … by digests. -/
def extendAll (s : State) (k : Nat) (ds : List Nat) : State :=
  let mr := (List.range ds.length).foldl (fun mr j => extendMr mr (k + j) (ds.getD j 0)) s.boot.mr
  { s with boot := { s.boot with mr := mr } }

/-- The lineage choice of the base (R360): the OTP with the choice made, if one is to be programmed. -/
def lineageChoice (s : State) : Option Otp :=
  let o := s.flash.otp
  let q := fieldOf s A.CP_LINEAGE 3 2
  if o.chosen ∨ q = 0 then none else some { o with chosen := true, lineage := q == 2 }

/-- Step 6: pending requests and the lineage choice are programmed; a readback that differs fails them. -/
def programOtp (s : State) (readbackOk : Bool) : State :=
  let o := s.flash.otp
  let q := fieldOf s A.CP_LINEAGE 3 2
  let s := if o.chosen && ((q == 1 && o.lineage) || (q == 2 && !o.lineage)) then
      logRecord s 0x63 (src 7 0) false (leBytes q 1 ++ leBytes (lineageByte o) 1) else s
  let line := lineageChoice s
  let asked := !s.flash.otpRoots.isEmpty || s.flash.otpDebug ||| o.debug != o.debug || line.isSome
  let done := (line.getD o)
  let roots := s.flash.otpRoots.foldl (fun rs p => rs.set p.1 (some p.2)) done.roots
  let done := { done with roots := roots, debug := o.debug ||| s.flash.otpDebug }
  let s : State := if !asked then s
    else
      let s := burnRows s done readbackOk
      if readbackOk then setBflag { s with flash := { s.flash with otp := done } } 4 else setBflag s 7
  { s with flash := { s.flash with otpRoots := [], otpDebug := 0 } }

/-- Valid ROOT slots as bits. -/
def validRoots (s : State) : Nat :=
  listSum ((List.range 4).map (fun k => if ((rootSlots s).getD k none).isSome then 2 ^ k else 0))

/-- The 16 bytes of the security state (R391). -/
def securityState (s : State) : List Byte :=
  let o := s.flash.otp
  leBytes 0x9256 2 ++ leBytes o.secVersion 1 ++ leBytes (lineageByte o) 1 ++ leBytes (debugByte o) 1 ++
    leBytes (validRoots s) 1 ++ leBytes (fieldOf s A.MO_ROOT_SLOTS 3 0) 1 ++ [0] ++ leBytes o.serial 8

/-- A unit that fails its boot test twice: the fault is lasting, named by one record, and the unit is deconfigured (R394).
The spec gives IN_WINDOW no value here: it is free. -/
def bootFault (s : State) (row inst : Nat) : State :=
  let c := faultCount s row inst
  let (w, s) := takeFree s
  let s := setFaultCount s row inst { times := c.times ++ [faultClock s row], total := sat (c.total + 1) 16, lasting := true }
  let s := raise (logRecord s 0x11 (faultSource row inst) true (faultPayload row inst (bits w 15 0) 0 false)) 3 4
  if row = 0 then engineOut s inst else if row = 6 then bankOut s inst else pipeOut s inst

/-- Step 8. The loss of too many command engines is acted on when service opens (R23, R79). -/
def selfTest (s : State) (r : BootReport) : State :=
  let s := { s with mode := { s.mode with permanent := true } }
  let s := r.badEngines.foldl (fun s n => bootFault s 0 n) s
  let s := r.badBanks.foldl (fun s n => bootFault s 6 n) s
  let s := r.badPipes.foldl (fun s n => bootFault s 8 n) s
  let s := { s with mode := { s.mode with permanent := decide ((healthy s 1).length < 16) } }
  s.flash.failedDies.foldl (fun s d => updDie s d (fun x => { x with st := 3, op := 0 })) s

/-! ### The boot record (R395, R396) -/

/-- A part entry. -/
def partBytes (id version digest : Nat) : List Byte := leBytes id 2 ++ [0, 0] ++ leBytes version 4 ++ beBytes digest 48

/-- The seven part entries. -/
def bootParts (s : State) : List Byte :=
  let part := fun (k : Nat) => partBytes k (partImage s k).version (partDigest s k)
  let c := s.flash.config
  partBytes 1 (partImage s 1).version s.boot.stage2Digest ++ part 2 ++ part 3 ++ part 4 ++ part 5 ++
    partBytes 6 (c.schema * 65536 + c.revision) c.digest ++ partBytes 7 0 (overlayDigest s)

/-- The public key of the AK. -/
def akPub (s : State) : List Byte := publicKey s.boot.keyStore.ak

/-- The boot record's payload before SIG. -/
def bootBody (s : State) (prev : Nat) : List Byte :=
  let o := s.flash.otp
  let mr0 := beBytes (s.boot.mr.getD 0 0) 48
  let endorse := Config.sha384 (ascii "FLT-AK" ++ leBytes o.serial 8 ++ mr0 ++ akPub s)
  leBytes s.boot.bootNumber 4 ++ leBytes s.boot.result 2 ++ leBytes s.boot.bflags 2 ++ leBytes o.secVersion 1 ++
    leBytes (lineageByte o) 1 ++ leBytes (debugByte o) 1 ++
    leBytes (validRoots s + 16 * fieldOf s A.MO_ROOT_SLOTS 3 0) 1 ++
    leBytes (bits (regWord s false A.SY_SILICON_REV) 7 0) 1 ++ [0, 0, 0] ++ leBytes o.serial 8 ++ beBytes prev 48 ++
    mrBytes s ++ [7, 0, 0, 0] ++ bootParts s ++ akPub s ++ [0, 0, 0] ++
    signWith s.boot.keyStore.dik endorse

/-- Step 9: the boot record is written. -/
def writeBootRecord (s : State) (prev : Nat) : State :=
  let body := bootBody s prev
  let m := Config.sha384 (ascii "FLT-BR" ++ nextHeader s 0x100 0x48C 0x1000 ++ body)
  let pay := body ++ akSignature s m
  let r : LogRec := { seq := s.log.nextSeq, typ := 0x100, source := 0x1000, flags := 1 + 2 * flag s.log.frozen.isSome,
                      payload := pay, ledger := true, createdAt := s.sessionUs, block := 0 }
  let s := { s with boot := { s.boot with bootSeq := s.log.nextSeq, chainDigest := Config.sha384 (recBytes r) } }
  let s := logRecord s 0x100 0x1000 true pay true
  if s.log.media = 3 then afterFlush s else s

/-! ### Stage two (R390) -/

/-- Steps 4 to 9. -/
def stageTwoParts (s : State) (r : BootReport) (prev : Option Nat) : State :=
  let s := if s.flash.banks.switchBoot = s.boot.bootNumber then setBflag s 0 else s
  let s := adoptSchema { s with boot := { s.boot with applying := false } } r.schema
  let s := extendAll s 1 ((List.range 4).map (fun k => partDigest s (k + 2)))
  let s := loadBase s r.schema
  let s := extendAll s 5 [s.flash.config.digest, overlayDigest s]
  let s := { s with boot := { s.boot with readyCore := true } }
  let s := programOtp s r.otpReadbackOk
  let s := extendAll s 7 [Config.sha384 (securityState s)]
  let s := selfTest s r
  let s := { s with boot := { s.boot with readyUnits := true } }
  let s := linkDown (linkDown s .a) .b
  let s := if prev.isNone then setBflag s 6 else s
  writeBootRecord s (prev.getD 0)

/-- STAGE_TWO. -/
def execStageTwo (r : BootReport) (s : State) : Host.Outcome State Fault Refusal :=
  if !live s || s.boot.stage != .stageTwo || s.boot.bootSeq != 0 || !s.power.holdUpReady then conclude s
  else
    let s := if s.log.nextSeq = 0 then firstBoot s else s
    let s := stagedSet { s with boot := { s.boot with bootNumber := findBootNumber s } }
    let prev := prevDigest s r.chainBroken
    let (s, restart) := applyStaged s r
    conclude (if restart then restartRom s else stageTwoParts s r prev)

/-! ### Mount: the first numbers (R36, R296 step 3, R299 step 7) -/

/-- CSNs of the highest programmed pages. -/
def highestCsn (s : State) : Nat :=
  max (listMax (s.flash.pages.map (fun p => pageCsn p.2))) (match s.flash.saved with
    | some k => k.csn
    | none => 0)

/-- No page of the array holds a CSN, and the checkpoint region is empty. -/
def arrayEmpty (s : State) : Bool := s.flash.pages.isEmpty && s.flash.saved.isNone

/-- The chunk of the first CSN. -/
def firstChunk (s : State) : Nat := match s.flash.chunk with
  | some k => k + 1
  | none => if arrayEmpty s then 0 else (highestCsn s + 2 ^ 27) / 2 ^ 24 + 1

/-- The chunk of the first RECORD_ID. -/
def firstRecChunk (s : State) : Nat :=
  let h := listMax (s.flash.items.map Item.recordId)
  match s.flash.recChunk with
  | some k => max k (h / 2 ^ 24) + 1
  | none => if arrayEmpty s then 0 else (h + 2 ^ 27) / 2 ^ 24 + 1

/-- Admission will start at the first CSN, and its reservation is recorded. -/
def openChunks (s : State) : State :=
  let k := firstChunk s
  let j := firstRecChunk s
  { s with seqr := { s.seqr with next := max 1 (k * 2 ^ 24) }, space := { s.space with nextRecord := j * 2 ^ 24 },
           flash := { s.flash with chunk := some k, recChunk := some j } }

/-! ### Mount: counting (R297, R298) -/

/-- The horizon from which records are replayed. -/
def savedHorizon (s : State) : Nat := match s.flash.saved with
  | some k => k.horizon
  | none => 0

/-- Every page that holds an item decodes and has valid metadata (R228, R297). -/
def itemReads (s : State) (i : Item) : Bool :=
  !itemUnread i && i.spans.all (fun x => match tabGet s.flash.pages x.page with
    | some p => (metaRead p).isSome
    | none => false)

/-- Rules 1 to 3 of R297; what lies below the horizon stands in leaves on flash. -/
def countsSoFar (s : State) (h : Nat) (i : Item) : Bool :=
  i.landed && (itemReads s i || decide (i.csn < h)) && (!i.marked || i.commit) && !s.flash.voids.contains i.csn

/-- The highest POSTED_SEQ in a run of items that follows `p`. -/
def runEnd (qs : List Nat) : Nat → Nat → Nat
  | 0, p => p
  | fuel + 1, p => if qs.contains (p + 1) then runEnd qs fuel (p + 1) else p

/-- DURABLE_PSEQ as recovery takes it (R298, R299 step 6). -/
def basePseq (s : State) : Nat := match s.flash.saved with
  | some k => k.durablePseq
  | none => listMax (s.flash.items.map Item.pseq) / 2 ^ 32 * 2 ^ 32 - 1

/-- The new base of POSTED_SEQ: the next multiple of 2^32 above the highest POSTED_SEQ found (R298). -/
def newBase (s : State) : Nat :=
  let found := s.flash.items.filter (fun i => i.landed && (itemReads s i || decide (i.csn < savedHorizon s)))
  (max (listMax (found.map Item.pseq)) (basePseq s) / 2 ^ 32 + 1) * 2 ^ 32

/-- DR_DURABLE after recovery: the CSN of the posted write numbered P; where none found bears that number, the highest CSN of
the posted writes kept (R298). -/
def durableAfter (keep : List Item) (p : Nat) : Nat :=
  match keep.find? (fun i => i.pseq != 0 && i.pseq == p) with
  | some i => i.csn
  | none => listMax ((keep.filter (fun i => i.pseq != 0)).map Item.csn)

/-- Of two copies of a chain, recovery takes the one with the higher CLEAN_CSN, then the higher GENERATION (R196). -/
def newerCopy (a b : LeafCopy) : LeafCopy :=
  if a.cleanCsn < b.cleanCsn ∨ (a.cleanCsn = b.cleanCsn ∧ a.generation < b.generation) then b else a

/-- The leaf directory after recovery: of each bucket its newest copy. -/
def newestDir (s : State) : Tab Nat := s.flash.leaves.filterMap (fun p => match p.2 with
  | [] => none
  | l :: rest => (rest.foldl newerCopy l).locs.head?.map (fun loc => (p.1, loc)))

/-- An item is applied to the newest copy of its leaf, which is left dirty in the map cache (R296, step 7). -/
def rebuildLeaf (s : State) (i : Item) : State :=
  let b := bucketOf i.digest
  let c := tabGetD s.index.chains b (chainMiss s b i.csn)
  let c := { c with leaves := chainTake i c.leaves, cleanCsn := min c.cleanCsn i.csn, dirtySince := some s.sessionUs, fetching := false }
  { s with index := { s.index with chains := tabPut s.index.chains b c } }

/-- Recovery counts the items and fixes P; leaves they touch are rebuilt and dirty, and so are those of copies that no write-back has
recorded. -/
def replay (s : State) : State :=
  let h := savedHorizon s
  let d := basePseq s
  let found := s.flash.items.filter (countsSoFar s h)
  let qs := found.map Item.pseq
  let p := runEnd qs qs.length d
  let keep := found.filter (fun i => decide (i.pseq ≤ p))
  let counted := keep.filter (fun i => decide (h ≤ i.csn))
  let items := keep.map (fun i => { i with settled := true, durable := true, encrypted := true })
  let away := fun (i : Item) => s.flash.sets.any (fun p => p.2.moved.contains (bucketOf i.digest))
  let redo := (items.filter (fun i => decide (h ≤ i.csn) || away i)).filter (fun i => decide (i.kind ≠ .lost ∨ quayOpen s i.quay))
  let s := (sortBy Item.csn redo).foldl rebuildLeaf { s with index := { s.index with dir := newestDir s } }
  { s with flash := { s.flash with items := items },
           space := { s.space with discarded := found.length - keep.length, replayed := counted.length,
                                   durableCsn := durableAfter keep p, durablePseq := p, nextPseq := newBase s } }

/-- A mount after an orderly shutdown reads no records: all that was durable stands. -/
def standStill (s : State) : State :=
  { s with index := { s.index with dir := (s.flash.saved.map (fun k => k.tables.dir)).getD [] },
           space := { s.space with durableCsn := durableAfter s.flash.items (basePseq s), durablePseq := basePseq s,
                                   nextPseq := newBase s } }

/-! ### Mount: the rest (R296) -/

/-- Read counters rise by a quarter of their threshold, and blocks that reach it are due (R263). -/
def raiseCounters (s : State) : State :=
  s.flash.blocks.foldl (fun s p =>
    let s := updBlock s p.1 (fun x => { x with reads := x.reads + readLimit s p.1 / 4 })
    if readLimit s p.1 ≤ (blockOf s p.1).reads then (match setOfBlock s p.1 with
      | some id => markDue s id 0
      | none => s)
    else s) s

/-- What a block's table says of it, beside what the die itself shows: bad and retired blocks, the marker, the mode, the baseline. -/
def Block.load (kept x : Block) : Block :=
  { x with wear := kept.wear, careens := kept.careens, residue := kept.residue, reads := kept.reads, firstCycle := kept.firstCycle }

/-- What a plane's table says of it. Retired blocks, a failed heater and a plane retired whole are known without it. -/
def Plane.load (kept : Plane) (heaterFailed : Bool) (x : Plane) : Plane :=
  { x with st := if heaterFailed then 3 else kept.st, careens := kept.careens, drift := kept.drift, measured := kept.measured }

/-- The tables that the newest readable checkpoint saves: the block tables, the planes with their campaigns, the fault windows, the patrol's
position (R296, step 2; R257, R263, R265, R299, R383). A fault's lasting action persists. -/
def loadTables (s : State) (k : Tables) : State :=
  { s with
    flash := { s.flash with
      blocks := s.flash.blocks.map (fun p => (p.1, (tabGetD k.blocks p.1 Block.fresh).load p.2))
      planes := s.flash.planes.map (fun p => (p.1, (tabGetD k.planes p.1 Plane.fresh).load (s.flash.failedHeaters.contains p.1) p.2))
      faults := s.flash.faults.map (fun p => (p.1, { tabGetD k.faults p.1 ⟨[], 0, false⟩ with lasting := p.2.lasting }))
      patrolAt := k.patrolAt }
    careen := { s.careen with patrolCount := k.patrolCount, patrolStart := k.patrolStart } }

/-- The tables where no checkpoint is readable (R299, step 3): the native wear is CA_TRIGGER.UNITS, and the rest unknown. -/
def Tables.unknown (s : State) : Tables :=
  let x := { Block.fresh with wear := fieldOf s A.CA_TRIGGER 15 0 }
  { dir := [], blocks := s.flash.blocks.map (fun p => (p.1, x)), planes := [], faults := [], patrolAt := 0, patrolCount := 0,
    patrolStart := 0, logSeq := 0 }

/-- LOW_WATER of the newest LIFE record of the logbook (R299, step 3). -/
def lifeRecordLow (s : State) : Option Nat :=
  ((s.flash.general.recs.filter (fun r => r.typ == 0x46)).getLast?).map (fun r => leAt r.payload 1 1)

/-- The tables are built from the newest readable checkpoint, and LOW_WATER with them, after a full scan from the logbook. -/
def buildTables (s : State) (kind : Nat) : State :=
  let k := (s.flash.saved.map Saved.tables).getD (Tables.unknown s)
  let low := match s.flash.saved with
    | some k => k.lowWater
    | none => s.flash.lowWater
  let s := loadTables s k
  { s with flash := { s.flash with lowWater := if kind = 2 then (lifeRecordLow s).getD low else low } }

/-! ### Careen state (R257) -/

/-- The plane that a careen record names. -/
def careenPlane (r : LogRec) : Nat := 4 * leAt r.payload 0 2 + leAt r.payload 2 1

/-- The careen records of the logbook. -/
def careenRecs (s : State) : List LogRec := s.flash.general.recs.filter (fun r => decide (0x43 ≤ r.typ) && decide (r.typ ≤ 0x45))

/-- A careen that completed after the checkpoint: the plane's blocks take native wear 0, and their careens rise by one. -/
def careened (s : State) (p : Nat) : State :=
  let done := fun (b : Nat) (x : Block) => if planeOfBlock b = p ∧ !x.bad ∧ !x.retired then { x with wear := 0, careens := x.careens + 1 } else x
  let s := { s with flash := { s.flash with blocks := s.flash.blocks.map (fun b => (b.1, done b.1 b.2)) } }
  updPlane s p (fun x => { x with st := if x.st = 3 then 3 else 0, careens := x.careens + 1 })

/-- A careen that was interrupted: its plane is held. -/
def careenHeld (s : State) (p : Nat) : State := updPlane s p (fun x => { x with st := if x.st = 3 then 3 else 2 })

/-- A plane of a stripe with a failed die runs no careen (R256): it serves, or reads no-careen where a block is at its threshold. -/
def careenEnded (s : State) (p : Nat) : State :=
  let worn := s.flash.blocks.any (fun b => planeOfBlock b.1 == p && !b.2.bad && !b.2.retired &&
    decide (fieldOf s A.CA_TRIGGER 15 0 ≤ b.2.wear))
  if (planeOf s p).st = 1 ∨ (planeOf s p).st = 2 then updPlane s p (fun x => { x with st := if worn then 3 else 0 }) else s

/-- Careen state at mount: careens completed since the checkpoint, careens interrupted, and stripes that have lost a die. -/
def careenState (s : State) : State :=
  let from_ := (s.flash.saved.map (fun k => k.tables.logSeq)).getD 0
  let ended := ((careenRecs s).filter (fun r => r.typ == 0x44 && decide (from_ ≤ r.seq))).map careenPlane
  let last := fun (p : Nat) => ((careenRecs s).filter (fun r => careenPlane r == p)).getLast?.map LogRec.typ
  let cut := (((careenRecs s).map careenPlane).dedup).filter (fun p => last p == some 0x43)
  let s := cut.foldl careenHeld (ended.foldl careened s)
  ((s.flash.planes.map Prod.fst).filter (fun p => failedInStripe s (stripeOf (p / 4)) != 0)).foldl careenEnded s

/-- The free blocks of the array (R230, R286): all but those that are mirrored, that stand out of service or in a set, and that draining,
held and retired planes withhold. -/
def freeCount (s : State) : Nat :=
  let held := heldBlocks s
  let out := (s.flash.planes.filter (fun p => p.2.gone || p.2.st == 1 || p.2.st == 2)).map Prod.fst
  let named := (s.flash.blocks.map Prod.fst ++ held).dedup.filter (fun b => !mirrored b && !out.contains (planeOfBlock b))
  let taken := (named.filter (fun b => !blockFree s held b)).length
  let withheld := listSum (out.map (fun p => ((List.range 1024).filter (fun n => !mirrored (1024 * p + n))).length))
  4192160 - (taken + withheld)

/-- The free pool as the tables give it, before the first allocation. -/
def recountFree (s : State) : State := { s with flash := { s.flash with freeBlocks := freeCount s } }

/-- Every SLC row found without its parity page is closed (R235): its unprogrammed data positions take pad pages, and then the parity page
is programmed. -/
def closeRows (s : State) : State :=
  (s.flash.sets.filter (fun p => p.2.pool == Pool.landing)).foldl (fun s p =>
    let found := (List.range ((p.2.rows + 14) / 15)).filter (fun r =>
      (tabGet s.flash.pages (rowPage p.2 r (r % 16))).isNone && !(rowPages s p.2 r (r % 16)).isEmpty)
    let s := found.foldl (fun s r => padRow s p.1 p.2 r) s
    let s := updSet s p.1 (fun x => { x with rows := (x.rows + 14) / 15 * 15 })
    closeParity s) s

/-- The erase counts after a mount (R239, R299): the checkpoint's, or a higher one in the metadata of the block's pages; a full scan has the
pages' alone. -/
def mountErases (s : State) (kind : Nat) : State :=
  let kept := if kind = 2 then [] else (s.flash.saved.map (fun k => k.tables.blocks)).getD []
  let seen := fun (b : Nat) => listMax ((s.flash.pages.filter (fun p => p.1 / 4096 == b)).map (fun p =>
    match metaRead p.2 with
    | some m => leAt m 0x20 4
    | none => 0))
  { s with flash := { s.flash with blocks := s.flash.blocks.map (fun p =>
      (p.1, { p.2 with erases := max (tabGetD kept p.1 Block.fresh).erases (seen p.1) })) } }

/-- A draining or held campaign goes on (R257). -/
def resumeCampaigns (s : State) : State :=
  let live := s.flash.planes.filter (fun p => p.2.st == 1 || p.2.st == 2)
  let ids := (live.map (fun p => 4 * stripeOf (p.1 / 4) + p.1 % 4)).dedup
  let cs := ids.map (fun id =>
    let mine := live.filter (fun p => 4 * stripeOf (p.1 / 4) + p.1 % 4 == id)
    let held := mine.filter (fun p => p.2.st == 2)
    { stripe := id / 4, plane := id % 4, step := if held.isEmpty then 1 else 2,
      position := (listMin? (held.map (fun p => stripePos (p.1 / 4)))).getD 0 : Campaign })
  { s with careen := { s.careen with campaigns := cs } }

/-- Slots of key records are SEALED, and hold no key, until an unlock (R353, R354); counters go on after the reserved chunk (R344). -/
def loadSlots (s : State) : State :=
  let slots := s.flash.keyRecords.foldl (fun t p =>
    let r := p.2
    tabPut t p.1 { kind := r.kind, st := .sealed, epoch := r.epoch, owner := r.owner, ctr := r.chunk + 2 ^ 20 - 1,
                   chunk := r.chunk, refs := 0, key := noKey, indexKey := 0,
                   shadows := r.shadows.map (fun h => { h with key := noKey }) }) s.cipher.slots
  { s with cipher := { s.cipher with slots := slots } }

/-- The tables as they stand. -/
def tablesNow (s : State) : Tables :=
  { dir := s.index.dir, blocks := s.flash.blocks, planes := s.flash.planes, faults := s.flash.faults, patrolAt := s.flash.patrolAt,
    patrolCount := s.careen.patrolCount, patrolStart := s.careen.patrolStart, logSeq := s.log.nextSeq }

/-- The mount checkpoint (R296, step 9; R298). -/
def mountCheckpoint (s : State) : State :=
  let base := s.space.nextPseq
  let n := (match s.flash.saved with
    | some k => k.seq
    | none => 0) + 1
  let k : Saved := { seq := n, csn := s.seqr.next, horizon := horizon s, durablePseq := base - 1, clean := false,
                     lowWater := s.flash.lowWater, usable := true, tables := tablesNow s }
  { s with flash := { s.flash with saved := some k },
           space := { s.space with durablePseq := base - 1, ckptSeq := n, ckptAt := s.sessionUs } }

/-- The wear bin of a block (R249): a quarter of the greatest threshold to a bin. -/
def wearBin (x : Block) : Nat := min 3 (x.wear / 7500)

/-- The survey class of a block (R266). -/
def surveyClass (x : Block) : Nat := wearBin x + (if x.tlc then 4 else 0)

/-- Blocks of closed sets. -/
def closedBlocks (s : State) : List Nat := (s.flash.sets.filter (fun p => !p.2.isOpen)).flatMap (fun p => p.2.blocks)

/-- The retention survey begins (R266). -/
def startSurvey (s : State) : State :=
  let m := 2 ^ fieldOf s A.CA_SURVEY 19 16
  let mine := (closedBlocks s).filter (fun b => (b % 1024 + dieOfBlock b) % m == s.boot.bootNumber % m)
  let work := mine.map (fun b => (surveyClass (blockOf s b), b)) ++ mirroredBlocks.map (fun b => (8, b))
  { s with careen := { s.careen with survey :=
      { active := true, sampled := [0, 0, 0, 0, 0, 0, 0, 0, 0], failing := [0, 0, 0, 0, 0, 0, 0, 0, 0], escalated := [],
        work := work, total := work.length, deadline := true } } }

/-- The mode in which service opens (R23, R70, R71, R79). -/
def openingMode (s : State) : State :=
  let csn := s.seqr.next
  if s.mode.permanent then enterMode s 5 4 csn
  else if natBits s.boot.bflags 3 3 = 1 ∨ s.flash.config.defaultsPending then enterMode s 5 3 csn
  else if natBits s.boot.bflags 2 2 = 1 then enterMode s 5 0x0B csn
  else
    let m := fieldOf s A.CF_BOOT_MODE 2 0
    if m = 0 then s else enterMode s m 2 csn

/-- Service opens (R296, step 10). -/
def openService (s : State) (kind : Nat) : State :=
  let ms := (s.sessionUs - s.boot.mountBegan) / 1000
  let boot := { s.boot with stage := .mounted, readySpace := true, mountKind := kind, mountMs := sat ms 20 }
  let s := setPhase { s with boot := boot } 2
  let s := openingMode s
  let s := logRecord s 1 (src 1 0) false (leBytes s.boot.bootNumber 4 ++ leBytes kind 1 ++ leBytes s.log.firstSeq 8)
  startErases (startSurvey s)

/-- A mount of a kind: 0 clean, 1 normal, 2 by full scan. -/
def mountAs (s : State) (kind : Nat) : State :=
  let s := mountErases (buildTables (openChunks s) kind) kind
  let s := raiseCounters (recountFree (careenState s))
  let s := if kind = 0 then standStill s else replay s
  let s := closeRows s
  let s := mountCheckpoint (resumeCampaigns s)
  let s := loadSlots s
  let s := rebuildRules { s with index := { s.index with kRule := s.draws }, draws := s.draws + 1 }
  let s := s.flash.quays.foldl (fun s p => recount s p.1) s
  let hull := (failedStripes s).filter (fun st => s.flash.sets.any (fun p => p.1 / 4096 == st))
  let s := { s with mode := { s.mode with hull := hull, rebuild := !hull.isEmpty },
                    careen := { s.careen with life := lifeOf s, lifeAt := s.sessionUs },
                    space := { s.space with reserveLeft := min 64 s.flash.freeBlocks } }
  openService s kind

/-- Mount may run: the boot record is durable. -/
def mayMount (s : State) : Bool := live s && s.boot.stage == .mounting && s.power.holdUpReady

/-- MOUNT: from the newest complete checkpoint, where it is usable (R295). -/
def execMount (s : State) : Host.Outcome State Fault Refusal :=
  match s.flash.saved with
  | some k => if mayMount s && k.usable then conclude (mountAs s (if k.clean then 0 else 1)) else conclude s
  | none => conclude s

/-- FULL_SCAN: where no checkpoint is usable. -/
def execFullScan (s : State) : Host.Outcome State Fault Refusal :=
  let usable : Bool := match s.flash.saved with
    | some k => k.usable
    | none => false
  if mayMount s && !usable then conclude (mountAs (raise s 8 3) 2) else conclude s

end Sys2Proof.Machine
end

