-- ==== Sys2Proof/Machine/PathCode.lean ====
section
/-! DEFINITION. The path code (R27): 16 check bits on every 128-bit word, read as 36 symbols of 4 bits. -/

namespace Sys2Proof.Machine

/-- The 144-bit codeword of a word: the word and its check bits. -/
def pathEncode (d : BitVec 128) : BitVec 144 := d ++ Config.pathCheck d

/-- Symbol `k` of a codeword, the lowest first. -/
def pathSymbol (c : BitVec 144) (k : Nat) : BitVec 4 := c.extractLsb' (4 * k) 4

/-- The codeword as it comes back: the symbols in error differ. -/
def pathReceived (w : PathWord) : BitVec 144 :=
  w.errors.foldl (fun (c : BitVec 144) e => c ^^^ (BitVec.zeroExtend 144 e.2 <<< (4 * e.1))) (pathEncode w.data)

/-- What the code says of a word it reads. -/
inductive PathRead where
  | clean | corrected | uncorrectable
  deriving DecidableEq, Repr

/-- The code corrects any one erroneous symbol and detects any two (R27). DESIGN CHOICE (log 154): a word with more symbols in
error, of which R27 says nothing, is detected too. -/
def pathRead (w : PathWord) : PathRead :=
  match w.errors with
  | [] => .clean
  | [_] => .corrected
  | _ => .uncorrectable

/-- The word that the reader may use: none where the code has detected it as uncorrectable (R28). -/
def pathData (w : PathWord) : Option (BitVec 128) :=
  match pathRead w with
  | .uncorrectable => none
  | .clean | .corrected => some w.data

end Sys2Proof.Machine
end

