-- ==== Sys2Proof/Machine/Cipher.lean ====
section
/-! DEFINITION. The cipher engine: alarms (R355 to R357), entropy (R338), rekeying and its sweep (R344 to R346), the pipelines
(R336, R358, R359); and the faults of R26 and R28 that the handshake watchdog and the DRAM scrub find. -/

namespace Sys2Proof.Machine

/-! ### Alarms -/

/-- The code of an alarm's cause (R355). -/
def causeCode : AlarmCause → Nat
  | .glitch => 1
  | .temperature => 2
  | .mesh => 3
  | .stall => 4

/-- The key material is gone (R356, R357): transport slots with it; the slots whose keys are wrapped in flash are SEALED. -/
def zeroiseKeys (s : State) (mesh : Bool) : State :=
  let slots := s.cipher.slots.filter (fun p => p.2.kind == 1 || p.2.kind == 4)
  let sealed := slots.map (fun p => (p.1, { p.2 with
    st := if p.2.st = .live then SlotState.sealed else p.2.st, key := noKey, indexKey := 0,
    shadows := p.2.shadows.map (fun h => { h with key := noKey }) }))
  let idle := fun (p : Pipe) => { p with running := none, saved := [], waiting := [] }
  { s with cipher := { s.cipher with slots := sealed, kek := none, locked := true, pipes := s.cipher.pipes.map idle,
                                     meshTripped := s.cipher.meshTripped || mesh,
                                     wrapBase := if mesh then none else s.cipher.wrapBase },
           boot := { s.boot with keyStore := if mesh then { dik := 0, ak := 0 } else s.boot.keyStore } }

/-- Posted writes not yet encrypted are lost with their key (R136, R342). -/
def loseUnencrypted (s : State) : State :=
  let csns := ((undurable s).filter (fun i => !i.encrypted && i.kind != .lost)).map Item.csn
  (sortBy id csns.dedup).foldl (fun s c => deferredError s c .keyLost) s

/-- The encryption of an admitted write is complete: a page of it has been transferred, or only its marker is left. -/
def pastCipher (s : State) (c : Cmd) : Bool := c.stage == .marking || (c.stage == .placed && transferred s c.csn)

/-- Admitted commands whose operations reference a slot end with E_KEY_LOST (R342, R356). -/
def endReferences (s : State) : State :=
  let hit := s.cmds.filter (fun c => c.stage == .placed && !pastCipher s c)
  resumeAll (hit.foldl (fun s c => failPlain s c .keyLost) s)

/-- An alarm trips (R356): Stop and Zeroise. Every mooring and towline is torn down, and no GONE is sent. -/
def alarmTrips (s : State) (cause zeroiseNs : Nat) : State :=
  let s := { s with cipher := { s.cipher with alarm := .settle, alarmCause := cause,
                                              alarmCount := sat (s.cipher.alarmCount + 1) 16,
                                              zeroiseNs := sat zeroiseNs 16 } }
  let s := s.moorings.foldl (fun s p => teardown s p.1 7) s
  let s := s.harbour.towlines.foldl (fun s p => teardownLine s (.towline p.1) 7) s
  let s := zeroKeyData (zeroiseKeys { s with handshakes := [], answered := [] } (cause == 3))
  endReferences (loseUnencrypted (raise s 6 0))

/-- An on-die sensor reads below −25.0 °C or above 125.0 °C: its newest sample. -/
def onDieOutside (s : State) : Bool := (List.range 16).any (fun n => match (sensorOf s 4 n).samples.getLast? with
  | some t => decide (t < -250) || decide (1250 < t)
  | none => false)

/-- A detector trips (R355): that of temperature on what the on-die sensors read; the comparator of the rail, the mesh and the watchdog of
a stage have no reading in the state. -/
def detectorTrips (s : State) (cause : AlarmCause) : Bool := cause != .temperature || onDieOutside s

/-- ALARM (R355): the detectors are armed from the end of the boot ROM until power fail. -/
def execAlarm (cause : AlarmCause) (zeroiseNs : Nat) (s : State) : Host.Outcome State Fault Refusal :=
  if live s && s.cipher.armed && detectorTrips s cause then concludeSeq (alarmTrips s (causeCode cause) zeroiseNs) else conclude s

/-- ALARM_SETTLE (R356): the operations that referenced slots have ended, so the ALARM record is written. -/
def execAlarmSettle (s : State) : Host.Outcome State Fault Refusal :=
  if s.cipher.alarm = .settle ∧ s.cmds.all (pastCipher s) then
    let s := { s with cipher := { s.cipher with alarm := .none } }
    conclude (logRecord s 0x60 (src 7 0) true
      (leBytes s.cipher.alarmCause 1 ++ [0] ++ leBytes s.cipher.zeroiseNs 2 ++ leBytes s.seqr.next 8))
  else conclude s

/-! ### Entropy (R338) -/

/-- ENTROPY_HEALTH_FAIL: the third failure in a row is lasting until the next power-on. -/
def execEntropyHealthFail (s : State) : Host.Outcome State Fault Refusal :=
  if !live s || s.cipher.entropyFailed then conclude s
  else
    let n := s.cipher.entropyStreak + 1
    let s := bumpHalf { s with cipher := { s.cipher with entropyStreak := n } } A.CP_ENTROPY 0
    let c := faultCount s 14 0
    let last := decide (3 ≤ n)
    let s := setFaultCount s 14 0 { times := c.times ++ [s.sessionUs], total := sat (c.total + 1) 16, lasting := last }
    let pay := faultPayload 14 0 n 0 false
    if last then
      let s := raise (logRecord s 0x11 (faultSource 14 0) true pay) 3 4
      let s := raise { s with cipher := { s.cipher with entropyFailed := true } } 6 4
      conclude (logRecord s 0x64 (src 7 0) true (leBytes (fieldOf s A.CP_ENTROPY 15 0) 2))
    else conclude (logRecord s 0x10 (faultSource 14 0) false pay)

/-! ### Keys: rekeying and counters (R344 to R346) -/

/-- A rekey of a slot would leave no more than four shadows. -/
def rekeyFits (s : State) (k : Nat) (x : Slot) : Bool := decide ((shadowsAfter s k x).length ≤ 4)

/-- AUTO_REKEY: a quay's slot whose counter has passed 2^47. -/
def execAutoRekey (slot : Nat) (s : State) : Host.Outcome State Fault Refusal :=
  match slotOf s slot with
  | none => conclude s
  | some x =>
    if x.kind = 1 ∧ x.st = .live ∧ 2 ^ 47 < x.ctr ∧ rekeyFits s slot x ∧ !s.cipher.entropyFailed then
      conclude (rekeySlot s slot)
    else conclude s

/-- Records of a quay whose segments name an epoch other than `e`: those without segments name none. -/
def oldEpochItems (s : State) (q e : Nat) : List Item :=
  s.flash.items.filter (fun i => i.quay == q && i.epoch != e && !i.value.isEmpty)

/-- The quay that a sweep takes next: one whose slot holds shadows. -/
def nextSweep (s : State) : Option (Nat × Nat) :=
  (s.cipher.slots.find? (fun p => p.2.kind == 1 && !p.2.shadows.isEmpty)).map (fun p => (p.2.owner, p.1))

/-- REKEY_SWEEP_END (R346, step 4): shadows that no record and no operation names are released, and the key record is
written without them. -/
def execRekeySweepEnd (s : State) : Host.Outcome State Fault Refusal :=
  match s.cipher.rekey with
  | none => conclude s
  | some (q, k) =>
    match slotOf s k with
    | none => conclude s
    | some x =>
      if (oldEpochItems s q x.epoch).isEmpty ∧ s.cipher.rekeyCkpt ≤ s.space.ckptSeq then
        let keep := x.shadows.filter (fun h => epochRefs s k h.epoch != 0)
        let s := saveKey (updSlot s k (fun x => { x with shadows := keep })) k
        let s := { s with cipher := { s.cipher with rekey := nextSweep s, rekeyCkpt := 0 } }
        conclude (raise s 6 2)
      else conclude s

/-- COUNTER_CHUNK_RESERVE (R344): half of the current chunk has been used. -/
def execCounterChunkReserve (slot : Nat) (s : State) : Host.Outcome State Fault Refusal :=
  match slotOf s slot with
  | none => conclude s
  | some x =>
    if (x.kind = 1 ∨ x.kind = 4) ∧ x.chunk + 2 ^ 19 ≤ x.ctr then
      conclude (saveKey (updSlot s slot (fun x => { x with chunk := x.chunk + 2 ^ 20 })) slot)
    else conclude s

/-! ### Pipelines (R335, R336) -/

/-- CIPHER_SUSPEND: the running message is saved, and the waiting one of higher priority runs. -/
def execCipherSuspend (pipe : Nat) (s : State) : Host.Outcome State Fault Refusal :=
  if !pipeServes s pipe then conclude s
  else match (s.cipher.pipes[pipe]?).bind suspender with
    | none => conclude s
    | some (r, w) =>
      let s := updPipe s pipe (fun p => { p with
        running := some w, waiting := p.waiting.filter (fun x => x != w),
        saved := p.saved ++ [{ r with suspendedAt := s.sessionUs }] })
      conclude (bump s (regKey A.CP_PIPE_SUSPENDS pipe))

/-- CIPHER_RESUME: the message that ran has ended, its blocks are counted, and a suspended one goes on. -/
def execCipherResume (pipe : Nat) (s : State) : Host.Outcome State Fault Refusal :=
  if !pipeServes s pipe then conclude s
  else match s.cipher.pipes[pipe]? with
    | none => conclude s
    | some p =>
      match resumer s.sessionUs p with
      | none => conclude s
      | some m =>
        let done := match p.running with
          | some r => r.left
          | none => 0
        let s := bumpBy s (regKey A.CP_PIPE_BLOCKS pipe) done
        conclude (updPipe s pipe (fun p => { p with running := some m, saved := p.saved.filter (fun x => x != m) }))

/-! ### Pipeline faults (R358, R359) -/

/-- The message that a pipeline was running is reissued from its first block on another. -/
def reissue (s : State) (pipe : Nat) : State :=
  match (s.cipher.pipes[pipe]?).bind Pipe.running, otherPipe s pipe with
  | some m, some j =>
    let s := updPipe s pipe (fun p => { p with running := none })
    updPipe s j (fun q => { q with waiting := q.waiting ++ [anew m] })
  | _, _ => s

/-- What a parity fault makes of the command whose message it stopped (R359). -/
def parityOutcome (s : State) (csn : Nat) : State :=
  match s.cmds.find? (fun c => c.csn == csn) with
  | none => s
  | some c =>
    match c.job with
    | .get key _ _ _ | .exportSegs key _ _ _ _ _ _ =>
      resumeAll (complete (dropCmd s csn) c.berth (readFail c .cipherParity (versionAt s c.quay key csn)))
    | .write _ => if c.stage = .placed ∧ !pastCipher s c then resumeAll (failPlain s c .cipherParity) else s
    | _ => s

/-- PIPE_UNCORRECTABLE: latency only in native mode; in lineage mode it acts as a parity fault on the running message. -/
def execPipeUncorrectable (pipe : Nat) (s : State) : Host.Outcome State Fault Refusal :=
  if !live s || !pipeServes s pipe then conclude s
  else
    let csn := ((s.cipher.pipes[pipe]?).bind Pipe.running).map Msg.id
    let s := reissue s pipe
    if s.flash.otp.lineage then
      let s := raise (countPipe s pipe) 6 3
      concludeSeq (match csn with
        | some k => parityOutcome s k
        | none => s)
    else conclude (countPipe s pipe)

/-- PARITY_FAULT: in lineage mode only. -/
def execParityFault (pipe csn : Nat) (s : State) : Host.Outcome State Fault Refusal :=
  if !live s || !pipeServes s pipe || !s.flash.otp.lineage then conclude s
  else concludeSeq (parityOutcome (raise (countPipe (reissue s pipe) pipe) 6 3) csn)

/-! ### The handshake watchdog (R26) -/

/-- One transient fault is counted against the unit of the stage; a stall on a cipher path trips an alarm instead, whose
duration of Zeroise is measured, and so free here. -/
def watchdogFault (s : State) (u : WatchUnit) : State :=
  match u with
  | .engine n => faultAct (bump s (A.EN_WDOG - 0x50000 + 0x1000 * (0x50 + n))) 0 n 0
  | .channel n => faultAct s 1 n 0
  | .port p => faultAct s 2 (portNum p) 0
  | .indexDie n => faultAct s 7 n 0
  | .cipher _ =>
    let (w, s) := takeFree s
    if s.cipher.armed then alarmTrips s 4 (bits w 15 0) else s
  | .other => s

/-- The second presentation expired as well (R26, step 3): an operation of the unit is reissued on another; of an engine that
is the earliest of the commands it holds. -/
def reissueOne (s : State) : WatchUnit → State
  | .engine n =>
    let s := bump s (A.EN_REISSUED - 0x50000 + 0x1000 * (0x50 + n))
    (match (sortBy Cmd.csn (engineCmds s n)).head? with
    | none => s
    | some c =>
      let away := { s with engines := tabPut s.engines n { engineOf s n with testing := true } }
      let e := dispatchEngine away
      { s with cmds := s.cmds.map (fun d => if d.csn = c.csn then { d with engine := e } else d) })
  | _ => s

/-- The unit exists. -/
def watchUnitOk : WatchUnit → Bool
  | .engine n => decide (n < 64)
  | .channel n => decide (n < 64)
  | .indexDie n => decide (n < 8)
  | .cipher n => decide (n < 8)
  | .port _ | .other => true

/-- HANDSHAKE_WATCHDOG: `again` tells that the second presentation expired as well, so that the operation is reissued on
another unit. -/
def execHandshakeWatchdog (u : WatchUnit) (again : Bool) (s : State) : Host.Outcome State Fault Refusal :=
  if !live s || !watchUnitOk u then conclude s
  else
    let s := watchdogFault (bumpBy s A.BW_WDOG_COUNT (if again then 2 else 1)) u
    concludeSeq (if again then reissueOne s u else s)

/-! ### The DRAM scrub (R28) -/

/-- Nothing of a posted write is left in the posted write buffer: its record and marker are transferred. -/
def postedTransferred (s : State) (csn : Nat) : Bool :=
  let mine := s.flash.items.filter (fun i => i.csn == csn && i.pseq != 0 && !i.durable)
  let marker := s.space.pages.any (fun p => p.2.closed && p.2.pieces.any (fun x => x.csn == csn && x.kind == .commitMarker))
  mine.all (fun i => i.encrypted && (!i.marked || i.commit || marker)) &&
  !s.space.waiting.any (fun x => x.csn == csn) &&
  !s.space.pages.any (fun p => !p.2.closed && p.2.pieces.any (fun x => x.csn == csn))

/-- A word of a value in staging is lost: the segment of a read is not released; of a write nothing is programmed. -/
def stagingLost (s : State) (csn seg : Nat) : State :=
  match s.cmds.find? (fun c => c.csn == csn) with
  | none => s
  | some c =>
    if c.stage = .waiting then updCmd s csn (fun c => { c with badSegs := c.badSegs ++ [seg] })
    else if c.stage = .placed ∧ !transferred s csn then resumeAll (failPlain s c .integrity)
    else s

/-- What an uncorrectable word does, by its location. -/
def uncorrectable (s : State) : ScrubPlace → State
  | .cleanLeaf b => match tabGet s.index.chains b with
    | some c =>
      if c.dirtySince.isSome then s
      else if c.pending.isEmpty ∧ c.readers.isEmpty then { s with index := { s.index with chains := tabErase s.index.chains b } }
      else { s with index := { s.index with chains := tabPut s.index.chains b { c with fetching := true } } }
    | none => s
  | .staging csn seg => stagingLost s csn seg
  | .posted csn => if !(undurable s).any (fun i => i.csn == csn) || postedTransferred s csn then s
    else deferredError s csn .integrity
  | .engine n => if n < 64 then reissueOne s (.engine n) else s
  | .link u again => if again && watchUnitOk u then reissueOne s u else s
  | .dirtyLeaf _ | .buffer _ _ | .elsewhere => s

/-- The location class of a place (R28): 0 DRAM, 1 engine SRAM, 2 fabric link, 3 flash transfer buffer. -/
def pathClass : ScrubPlace → Nat
  | .engine _ => 1 | .link _ _ => 2 | .buffer _ _ => 3
  | .cleanLeaf _ | .dirtyLeaf _ | .staging _ _ | .posted _ | .elsewhere => 0

/-- An error under the path code is counted against its location class (R28), and in the register of its place where it has
one. -/
def countPath (s : State) (place : ScrubPlace) (bad : Bool) : State :=
  let k := 2 * pathClass place + flag bad
  let s := { s with pathErrors := tabPut s.pathErrors k (tabGetD s.pathErrors k 0 + 1) }
  match place with
  | .engine n => if n < 64 then bump s (if bad then 0x5005C + 0x1000 * n else 0x50058 + 0x1000 * n) else s
  | .link _ _ | .buffer _ _ => s
  | .cleanLeaf _ | .dirtyLeaf _ | .staging _ _ | .posted _ | .elsewhere =>
    bump s (if bad then A.SY_DRAM_UNCORR else A.SY_DRAM_CORR)

/-- The fault that an uncorrectable word counts (R382): row 5 for DRAM, row 0 for an engine's SRAM. -/
def pathFault (s : State) (channel : Nat) (place : ScrubPlace) : State :=
  match place with
  | .engine n => if n < 64 then faultAct s 0 n 0 else s
  | .link _ _ | .buffer _ _ => s
  | .cleanLeaf _ | .dirtyLeaf _ | .staging _ _ | .posted _ | .elsewhere => faultAct s 5 channel 0

/-- DRAM_SCRUB: a word read under the path code, by the scrub of a DRAM channel or as an operation meets it elsewhere. -/
def execDramScrub (channel : Nat) (r : ScrubRead) (s : State) : Host.Outcome State Fault Refusal :=
  if !live s || decide (8 ≤ channel) then conclude s
  else match pathRead r.word with
    | .clean => conclude s
    | .corrected => conclude (countPath s r.place false)
    | .uncorrectable => concludeSeq (uncorrectable (pathFault (countPath s r.place true) channel r.place) r.place)

end Sys2Proof.Machine
end

