-- ==== Sys2Proof/Machine/RegCommands.lean ====
section
/-! DEFINITION. Single register writes by a mooring (R55 to R62): every command of the table that is one in-band write of a
register, the time limit of a shadow (R59), and the end of an orderly shutdown (R62). -/

namespace Sys2Proof.Machine

/-! ### One register write -/

/-- Checks 2 to 5 of R126 for a single write. -/
def writeRefused (s : State) (m : Mooring) (addr : Nat) (w : Word) : Option Status :=
  if m.role ≠ 1 ∧ m.role ≠ 2 then some .auth
  else if s.seqr.barrier then some .busyActivating
  else if !serviceOpen s then some .state
  else if s.log.frozen.isSome && addr == A.LB_CONTROL && bit w 29 then some .frozen
  else none

/-- The outcome of a single write leaves the drive. -/
def writeOut (s : State) (m csn : Nat) (st : Status) : State :=
  { s with out := s.out ++ [Output.writeDone m csn (statusCode st)] }

/-- A mooring writes one word: it takes the next CSN, whose chunk must be recorded (R36), is checked under R57, and is applied whole or rejected whole. -/
def singleWrite (s : State) (m addr : Nat) (w : Word) : State :=
  match mooringOf s m with
  | none => s
  | some x =>
    if x.st = .tearingDown ∨ (serviceOpen s && !csnReady s 1) then s
    else match writeRefused s x addr w with
      | some st => writeOut s m 0 st
      | none =>
        let (csn, s) := takeCsn s
        let (s, st, waits) := writeRegs s 0 m x.role addr csn none [w]
        if waits then s else writeOut s m csn st

/-- A register's word as it reads, with a bit set: what a writer sends to set one bit (check 5 of R57). -/
def withBit (s : State) (addr b : Nat) : Word := regWord s false addr ||| word (2 ^ b)

/-- REGISTER_WRITE: a write to any register. -/
def execRegisterWrite (mooring address : Nat) (value : Word) (s : State) : Host.Outcome State Fault Refusal :=
  concludeSeq (singleWrite s mooring address value)

/-! ### The page header (R51 to R53, R58 to R60) -/

/-- COMMIT (R58). -/
def execCommit (mooring page : Nat) (s : State) : Host.Outcome State Fault Refusal :=
  concludeSeq (singleWrite s mooring (page * 0x1000 + 0x10) 1)

/-- ABANDON (R59). -/
def execAbandon (mooring page : Nat) (s : State) : Host.Outcome State Fault Refusal :=
  concludeSeq (singleWrite s mooring (page * 0x1000 + 0x10) 2)

/-- CLR_ERR (R51). -/
def execClrErr (mooring page : Nat) (s : State) : Host.Outcome State Fault Refusal :=
  concludeSeq (singleWrite s mooring (page * 0x1000 + 0x10) 4)

/-- PG_EVT_STATUS_CLEAR (R52). -/
def execPgEvtStatusClear (mooring page : Nat) (mask : Word) (s : State) : Host.Outcome State Fault Refusal :=
  concludeSeq (singleWrite s mooring (page * 0x1000 + 0x14) mask)

/-- LOCK (R60). -/
def execLock (mooring page : Nat) (s : State) : Host.Outcome State Fault Refusal :=
  concludeSeq (singleWrite s mooring (page * 0x1000 + 0x20) 1)

/-- SHADOW_TIMEOUT (R59): 10 s of powered time without a write from the owner. -/
def execShadowTimeout (page : Nat) (s : State) : Host.Outcome State Fault Refusal :=
  match shadowOf s page with
  | none => conclude s
  | some h => if h.lastWrite + 10000000 ≤ s.sessionUs then conclude (discardShadow s page) else conclude s

/-! ### The system page (R61, R62, R78) -/

/-- SY_MODE_REQ (R75 to R78). -/
def execSyModeReq (mooring : Nat) (value : Word) (s : State) : Host.Outcome State Fault Refusal :=
  concludeSeq (singleWrite s mooring A.SY_MODE_REQ value)

/-- PSTATE_LIMIT (R323). -/
def execPstateLimit (mooring limit : Nat) (s : State) : Host.Outcome State Fault Refusal :=
  concludeSeq (singleWrite s mooring A.SY_PWR_CTRL (insertBits (regWord s false A.SY_PWR_CTRL) 2 0 limit))

/-- SHUTDOWN (R62, step 1). -/
def execShutdown (mooring : Nat) (s : State) : Host.Outcome State Fault Refusal :=
  concludeSeq (singleWrite s mooring A.SY_PWR_CTRL (withBit s A.SY_PWR_CTRL 8))

/-- The newest checkpoint is the clean one of an orderly shutdown (R62, step 4; R293). -/
def cleanSaved (s : State) : Bool := match s.flash.saved with
  | some k => k.clean
  | none => false

/-- The steps of R62 before the checkpoint have ended: every admitted command has completed, and the drive-scope seal. -/
def shutdownSealed (s : State) : Bool :=
  s.phase == 3 && allComplete s && !s.seals.any (fun q => q.purpose == .shutdown)

/-- SHUTDOWN_COMPLETE (R62, step 5): SY_PHASE becomes 0x4, and the moorings are torn down with cause 0x06. -/
def execShutdownComplete (s : State) : Host.Outcome State Fault Refusal :=
  if shutdownSealed s && cleanSaved s then
    let s := setPhase s 4
    let s := s.moorings.foldl (fun s p => teardown s p.1 6) s
    concludeSeq (s.harbour.towlines.foldl (fun s p => teardownLine s (.towline p.1) 6) s)
  else conclude s

/-! ### Configuration, moorings, links -/

/-- CF_OVL_MODE (R80). -/
def execCfOvlMode (mooring : Nat) (value : Word) (s : State) : Host.Outcome State Fault Refusal :=
  concludeSeq (singleWrite s mooring A.CF_OVL_MODE value)

/-- CF_DEFAULTS_ACCEPT (R71). -/
def execCfDefaultsAccept (mooring : Nat) (s : State) : Host.Outcome State Fault Refusal :=
  concludeSeq (singleWrite s mooring A.CF_DEFAULTS_ACCEPT 1)

/-- RETRAIN (R82, R117). -/
def execRetrain (mooring : Nat) (p : Port) (s : State) : Host.Outcome State Fault Refusal :=
  let a := npAddr p A.NP_LINK_CTRL
  concludeSeq (singleWrite s mooring a (withBit s a 8))

/-- MO_KILL (R114, R118). -/
def execMoKill (mooring : Nat) (value : Word) (s : State) : Host.Outcome State Fault Refusal :=
  concludeSeq (singleWrite s mooring A.MO_KILL value)

/-- MO_CERT_GEN_MIN of a role (R118). -/
def execMoCertGenMin (mooring role : Nat) (value : Word) (s : State) : Host.Outcome State Fault Refusal :=
  if 1 ≤ role ∧ role ≤ 4 then concludeSeq (singleWrite s mooring (A.MO_CERT_GEN_MIN + 4 * (role - 1)) value)
  else conclude s

/-! ### Tests, calibration, diagnostics, checkpoints -/

/-- CM_TEST_START (R220). -/
def execCmTestStart (mooring : Nat) (s : State) : Host.Outcome State Fault Refusal :=
  concludeSeq (singleWrite s mooring A.CM_TEST (withBit s A.CM_TEST 31))

/-- FC_CAL_START (R243). -/
def execFcCalStart (mooring channel die : Nat) (s : State) : Host.Outcome State Fault Refusal :=
  if channel < 64 ∧ die < 16 then
    let a := fcBase channel + 0xA4
    concludeSeq (singleWrite s mooring a (insertBits (withBit s a 31) 27 24 die))
  else conclude s

/-- FC_DIAG_START (R248). -/
def execFcDiagStart (mooring channel mode : Nat) (s : State) : Host.Outcome State Fault Refusal :=
  if channel < 64 ∧ mode < 4 then
    let a := fcBase channel + 0xBC
    concludeSeq (singleWrite s mooring a (insertBits (withBit s a 31) 9 8 mode))
  else conclude s

/-- EN_TEST_START (R332). -/
def execEnTestStart (mooring engine : Nat) (s : State) : Host.Outcome State Fault Refusal :=
  if engine < 64 then
    let a := 0x50000 + 0x1000 * engine + 0x64
    concludeSeq (singleWrite s mooring a (withBit s a 31))
  else conclude s

/-- CKPT_NOW (R292). -/
def execCkptNow (mooring : Nat) (s : State) : Host.Outcome State Fault Refusal :=
  concludeSeq (singleWrite s mooring A.DR_CKPT (withBit s A.DR_CKPT 31))

/-! ### The logbook (R373, R374, R377, R380) -/

/-- ACK_VOLATILE. -/
def execAckVolatile (mooring : Nat) (s : State) : Host.Outcome State Fault Refusal :=
  concludeSeq (singleWrite s mooring A.LB_CONTROL (withBit s A.LB_CONTROL 31))

/-- NEW_NONCE. -/
def execNewNonce (mooring : Nat) (s : State) : Host.Outcome State Fault Refusal :=
  concludeSeq (singleWrite s mooring A.LB_CONTROL (withBit s A.LB_CONTROL 30))

/-- FREEZE. -/
def execFreeze (mooring : Nat) (s : State) : Host.Outcome State Fault Refusal :=
  concludeSeq (singleWrite s mooring A.LB_CONTROL (withBit s A.LB_CONTROL 29))

/-- THAW. -/
def execThaw (mooring : Nat) (s : State) : Host.Outcome State Fault Refusal :=
  concludeSeq (singleWrite s mooring A.LB_CONTROL (withBit s A.LB_CONTROL 28))

/-! ### The harbour and the key group -/

/-- REBUILD_START (R445). -/
def execRebuildStart (mooring : Nat) (s : State) : Host.Outcome State Fault Refusal :=
  concludeSeq (singleWrite s mooring A.HB_CTRL (withBit s A.HB_CTRL 31))

/-- REBUILD_END (R445, R500). -/
def execRebuildEnd (mooring : Nat) (s : State) : Host.Outcome State Fault Refusal :=
  concludeSeq (singleWrite s mooring A.HB_CTRL (withBit s A.HB_CTRL 30))

/-- A write of HB_ID.ID (R431). -/
def execHbIdWrite (mooring : Nat) (value : Word) (s : State) : Host.Outcome State Fault Refusal :=
  concludeSeq (singleWrite s mooring A.HB_ID value)

/-- A COMMIT of the key group, where its shadow holds an OP. -/
def keyGroupWrite (s : State) (mooring op : Nat) : State :=
  if (keyGroup s).1 = op then singleWrite s mooring 0x6010 1 else s

/-- WRITE_EXPORT_KEY (R361, OP 1). -/
def execWriteExportKey (mooring : Nat) (s : State) : Host.Outcome State Fault Refusal :=
  concludeSeq (keyGroupWrite s mooring 1)

/-- REKEY_QUAY_SLOT (R361, OP 2). -/
def execRekeyQuaySlot (mooring : Nat) (s : State) : Host.Outcome State Fault Refusal :=
  concludeSeq (keyGroupWrite s mooring 2)

/-- ERASE_EXPORT_SLOT (R361, OP 3). -/
def execEraseExportSlot (mooring : Nat) (s : State) : Host.Outcome State Fault Refusal :=
  concludeSeq (keyGroupWrite s mooring 3)

end Sys2Proof.Machine
end

