-- ==== Sys2Proof/Machine/Sideband.lean ====
section
/-! DEFINITION. The I3C sideband: private reads and writes (R54, R56, R66), the ledger cursor (R376), dynamic addresses and the
common command codes (R472 to R474). -/

namespace Sys2Proof.Machine

/-- Pages that the sideband may read (R54): SY, HM and LB. -/
def sbPage (p : Nat) : Bool := p == 0 || p == 1 || p == 3

/-- The ledger record before a sequence, or the first available one. -/
def olderSeq (s : State) (q : Nat) : Option Nat :=
  match (s.flash.ledger.recs.filter (fun r => decide (r.seq < q))).getLast? with
  | some r => some r.seq
  | none => s.flash.ledger.recs.head?.map LogRec.seq

/-- The cursor moves on a sideband read of LB_SB_NEWEST or LB_SB_OLDER (R376). -/
def moveCursor (s : State) (addr : Nat) : State :=
  if addr = A.LB_SB_NEWEST then
    { s with sideband := { s.sideband with cursor := s.flash.ledger.recs.getLast?.map LogRec.seq } }
  else if addr = A.LB_SB_OLDER then
    { s with sideband := { s.sideband with cursor := s.sideband.cursor.bind (olderSeq s) } }
  else s

/-- A rejected sideband read is recorded with PATH 1 (R44, R56). -/
def recordRead (s : State) (addr : Nat) (st : Status) : State :=
  let s := regSet s A.SY_ADDR_ERR_STATUS (pack [(1, 30, 2), (statusCode st, 0, 16)])
  raise (regSet s A.SY_ADDR_ERR_ADDR (word addr)) 0 1

/-- One word of a private read: zeros, and a record of the rejection, where R44 or R54 does not allow it. -/
def sbReadWord (s : State) (addr : Nat) : State × Word :=
  if !sbPage (addr / 0x1000) then (recordRead s addr .auth, 0)
  else if addr % 4 ≠ 0 then (recordRead s addr .range, 0)
  else
    let (s, w) := readReg (moveCursor s addr) true addr
    (s, w)

/-- Consecutive words of a private read of a page that the sideband may read, in ascending order. -/
def sbWords : Nat → State → Nat → State × List Word
  | 0, s, _ => (s, [])
  | k + 1, s, addr =>
    let (s, w) := sbReadWord s addr
    let (s, ws) := sbWords k s (addr + 4)
    (s, w :: ws)

/-- A private read of consecutive words. A read that is rejected returns zeros and is recorded once (R56). DESIGN CHOICE (log
150): the record names the address of its first word. -/
def sbRead (k : Nat) (s : State) (addr : Nat) : State × List Word :=
  if k = 0 then (s, [])
  else if !sbPage (addr / 0x1000) then (recordRead s addr .auth, List.replicate k 0)
  else if addr % 4 ≠ 0 then (recordRead s addr .range, List.replicate k 0)
  else sbWords k s addr

/-- What the sideband puts on the bus. -/
def busOut (s : State) (o : Output) : State := { s with out := s.out ++ [o] }

/-- No transfer is in progress: its STOP has come. -/
def endTransfer (s : State) : State := { s with sideband := { s.sideband with openSince := none } }

/-- I3C_PRIVATE_READ: at most 64 words from the last address written, and not beyond the end of the page (R56). -/
def execI3cPrivateRead (words : Nat) (s : State) : Host.Outcome State Fault Refusal :=
  if !addressed s then conclude s
  else
    let a := s.sideband.address
    let (s, ws) := sbRead (min words (min 64 ((0x1003 - a % 0x1000) / 4))) (endTransfer s) a
    conclude (busOut s (.i3cWords ws))

/-- A transfer that breaks its form or its time is discarded whole and counted (R66, R475). -/
def badTransfer (s : State) : State :=
  { rejectTransfer s with sideband := { s.sideband with protocolError := true, openSince := none } }

/-- I3C_PRIVATE_WRITE: a rejected write is acknowledged like any other, and takes effect on the STOP that ends its transfer (R56);
until then only the START of the transfer is held. -/
def execI3cPrivateWrite (w : I3cWrite) (s : State) : Host.Outcome State Fault Refusal :=
  if !addressed s then conclude s
  else if !w.stop then
    conclude { s with sideband := { s.sideband with openSince := some (s.sessionUs - w.tookUs) } }
  else if !w.wellFormed || decide (fieldOf s A.BW_I3C_TMO 15 0 < w.tookUs) then conclude (badTransfer s)
  else
    let s := { s with sideband := { s.sideband with address := w.address % 2 ^ 24, openSince := none } }
    let s : State := match w.data with
      | none => s
      | some d => (writeRegs s 1 0 0 (w.address % 2 ^ 24) 0 none [d]).1
    concludeSeq (busOut s (.i3cAck true))

/-- The transfer in progress has exceeded BW_I3C_TMO since its START (R66). -/
def transferLate (s : State) : Bool :=
  match s.sideband.openSince with
  | some t => addressed s && decide (t + fieldOf s A.BW_I3C_TMO 15 0 < s.sessionUs)
  | none => false

/-- I3C_TRANSFER_TIMEOUT: the transfer in progress is abandoned with any write it carried (R66). -/
def execI3cTransferTimeout (s : State) : Host.Outcome State Fault Refusal :=
  if transferLate s then conclude (badTransfer s) else conclude s

/-- A sideband read of one register. -/
def sbReadOne (s : State) (addr : Nat) : State :=
  let (s, w) := sbReadWord { s with sideband := { s.sideband with address := addr } } addr
  busOut s (.i3cWords [w])

/-- LB_SB_NEWEST (R376). -/
def execLbSbNewest (s : State) : Host.Outcome State Fault Refusal :=
  if addressed s then conclude (sbReadOne s A.LB_SB_NEWEST) else conclude s

/-- LB_SB_OLDER (R376). -/
def execLbSbOlder (s : State) : Host.Outcome State Fault Refusal :=
  if addressed s then conclude (sbReadOne s A.LB_SB_OLDER) else conclude s

/-! ### Common command codes (R474) -/

/-- ENEC: acknowledged, no effect. -/
def execEnec (s : State) : Host.Outcome State Fault Refusal :=
  if sidebandUp s then conclude (busOut s (.i3cAck true)) else conclude s

/-- DISEC: acknowledged, no effect. -/
def execDisec (s : State) : Host.Outcome State Fault Refusal :=
  if sidebandUp s then conclude (busOut s (.i3cAck true)) else conclude s

/-- RSTDAA: the dynamic address is cleared. -/
def execRstdaa (s : State) : Host.Outcome State Fault Refusal :=
  if sidebandUp s then conclude { s with sideband := { s.sideband with dynamicAddr := none } } else conclude s

/-- The identity on the bus (R473). -/
def pidBytes (s : State) : List Byte :=
  let slot := if s.power.strapValid then s.power.slotFirst % 16 else 15
  beBytes (0x2B16 * 2 ^ 33 + 0x9256 * 2 ^ 16 + slot * 2 ^ 12 + s.flash.otp.serial % 2 ^ 12) 6

/-- ENTDAA: a drive without an address takes part once its straps are accepted or declared failed (R473). -/
def execEntdaa (address : Nat) (s : State) : Host.Outcome State Fault Refusal :=
  if sidebandUp s && s.sideband.dynamicAddr.isNone && (s.power.strapValid || s.power.strapFailed) then
    let s := { s with sideband := { s.sideband with dynamicAddr := some address } }
    conclude (busOut s (.i3cBytes (pidBytes s ++ [0, 0])))
  else conclude s

/-- SETNEWDA: the dynamic address is changed. -/
def execSetnewda (address : Nat) (s : State) : Host.Outcome State Fault Refusal :=
  if addressed s then
    conclude (busOut { s with sideband := { s.sideband with dynamicAddr := some address } } (.i3cAck true))
  else conclude s

/-- A direct code that returns bytes. -/
def answerCode (s : State) (bs : List Byte) : State := if addressed s then busOut s (.i3cBytes bs) else s

/-- GETMWL. -/
def execGetmwl (s : State) : Host.Outcome State Fault Refusal := conclude (answerCode s [0x00, 0x08])

/-- GETMRL. -/
def execGetmrl (s : State) : Host.Outcome State Fault Refusal := conclude (answerCode s [0x01, 0x00])

/-- GETPID. -/
def execGetpid (s : State) : Host.Outcome State Fault Refusal := conclude (answerCode s (pidBytes s))

/-- GETBCR. -/
def execGetbcr (s : State) : Host.Outcome State Fault Refusal := conclude (answerCode s [0x00])

/-- GETDCR. -/
def execGetdcr (s : State) : Host.Outcome State Fault Refusal := conclude (answerCode s [0x00])

/-- The status word of GETSTATUS. -/
def statusBits (s : State) : Nat := 4096 * flag s.boot.quoteReady + 256 * s.phase + 32 * flag s.sideband.protocolError

/-- GETSTATUS: the protocol error is one since the last GETSTATUS. -/
def execGetstatus (s : State) : Host.Outcome State Fault Refusal :=
  if addressed s then
    let t := answerCode s (beBytes (statusBits s) 2)
    conclude { t with sideband := { t.sideband with protocolError := false } }
  else conclude s

end Sys2Proof.Machine
end

