-- ==== Sys2Proof/Machine/Careen.lean ====
section
/-! DEFINITION. Careening (R249 to R268): campaigns, dry dock and the pulse train, aborts, verify and residue, life, refresh,
the patrol and the retention survey. -/

namespace Sys2Proof.Machine

/-! ### Starting a campaign (R250, R251) -/

/-- A stripe plane is due: a block of it has reached the threshold, on a plane that can still be careened. -/
def dueBlock (s : State) (b : Nat × Block) : Bool :=
  !b.2.bad && !b.2.retired && decide (fieldOf s A.CA_TRIGGER 15 0 ≤ b.2.wear) && !noCareen s (planeOfBlock b.1) &&
    !(planeOf s (planeOfBlock b.1)).gone

/-- The stripe plane of a block, as 4 × stripe + plane. -/
def stripePlaneOf (b : Nat) : Nat := 4 * stripeOf (dieOfBlock b) + b / 1024 % 4

/-- No campaign runs in the stripe and no die of it has failed. -/
def stripeReady (s : State) (stripe : Nat) : Bool :=
  !s.careen.campaigns.any (fun c => c.stripe == stripe) && failedInStripe s stripe == 0

/-- The due stripe plane that starts first: the highest native wear, then the lower stripe, then the lower plane. -/
def firstDue (s : State) : Option (Nat × Nat) :=
  s.flash.blocks.foldl (fun m b =>
    if dueBlock s b && stripeReady s (stripePlaneOf b.1 / 4) then
      match m with
      | none => some (stripePlaneOf b.1, b.2.wear)
      | some (id, w) =>
        if w < b.2.wear ∨ (w = b.2.wear ∧ stripePlaneOf b.1 < id) then some (stripePlaneOf b.1, b.2.wear) else m
    else m) none

/-- The stripe plane is marked draining, and its free blocks leave the pool. -/
def beginCampaign (s : State) (id : Nat) : State :=
  let c : Campaign := { stripe := id / 4, plane := id % 4, step := 1, position := 0 }
  let s := (List.range 16).foldl (fun s k =>
    let p := campPlane c k
    updPlane (takeBlocks s (freeInPlane s p)) p (fun x => { x with st := 1 })) s
  let open_ := (s.flash.sets.filter (fun x => x.1 / 1024 == id && x.2.isOpen)).map Prod.fst
  let s := closeParity (open_.foldl closeIfOpen s)
  { s with careen := { s.careen with campaigns := s.careen.campaigns ++ [c] } }

/-- CAMPAIGN_START: a due stripe plane starts where R251 allows it; campaigns that waited at a step boundary go on. -/
def execCampaignStart (s : State) : Host.Outcome State Fault Refusal :=
  if live s && serviceOpen s && !activating s then
    let may := decide (s.careen.campaigns.length < fieldOf s A.CA_CTRL 22 16) && s.space.state == 0 && !paused s
    let s := match firstDue s with
      | some (id, _) => if may then beginCampaign s id else s
      | none => s
    conclude (reviewCampaigns s)
  else conclude s

/-! ### Dry dock (R232, R253) -/

/-- The package sensor of a die reads at most a limit in 0.1 °C. -/
def packageAtMost (s : State) (die limit : Nat) : Bool :=
  match sensorValue s (sensorKey 2 (die / 8)) with
  | some t => decide (t ≤ (limit : Int))
  | none => false

/-- The neighbours of a die: one number above and below on its channel, and its number on the channels next to it. -/
def neighbours (die : Nat) : List Nat :=
  (if die % 16 = 0 then [] else [die - 1]) ++ (if die % 16 = 15 then [] else [die + 1]) ++
    (if die < 16 then [] else [die - 16]) ++ (if 1008 ≤ die then [] else [die + 16])

/-- The energy of a die's first window in dry dock: a hard deadline of class CAREEN (R309, R312). -/
def dockEnergy (s : State) (die : Nat) : Work := workOn s 4 6 die 1 (some s.sessionUs)

/-- The grant of dry dock (R232, R253, R309). -/
def dockGrant (s : State) (die : Nat) : Bool :=
  let d := dieOf s die
  live s && !activating s && !paused s && (dockOf s die).phase == 1 && d.st == 0 && d.op == 0 && stripeFree s die &&
    !holdsOpenRow s die && packageAtMost s die (fieldOf s A.CA_THERM 15 0) &&
    (neighbours die).all (fun x => packageAtMost s x (fieldOf s A.CA_THERM 31 16)) &&
    decide (docked s < min (fieldOf s A.CA_CTRL 6 0) (dockLimit s)) && fits s (dockEnergy s die)

/-- A die enters dry dock: its energy is charged, CAREEN_BEGIN is written, and the heater check begins. -/
def enterDock (s : State) (die : Nat) : State :=
  let k := dockOf s die
  let s := charge s (dockEnergy s die)
  let s := updDie s die (fun x => { x with st := 1, op := 8 })
  let s := logRecord s 0x0043 (src 10 0) false
    (leBytes die 2 ++ leBytes k.plane 1 ++ [0] ++ leBytes (4 * stripeOf die + k.plane) 2)
  let s := sampleHeaters s die true
  updDock s die (fun x => { x with phase := 2, pulses := 0, since := s.sessionUs, overran := false })

/-- DRY_DOCK_GRANT. -/
def execDryDockGrant (die : Nat) (s : State) : Host.Outcome State Fault Refusal :=
  let s := if live s && !activating s then reviewCampaigns s else s
  if dockGrant s die then conclude (enterDock s die) else conclude s

/-! ### The pulse train (R255, R261) -/

/-- The heater-local temperature of a plane, in 0.1 °C, has reached a limit. -/
def heaterAtLeast (s : State) (p limit : Nat) : Bool := match sensorValue s (sensorKey 3 p) with
  | some t => decide ((limit : Int) ≤ t)
  | none => false

/-- It is at most a limit. -/
def heaterAtMost (s : State) (p limit : Nat) : Bool := match sensorValue s (sensorKey 3 p) with
  | some t => decide (t ≤ (limit : Int))
  | none => false

/-- A heater-local sensor's last median lies outside its plausibility window (R63, R64). -/
def heaterOutside (s : State) (p : Nat) : Bool := match (sensorOf s 3 p).samples with
  | [a, b, c] => !plausible s 3 (median3 a b c)
  | _ => false

/-- CA_ANNEAL.TEMP. -/
def annealTemp (s : State) : Nat := fieldOf s A.CA_ANNEAL 27 16

/-- The drift, in ppm, of a plane's heater that measures `raw` (R261). -/
def driftOf (s : State) (p raw : Nat) : Nat :=
  let r := Config.heaterAt25 raw (sensorValue s (sensorKey 2 (p / 32)))
  let r0 := Config.heaterR0 p
  (max r r0 - min r r0) * 1000000 / r0

/-- The plane that a docked die careens, as 4 × die + plane. -/
def dockPlane (s : State) (die : Nat) : Nat := 4 * die + (dockOf s die).plane

/-- A docked die goes to a phase. -/
def dockPhase (s : State) (die phase : Nat) : State :=
  updDock s die (fun x => { x with phase := phase, since := s.sessionUs, overran := false })

/-- The phase under way of a die's dock has lasted `us`. -/
def phaseLasted (s : State) (die us : Nat) : Bool := decide ((dockOf s die).since + us ≤ s.sessionUs)

/-- The phase has exceeded its maximum, and no fault is counted for that yet. -/
def phaseOverran (s : State) (die us : Nat) : Bool := decide ((dockOf s die).since + us < s.sessionUs) && !(dockOf s die).overran

/-- The overrun of a phase is counted against the heater, once. -/
def overranFault (s : State) (die : Nat) : State :=
  heaterFault (updDock s die (fun x => { x with overran := true })) (dockPlane s die)

/-- HEATER_CHECK, after 2 ms: the resistance that the heater measures gives its drift; a failed heater goes straight to Release. -/
def execHeaterCheck (die resistance : Nat) (s : State) : Host.Outcome State Fault Refusal :=
  if live s && (dockOf s die).phase == 2 && phaseLasted s die 2000 then
    let p := dockPlane s die
    let ppm := driftOf s p resistance
    let s := updPlane s p (fun x => { x with drift := ppm, measured := true })
    if fieldOf s A.CA_HEATER_LIMIT 23 0 ≤ ppm then conclude (dockPhase (heaterOut s p) die 6)
    else
      let s := updDock s die (fun x => { x with heated := true })
      conclude (recomputeLife (dockPhase s die 3))
  else conclude s

/-- RAMP: the anneal temperature is reached, or 50 ms have been exceeded and a fault is counted. -/
def execRamp (die : Nat) (overrun : Bool) (s : State) : Host.Outcome State Fault Refusal :=
  if live s && (dockOf s die).phase == 3 then
    let p := dockPlane s die
    if overrun then
      if phaseOverran s die 50000 then
        let s := overranFault s die
        conclude (if s.flash.failedHeaters.contains p then dockPhase s die 5 else s)
      else conclude s
    else conclude (if heaterAtLeast s p (annealTemp s) then dockPhase s die 4 else s)
  else conclude s

/-- PULSE_TRAIN: the rest of the last pulse ends; a pulse and its rest take 12 ms. -/
def execPulseTrain (die : Nat) (s : State) : Host.Outcome State Fault Refusal :=
  let n := fieldOf s A.CA_ANNEAL 15 8
  if live s && (dockOf s die).phase == 4 && phaseLasted s die (12000 * n) then
    conclude (dockPhase (updDock s die (fun x => { x with pulses := n })) die 5)
  else conclude s

/-- The die has cooled to 100 °C; where its heater-local sensor has failed and shows nothing, after the 80 ms (DESIGN CHOICE: log
entry 193). -/
def hasCooled (s : State) (die : Nat) : Bool :=
  let p := dockPlane s die
  heaterAtMost s p 1000 || (sensorDown s (sensorKey 3 p) && phaseLasted s die 80000)

/-- COOL: 100 °C is reached, or 80 ms have been exceeded, a fault is counted and the die stays until it is cool. -/
def execCool (die : Nat) (overrun : Bool) (s : State) : Host.Outcome State Fault Refusal :=
  if live s && (dockOf s die).phase == 5 then
    if overrun then conclude (if phaseOverran s die 80000 then overranFault s die else s)
    else conclude (if hasCooled s die then dockPhase s die 6 else s)
  else conclude s

/-- A position has had its dry dock: the campaign goes on from the next. -/
def positionDone (s : State) (die : Nat) : State :=
  updCampaign s (stripeOf die) (fun c => { c with position := max c.position (stripePos die + 1) })

/-- What becomes of a die that leaves dry dock: it waits for its retry, returns a no-careen plane, or goes to verify. -/
def leaveDock (s : State) (die : Nat) : State :=
  let k := dockOf s die
  let p := dockPlane s die
  let running := (campaignAt s p).isSome
  if s.flash.failedHeaters.contains p ∨ (!running ∧ !k.heated) then planeReturn (positionDone s die) p
  else if k.aborted ∧ running then updDock s die (fun x => { x with phase := 0 })
  else
    positionDone (updDock s die (fun x => { x with phase := 7, aborted := false, next := 0, verified := 0, retired := 0 })) die

/-- RELEASE, after 4 ms: the die serves again. -/
def execRelease (die : Nat) (s : State) : Host.Outcome State Fault Refusal :=
  if live s && (dockOf s die).phase == 6 && phaseLasted s die 4000 then
    let s := leaveDock (sampleHeaters (updDie s die (fun x => { x with st := 0, op := 0 })) die false) die
    conclude (reviewCampaigns (startErases (resumeAll (retryPieces (closeParity s)))))
  else conclude s

/-! ### Aborts (R256) -/

/-- The cause of an abort holds. -/
def abortHolds (s : State) (die : Nat) : AbortCause → Bool
  | .overTemp => heaterAtLeast s (dockPlane s die) (annealTemp s + 151) || heaterOutside s (dockPlane s die)
  | .sensorFailed => sensorDown s (sensorKey 3 (dockPlane s die))
  | .dieHot => match sensorValue s (sensorKey 2 (die / 8)) with
    | some t => decide (850 < t)
    | none => false
  | .withdrawn => emergency s
  | .dieFailed => failedInStripe s (stripeOf die) != 0

/-- CAREEN_ABORT. -/
def execCareenAbort (die : Nat) (cause : AbortCause) (s : State) : Host.Outcome State Fault Refusal :=
  let k := dockOf s die
  if live s && inTrain k && abortHolds s die cause then conclude (abortCareen s die cause)
  else conclude s

/-- CAREEN_RETRY: 10 s later, once the cause has gone, dry dock is requested again. -/
def execCareenRetry (die : Nat) (s : State) : Host.Outcome State Fault Refusal :=
  let k := dockOf s die
  if live s && !activating s && !paused s && k.aborted && k.phase == 0 && decide (k.retryAt ≤ s.sessionUs) &&
      !emergency s && !sensorDown s (sensorKey 3 (dockPlane s die)) then
    conclude (requestDock s die k.plane)
  else conclude s

/-! ### Verify (R258, R259) -/

/-- The residue of a block with sum `t` and baseline `t0`, in units of 2^-16 (R259). -/
def residueOf (t t0 : Nat) : Nat := if t ≤ t0 then 0 else min 65535 (65536 * (t - t0) / (576 - t0))

/-- The next good block of a plane in verify. -/
def nextVerify (s : State) (die : Nat) : Option Nat :=
  let k := dockOf s die
  let p := dockPlane s die
  (List.range 1024).find? (fun n => decide (k.next ≤ n) && !(blockOf s (1024 * p + n)).bad &&
    !(blockOf s (1024 * p + n)).retired)

/-- The careen erase margin of R241, at −250 mV of reference A: at most 4 bits of a codeword are not ones. -/
def careenEraseOk (flips : List Nat) : Bool := flipsAtMost 4 flips

/-- The careen program margin of R241, at −100 and +100 mV of every reference: of each of the 12 codewords the larger count. -/
def patternFlips (r : VerifyReport) : List Nat := (List.range 12).map (fun k => max (r.low.getD k 0) (r.high.getD k 0))

/-- Array reads, the program of word line 0 and the erases of a verify are counted. -/
def verifyCounts (s : State) (b : Nat) (r : VerifyReport) : State :=
  let base := fcBase (chanOf (dieOfBlock b))
  let once := careenEraseOk r.first
  let s := bumpBy s (base + 0x84) ((if once then 2 else 4) + 6)
  let s := bump s (base + 0x88)
  let s := bumpBy s (base + 0x8C) (if once then 1 else 2)
  if once then s else updBlock s b (fun x => { x with erases := x.erases + 1, wear := x.wear + eraseWear x })

/-- A block fails verify and is retired. -/
def verifyFails (s : State) (die b : Nat) : State :=
  blockFault (updDock s die (fun x => { x with retired := x.retired + 1 })) b false

/-- A block passes verify: its residue is replaced, and its erase, wear and careen counts follow. -/
def verifyPasses (s : State) (die b : Nat) (r : VerifyReport) : State :=
  let t := listSum (patternFlips r)
  let s := updBlock s b (fun x => { x with residue := residueOf t x.s0, erases := x.erases + 1, wear := 0,
                                           careens := x.careens + 1, reads := 0, firstCycle := true })
  updDock s die (fun x => { x with verified := x.verified + 1 })

/-- The verify of one block. -/
def verifyBlock (s : State) (die b : Nat) (r : VerifyReport) : State :=
  if !careenEraseOk r.first && !careenEraseOk r.second then
    let base := fcBase (chanOf die)
    let s := bumpBy (bump s (base + 0x8C)) (base + 0x84) 4
    verifyFails (updBlock s b (fun x => { x with erases := x.erases + 1, wear := x.wear + eraseWear x })) die b
  else
    let s := verifyCounts s b r
    if !flipsAtMost 48 (patternFlips r) then
      verifyFails (updBlock s b (fun x => { x with residue := 65536 })) die b
    else if eraseOk r.erase then recomputeLife (verifyPasses s die b r)
    else updDock (eraseFailed (eraseFailed s b) b) die (fun x => { x with retired := x.retired + 1 })

/-- The verify of a plane ends (R252): CAREEN_END, and its blocks return to the pool. -/
def verifyEnds (s : State) (die : Nat) : State :=
  let k := dockOf s die
  let p := dockPlane s die
  let top := listMax ((s.flash.blocks.filter (fun b => planeOfBlock b.1 == p && !b.2.retired)).map (fun b => b.2.residue))
  let s := logRecord s 0x0044 (src 10 0) false
    (leBytes die 2 ++ leBytes k.plane 1 ++ [0] ++ leBytes k.verified 2 ++ leBytes k.retired 2 ++ leBytes (min 65535 top) 2)
  reviewCampaigns (planeReturn (updPlane s p (fun x => { x with careens := x.careens + 1 })) p)

/-- BLOCK_VERIFY. -/
def execBlockVerify (die : Nat) (r : VerifyReport) (s : State) : Host.Outcome State Fault Refusal :=
  if live s && mayBegin s && (dockOf s die).phase == 7 then
    match nextVerify s die with
    | some n =>
      let s := verifyBlock s die (1024 * dockPlane s die + n) r
      let s := updDock s die (fun x => { x with next := n + 1 })
      conclude (if (nextVerify s die).isNone then verifyEnds s die else s)
    | none => conclude (verifyEnds s die)
  else conclude s

/-! ### Life, refresh, patrol, survey (R262 to R266) -/

/-- LIFE_RECOMPUTE: 60 s of powered time since the last. -/
def execLifeRecompute (s : State) : Host.Outcome State Fault Refusal :=
  if live s && s.boot.readySpace && decide (s.careen.lifeAt + 60000000 ≤ s.sessionUs) then conclude (recomputeLife s)
  else conclude s

/-- A refresh of a set begins: the set is closed at its row and the refresh is counted under its cause. -/
def beginRefresh (s : State) (id k : Nat) : State :=
  let s := closeIfOpen s id
  let s := closeParity (updSet s id (fun x => { x with refreshDue := some (k + 16) }))
  if k < 4 then bump s (A.CA_REFRESH + 4 * k) else s

/-- REFRESH: a set that is due. -/
def execRefresh (set : Nat) (s : State) : Host.Outcome State Fault Refusal :=
  match tabGet s.flash.sets set with
  | some x => (match x.refreshDue with
    | some k => if live s && serviceOpen s && mayBegin s && decide (k < 16) then conclude (beginRefresh s set k) else conclude s
    | none => conclude s)
  | none => conclude s

/-- Array reads of a patrol or survey read of a block (R265, R266): page 0 and the last programmed page, each read with the
retention margin and normally, to compare (R241). -/
def marginReads : Nat := 4

/-- The retention margin of R241, at −80 mV of every reference: at most 96 bits of a codeword differ from a normal read. -/
def retentionOk (flips : List Nat) : Bool := flipsAtMost 96 flips

/-- Where the numbering of the patrol's mirrored blocks begins, past the set IDs. -/
def patrolMirror : Nat := 262144

/-- What the patrol reads, in its order: the closed sets, and then the blocks of the mirrored regions. -/
def patrolOrder (s : State) : List Nat :=
  (s.flash.sets.filter (fun p => !p.2.isOpen)).map Prod.fst ++ mirroredBlocks.map (fun b => patrolMirror + b)

/-- A sweep may begin: none has, or the last began CA_PATROL.PERIOD_D days of powered time ago. -/
def sweepDue (s : State) : Bool :=
  s.careen.patrolCount == 0 || decide (s.careen.patrolStart + 86400000000 * fieldOf s A.CA_PATROL 23 16 ≤ s.poweredUs)

/-- What the patrol reads next: after the last in its order, and from the first again once a sweep is due. -/
def patrolNext (s : State) : Option Nat :=
  let on := if s.careen.patrolCount = 0 then none else (patrolOrder s).find? (fun i => decide (s.flash.patrolAt < i))
  on.orElse (fun _ => if sweepDue s then (patrolOrder s).head? else none)

/-- The patrol comes to a set or mirrored block; at or before the last one, a new sweep begins. -/
def patrolMoves (s : State) (id : Nat) : State :=
  let again := s.careen.patrolCount == 0 || decide (id ≤ s.flash.patrolAt)
  { s with flash := { s.flash with patrolAt := id },
           careen := { s.careen with patrolCount := if again then 1 else s.careen.patrolCount + 1,
                                     patrolStart := if again then s.poweredUs else s.careen.patrolStart } }

/-- A mirrored block is read; one that fails is rewritten from its good copy, which erases it (R265). What is read of it stays. -/
def mirrorRead (s : State) (b : Nat) (pass : Bool) : State :=
  let s := countReads s b marginReads
  if pass then s else eraseMirrored s b

/-- The patrol margin-reads the blocks of a set, and a failure makes it due (R264); or a mirrored block. -/
def patrolAct (s : State) (id : Nat) (flips : List Nat) : State :=
  let s := patrolMoves s id
  if patrolMirror ≤ id then mirrorRead s (id - patrolMirror) (retentionOk flips)
  else
    let bs := match tabGet s.flash.sets id with
      | some x => x.blocks
      | none => []
    let s := bs.foldl (fun s b => countReads s b marginReads) s
    if retentionOk flips then s else markDue s id 2

/-- PATROL_READ: a closed set, or a block of the mirrored regions, numbered from 262,144 on. -/
def execPatrolRead (set : Nat) (flips : List Nat) (s : State) : Host.Outcome State Fault Refusal :=
  if live s && serviceOpen s && mayBegin s && patrolNext s == some set then conclude (patrolAct s set flips) else conclude s

/-- Set a survey. -/
def updSurvey (s : State) (f : Survey → Survey) : State := { s with careen := { s.careen with survey := f s.careen.survey } }

/-- Add one to a class's count. -/
def classPlus (l : List Nat) (k : Nat) : List Nat := listSet l k (l.getD k 0 + 1)

/-- A block of a class has been read by the survey. -/
def surveyCount (s : State) (cls : Nat) (pass : Bool) : State :=
  updSurvey s (fun y => { y with sampled := classPlus y.sampled cls,
                                 failing := if pass then y.failing else classPlus y.failing cls })

/-- A class escalates when more than 2 % of its sampled blocks fail: every block of it is read, as the mirrored ones are anyway. -/
def surveyEscalate (s : State) (cls : Nat) : State :=
  let y := s.careen.survey
  let left := (y.work.filter (fun w => w.1 == cls)).length
  let total := y.sampled.getD cls 0 + left
  if y.escalated.contains cls ∨ 50 * y.failing.getD cls 0 ≤ total then s
  else
    let m := 2 ^ fieldOf s A.CA_SURVEY 19 16
    let rest := if cls = 8 then [] else (closedBlocks s).filter (fun b =>
      surveyClass (blockOf s b) == cls && (b % 1024 + dieOfBlock b) % m != s.boot.bootNumber % m)
    let s := updSurvey s (fun y => { y with escalated := y.escalated ++ [cls], total := y.total + rest.length,
                                            work := y.work ++ rest.map (fun b => (cls, b)) })
    raise s 9 4

/-- The survey ends when nothing is left to read: SURVEY_RESULT. -/
def surveyEnd (s : State) : State :=
  let y := s.careen.survey
  if !y.work.isEmpty then s
  else
    let s := updSurvey s (fun y => { y with active := false })
    logRecord s 0x0047 (src 10 0) false
      ((List.range 9).flatMap (fun k => leBytes (y.sampled.getD k 0) 4 ++ leBytes (y.failing.getD k 0) 4))

/-- The survey reads a block: where it fails, its set is due, or, in a mirrored region, it is rewritten. -/
def surveyReads (s : State) (cls b : Nat) (pass : Bool) : State :=
  if cls = 8 then mirrorRead s b pass
  else
    let s := countReads s b marginReads
    if pass then s else match setOfBlock s b with
      | some id => markDue s id 3
      | none => s

/-- A block of a class is surveyed. -/
def surveyBlock (s : State) (cls b : Nat) (pass : Bool) : State :=
  let s := updSurvey s (fun y => { y with work := y.work.filter (fun w => w != (cls, b)) })
  surveyEnd (surveyEscalate (surveyCount (surveyReads s cls b pass) cls pass) cls)

/-- RETENTION_SURVEY: the operand `set` names the block that is read. -/
def execRetentionSurvey (cls set : Nat) (flips : List Nat) (s : State) : Host.Outcome State Fault Refusal :=
  if live s && serviceOpen s && !activating s && s.careen.survey.active && s.careen.survey.work.contains (cls, set) then
    conclude (surveyBlock s cls set (retentionOk flips))
  else conclude s

/-- SURVEY_DEADLINE_END: after 600 s of session time the survey is a hard deadline no more. -/
def execSurveyDeadlineEnd (s : State) : Host.Outcome State Fault Refusal :=
  if live s && decide (600000000 ≤ s.sessionUs) then conclude (updSurvey s (fun y => { y with deadline := false }))
  else conclude s

end Sys2Proof.Machine
end

