-- ==== Sys2Proof/Machine/Index.lean ====
section
/-! DEFINITION. The index: leaf chains in the map cache and their write-back (R194 to R198, R274), scrub (R219), bank tests
(R220) and engine self-tests (R332). -/

namespace Sys2Proof.Machine

/-! ### Fetching leaves (R194) -/

/-- The quay is being erased. -/
def quayErasing (s : State) (q : Nat) : Bool := match tabGet s.flash.quays q with
  | some y => y.erasing
  | none => false

/-- A chain in its frames loses the entries of quays that are being erased (R280). -/
def cutErasing (s : State) (c : Chain) : Chain :=
  let gone := (c.leaves.flatMap Leaf.entries).filter (fun e => quayErasing s e.quay)
  if gone.isEmpty then c
  else chainDirty s { c with leaves := gone.foldl (fun ls e => chainCut ls e.quay e.key) c.leaves }

/-- A chain arrives in its frames, with the changes that were made in it while it was on its way. -/
def placeLeaf (s : State) (bucket : Nat) (c : Chain) : State :=
  dirtyLimit (dirtyFrames s) { s with index := { s.index with
    chains := tabPut s.index.chains bucket (cutErasing s { c with fetching := false, usedAt := s.sessionUs }) } }

/-- The chain that a fetch brings: one that is waited for, or one that the directory names and the map cache does not hold. -/
def fetched (s : State) (bucket : Nat) : Option Chain := match tabGet s.index.chains bucket with
  | some c => if c.fetching then some c else none
  | none => if (tabGet s.index.dir bucket).isSome then some (chainMiss s bucket s.seqr.next) else none

/-- LEAF_FETCH: a chain arrives; its frames take free ways of its set, or those of the least recently used unpinned frames once they
are clean. -/
def execLeafFetch (bucket : Nat) (s : State) : Host.Outcome State Fault Refusal :=
  match fetched s bucket with
  | none => conclude s
  | some c =>
    if live s && s.boot.readySpace then
      match makeRoom 5 s (bucket % cacheSets) (waysOf c) with
      | some s => conclude (resumeAll (placeLeaf s bucket c))
      | none => conclude s
    else conclude s

/-! ### What lies on a set -/

/-- The item has been applied to the index (R195). -/
def applied (i : Item) : Bool := i.settled && (i.pseq == 0 || i.durable)

/-- The index points at an item's record: it is the newest of its key that has been applied, a value, and its quay is open (R280). -/
def validItem (s : State) (i : Item) : Bool :=
  applied i && i.kind == .value && quayOpen s i.quay &&
    (match newestItem (s.flash.items.filter applied) i.quay i.key (2 ^ 64) with
      | some y => y.csn == i.csn && y.entry == i.entry
      | none => false)

/-- The valid items on a set. -/
def validOn (s : State) (id : Nat) : List Item :=
  s.flash.items.filter (fun i => i.landed && i.setId == id && validItem s i)

/-- The copies of chains on a set that the leaf directory names. -/
def leavesOn (s : State) (id : Nat) : Tab LeafCopy :=
  s.index.dir.filterMap (fun p => (currentCopy s p.1).bind (fun l => if l.setId = id then some (p.1, l) else none))

/-- Valid units of a set (R281). -/
def validUnits (s : State) (id : Nat) : Nat :=
  listSum ((validOn s id).map itemUnits) + listSum ((leavesOn s id).map (fun l => 64 * l.2.leaves.length))

/-! ### Write-back (R196, R197, R274) -/

/-- The chain dirty longest. -/
def dirtiest (s : State) : Option Nat :=
  (s.index.chains.foldl (fun (m : Option (Nat × Nat)) c => match c.2.dirtySince, m with
    | some t, some (b, u) => if t < u then some (c.1, t) else some (b, u)
    | some t, none => some (c.1, t)
    | none, m => m) none).map Prod.fst

/-- A set whose valid content is being moved: by warehousing or dredging, by a refresh that has begun, by the evacuation of a
draining stripe plane, which goes in ascending set ID, or by the hull parity rebuild of its stripe (R252, R264, R278, R280, R286). -/
def setMoves (s : State) (id : Nat) : Bool :=
  (match tabGet s.flash.sets id with
    | some x => x.moving || (match x.refreshDue with
      | some k => decide (16 ≤ k)
      | none => false)
    | none => false) ||
  s.careen.campaigns.any (fun c => c.step == 1 && 4 * c.stripe + c.plane == id / 1024 &&
    s.flash.sets.all (fun p => p.1 / 1024 != id / 1024 || decide (id ≤ p.1) || validUnits s p.1 == 0)) ||
  s.mode.hull.contains (id / 4096)

/-- A reason of R197 or R279 for the write-back of a chain: it is chosen for eviction by a fetch that waits, it is old, too
many frames are dirty and it is the one dirty longest, the drive shuts down or is about to enter P4, its entries moved off
a set that is to be dissolved, or its own copy lies on a set that is being moved. -/
def writebackDue (s : State) (bucket : Nat) (c : Chain) : Bool :=
  let set := bucket % cacheSets
  let asked := s.index.chains.any (fun x => x.2.fetching && x.1 % cacheSets == set)
  let leafMoves := match currentCopy s bucket with
    | some l => setMoves s l.setId
    | none => false
  let dirty := c.dirtySince.isSome
  let old := match c.dirtySince with
    | some t => decide (t + 1000000 * fieldOf s A.CM_MC_AGE_MAX 7 0 ≤ s.sessionUs)
    | none => false
  let evicted := asked && (evictable s set).map Prod.fst == some bucket
  let crowd := decide (fieldOf s A.CM_MC_DIRTY_MAX 25 0 < dirtyFrames s) && dirtiest s == some bucket
  let needed := s.flash.sets.any (fun p => p.2.moved.contains bucket)
  (dirty && (old || evicted || crowd || needed || s.phase == 3 || decide (3 ≤ s.pstate.cur))) || leafMoves || needed

/-- The number of the first checkpoint that begins from now on. -/
def nextCkpt (s : State) : Nat := s.space.ckptSeq + (if s.space.ckpt.isSome then 2 else 1)

/-- CLEAN_CSN of a write-back (R196): the lower of the next CSN and the chain's lowest pending one. -/
def cleanNow (s : State) (c : Chain) : Nat := min s.seqr.next ((listMin? c.pending).getD s.seqr.next)

/-- Leaves are packed into a set from depth `depth` on, one after another, each with the location of the next (R188, R274): the locations
that they take. -/
def packLeaves (id bucket generation clean : Nat) : Nat → List Leaf → State → State × List Nat
  | _, [], s => (s, [])
  | depth, l :: rest, s =>
    match tabGet s.flash.sets id with
    | none => (s, [])
    | some x =>
      let at_ := fun (u : Nat) => locWord (setPage x u) (u % 256)
      let next := if rest.isEmpty then none else some (at_ (x.units + 64))
      let r := packUnits s id clean (leafIdent bucket depth generation) (leafBytes bucket depth generation clean next l.entries)
      let (s, locs) := packLeaves id bucket generation clean (depth + 1) rest r.1
      (s, at_ x.units :: locs)

/-- The copy that a chain leaves is garbage: the set that held it waits for a checkpoint too. -/
def leafMoved (s : State) (bucket : Nat) : State :=
  match currentCopy s bucket with
  | some l => updSet s l.setId (fun x => { x with ckptNeeded := nextCkpt s })
  | none => s

/-- A chain is written back as one unit into a set: its copy, its word of the leaf directory, and the sets that waited for it. -/
def writeBack (s : State) (bucket : Nat) (c : Chain) (id : Nat) : State :=
  let clean := cleanNow s c
  let n := nextCkpt s
  let (s, locs) := packLeaves id bucket (c.generation + 1) clean 0 c.leaves (leafMoved s bucket)
  let copy : LeafCopy := { cleanCsn := clean, generation := c.generation + 1, setId := id, locs := locs,
                           leaves := c.leaves.map Leaf.entries }
  let kept := { c with leaves := c.leaves.map (fun l => { l with dirty := false }), dirtySince := none, cleanCsn := clean,
                       generation := c.generation + 1 }
  let sets := s.flash.sets.map (fun p =>
    if p.2.moved.contains bucket then
      (p.1, { p.2 with moved := p.2.moved.filter (fun b => b != bucket), ckptNeeded := n })
    else p)
  { s with index := { s.index with chains := tabPut s.index.chains bucket kept, dir := tabPut s.index.dir bucket (locs.headD 0) },
           flash := { s.flash with leaves := tabPut s.flash.leaves bucket (tabGetD s.flash.leaves bucket [] ++ [copy]),
                                   sets := sets } }

/-- A program of a set of copies or leaves fails (R240, R283): its block is retired, and its set is closed at its row and due for
refresh. What was to lie there is placed again in another set. -/
def copyFailed (s : State) (id : Nat) : State :=
  match tabGet s.flash.sets id with
  | none => s
  | some x =>
    let b := setPage x x.units / 4096
    let s := closeIfOpen (markDue s id 4) id
    dieFault (blockFault s b false) (dieOfBlock b)

/-- CHAIN_WRITEBACK: the leaves of a chain are written to a set of the index pool; where a program fails the chain stays dirty. -/
def execChainWriteback (w : ChainWrite) (s : State) : Host.Outcome State Fault Refusal :=
  match tabGet s.index.chains w.bucket with
  | none => conclude s
  | some c =>
    if live s && s.power.holdUpReady && !c.fetching && writebackDue s w.bucket c then
      match roomIn s .index (64 * c.leaves.length) with
      | some (s, id) => conclude (if w.ok then writeBack s w.bucket c id else copyFailed s id)
      | none => conclude s
    else conclude s

/-! ### Scrub (R214, R219) -/

/-- A bank holds a valid entry at an offset. -/
def entryAt (s : State) (bank offset : Nat) : Bool :=
  (tabGet s.index.hot (131072 * bank + offset)).isSome ||
    (match pairOfBank s bank with
      | some k =>
        if k < 2 then (pairRules s k).any (fun e => e.offset == offset)
        else s.index.inflight.any (fun e => pairOf e.digest + 2 == k && e.offset == offset)
      | none => false)

/-- The soft-error counter of a bank's class. -/
def softCounter (s : State) (bank : Nat) : Nat :=
  match s.index.banks.getD bank 0 with
  | 1 => A.CM_HOT_SOFT
  | 3 => A.CM_RULE_SOFT
  | _ => A.CM_INFLIGHT_SOFT

/-- The bits of an entry that have changed in the die since it was last written. -/
def strikeCell (s : State) (addr : Nat) (flips : BitVec 160) : State :=
  if flips = 0 then s else { s with index := { s.index with upsets := tabPut s.index.upsets addr (cellAt s addr ^^^ flips) } }

/-- An entry is due to be read back: rule and in-flight entries once a second of powered time, hot-key entries once per 60 s. -/
def scrubDue (s : State) (bank addr : Nat) : Bool := match tabGet s.index.scrubbed addr with
  | some t => decide (t + (if s.index.banks.getD bank 0 = 1 then 60000000 else 1000000) ≤ s.poweredUs)
  | none => true

/-- INDEX_SCRUB: `flips` are the bits of an entry that have changed in the die. Where the entry is due it is read back, and if it differs from
its body or its line of the entry table it is rewritten, and a soft error counted; else the change stands until a search or the next read
meets it. -/
def execIndexScrub (bank offset : Nat) (flips : BitVec 160) (s : State) : Host.Outcome State Fault Refusal :=
  let addr := 131072 * bank + offset
  if live s && s.boot.readyUnits && decide (1 ≤ s.index.banks.getD bank 0) && entryAt s bank offset then
    let s := strikeCell s addr flips
    if scrubDue s bank addr && mayBegin s then
      let s := { s with index := { s.index with scrubAt := s.sessionUs, scrubbed := tabPut s.index.scrubbed addr s.poweredUs } }
      conclude (if cellAt s addr = tableCell s addr then s else softError s addr (softCounter s bank))
    else conclude s
  else conclude s

/-! ### Bank tests (R220) -/

/-- A bank's test is due: CM_TEST.PERIOD_H hours of powered time since the last. -/
def testDue (s : State) : Bool := match nextTestBank s with
  | some b => decide (tabGetD s.index.testedAt b 0 + 3600000000 * fieldOf s A.CM_TEST 7 0 ≤ s.poweredUs)
  | none => false

/-- The spare takes the class, pair membership or partition of the bank under test, which becomes class 5. The entries of a pair's member
are copied as its cells hold them; a hot-key bank's are dropped. -/
def migrateBank (s : State) (t : BankTest) : State :=
  let cls := s.index.banks.getD t.bank 0
  let part := s.index.parts.getD t.bank 0
  let swap := fun (p : BankPair) =>
    { p.replace t.bank t.target with unfilled := p.unfilled.map (fun b => if b = t.bank then t.target else b) }
  let s := if cls = 1 then dropHot s t.bank else s
  let upsets := s.index.upsets.map (fun u =>
    if u.1 / 131072 = t.bank then (131072 * t.target + u.1 % 131072, u.2) else u)
  { s with index := { s.index with banks := listSet (listSet s.index.banks t.target cls) t.bank 5, upsets := sortBy Prod.fst upsets,
                                   parts := if cls = 1 then listSet s.index.parts t.target part else s.index.parts,
                                   pairs := s.index.pairs.map swap } }

/-- BANK_TEST: a bank that is due, or whose test was started, is migrated and tested. -/
def execBankTest (s : State) : Host.Outcome State Fault Refusal :=
  if live s && s.boot.readyUnits && s.index.powered && !activating s then
    let s := if s.index.test.isNone && testDue s then startBankTest s else s
    match s.index.test with
    | some t => if s.index.banks.getD t.bank 0 = 5 then conclude s else conclude (migrateBank s t)
    | none => conclude s
  else conclude s

/-- BANK_TEST_END: the bank becomes a spare, or counts a fault. -/
def execBankTestEnd (pass : Bool) (s : State) : Host.Outcome State Fault Refusal :=
  match s.index.test with
  | none => conclude s
  | some t =>
    if live s && s.index.banks.getD t.bank 0 == 5 then
      let s := { s with index := { s.index with test := none, lastTested := t.bank,
                                                testedAt := tabPut s.index.testedAt t.bank s.poweredUs } }
      let s := raise s 7 2
      let s := if pass then s else faultAct s 6 t.bank 0
      conclude (if s.index.banks.getD t.bank 0 = 5 then setBankClass s t.bank 4 else s)
    else conclude s

/-! ### Engine self-tests (R332) -/

/-- ENGINE_TEST_END: the engine has finished its work and the test that follows. -/
def execEngineTestEnd (engine : Nat) (pass : Bool) (s : State) : Host.Outcome State Fault Refusal :=
  if live s && (engineOf s engine).testing && (engineCmds s engine).isEmpty && !heldBack s engine then
    let s := raise (updEngine s engine (fun e => { e with testing := false })) (0x50 + engine) 0
    let s := fieldSet s (0x50064 + 0x1000 * engine) 1 0 (if pass then 1 else 2)
    conclude (if pass then s else faultAct s 0 engine 0)
  else conclude s

end Sys2Proof.Machine
end

