-- ==== Sys2Proof/Machine/Dredge.lean ====
section
/-! DEFINITION. Warehousing, dredging and the moves of R282, the dissolving of sets, lost-page sweeps and checkpoints
(R278 to R284, R292 to R294). -/

namespace Sys2Proof.Machine

/-! ### Quays that are being erased (R179, R280) -/

/-- Every record on a set has settled and been applied to the index (R278). -/
def allApplied (s : State) (id : Nat) : Bool :=
  !s.space.pages.any (fun p => p.2.setId == id) &&
    s.flash.items.all (fun i => i.setId != id || !i.landed || (applied i &&
      !s.index.chains.any (fun c => c.2.pending.contains i.csn)))

/-- A leaf in the map cache, or in the copy that the directory names, has an entry of the quay. -/
def quayInLeaves (s : State) (q : Nat) : Bool :=
  s.index.chains.any (fun c => c.2.leaves.any (fun l => l.entries.any (fun e => e.quay == q))) ||
    s.index.dir.any (fun p => (tabGet s.index.chains p.1).isNone &&
      ((currentCopy s p.1).map (fun l => l.leaves.any (fun es => es.any (fun e => e.quay == q)))).getD false)

/-- ERASING quays of which no record and no index entry is left become FREE. -/
def freeQuays (s : State) : State :=
  let gone := fun (p : Nat × Quay) => p.2.erasing && !s.flash.items.any (fun i => i.quay == p.1) && !quayInLeaves s p.1
  { s with flash := { s.flash with quays := s.flash.quays.filter (fun p => !gone p) } }

/-- The walk of the leaf directory takes the entries of ERASING quays out of the chains that the map cache holds, and asks for the others
that have some; lost keys of which no set holds a record any more go with them. -/
def walkErasing (s : State) : State :=
  let keep := fun (i : Item) => !(quayErasing s i.quay && i.kind == .lost && i.landed && (tabGet s.flash.sets i.setId).isNone)
  let chains := s.index.chains.map (fun (c : Nat × Chain) => (c.1, if c.2.fetching then c.2 else cutErasing s c.2))
  let s := { s with flash := { s.flash with items := s.flash.items.filter keep }, index := { s.index with chains := chains } }
  let away := (s.index.dir.map Prod.fst).filter (fun b => (tabGet s.index.chains b).isNone &&
    (match currentCopy s b with
      | some l => l.leaves.any (fun es => es.any (fun e => quayErasing s e.quay))
      | none => false))
  away.foldl (fun s b => chainTouch s b s.seqr.next id) s

/-! ### Warehousing (R278) -/

/-- The closed landing set that closed first and is not yet being moved. -/
def foldNext (s : State) : Option (Nat × StripeSet) :=
  (s.flash.sets.filter (fun p => p.2.pool == .landing && !p.2.isOpen && !setMoves s p.1)).foldl (fun m p => match m with
    | none => some p
    | some q => if p.2.closedAt < q.2.closedAt then some p else some q) none

/-- WAREHOUSING: a closed landing set is folded once every record on it has settled and been applied. -/
def execWarehousing (s : State) : Host.Outcome State Fault Refusal :=
  match foldNext s with
  | some (id, _) =>
    if live s && serviceOpen s && mayBegin s && allApplied s id then conclude (updSet s id (fun x => { x with moving := true }))
    else conclude s
  | none => conclude s

/-! ### Dredging (R280, R281) -/

/-- Dredging runs from START_SETS until STOP_SETS. -/
def reviewDredging (s : State) : State :=
  let free := usableFree s
  let on := if free < 16 * fieldOf s A.DR_DREDGE 15 0 then true
    else if 16 * fieldOf s A.DR_DREDGE 31 16 ≤ free then false else s.space.dredging
  { s with space := { s.space with dredging := on } }

/-- A set may be a victim (R281). -/
def mayDredge (s : State) (id : Nat) (x : StripeSet) : Bool :=
  x.pool != .landing && !x.isOpen && !setMoves s id && x.refreshDue.isNone && !x.sweepPending &&
    x.blocks.all (fun b =>
      let d := dieOf s (dieOfBlock b)
      d.st != 1 && d.st != 2 &&
        (d.op == 0 || d.op == 7 || !(d.plane == b / 1024 % 4 && d.block == b % 1024)))

/-- The rank of a victim: valid units, then the wear of its most-worn member, then the address of its first member. -/
def victimRank (s : State) (id : Nat) (x : StripeSet) : Nat × Nat × Nat :=
  (validUnits s id, listMax (x.blocks.map (fun b => (blockOf s b).wear)), x.blocks.headD 0)

/-- One rank comes before another. -/
def rankLt (a b : Nat × Nat × Nat) : Bool :=
  decide (a.1 < b.1) || (a.1 == b.1 && (decide (a.2.1 < b.2.1) || (a.2.1 == b.2.1 && decide (a.2.2 < b.2.2))))

/-- The dredge victim. -/
def dredgeVictim (s : State) : Option Nat :=
  ((s.flash.sets.filter (fun p => mayDredge s p.1 p.2)).foldl (fun (m : Option (Nat × Nat × Nat × Nat)) p =>
    let r := victimRank s p.1 p.2
    match m with
    | none => some (p.1, r)
    | some (id, q) => if rankLt r q then some (p.1, r) else some (id, q)) none).map Prod.fst

/-- A victim is still being emptied. -/
def dredgeBusy (s : State) : Bool :=
  s.flash.sets.any (fun p => p.2.pool != .landing && p.2.moving && validUnits s p.1 != 0)

/-- DREDGING: the walk that frees ERASING quays goes on, and while dredging runs the next victim is picked. -/
def execDredging (s : State) : Host.Outcome State Fault Refusal :=
  if live s && serviceOpen s && mayBegin s then
    let s := freeQuays (walkErasing (reviewDredging s))
    if s.space.dredging && !dredgeBusy s then
      match dredgeVictim s with
      | some id => conclude (updSet { s with space := { s.space with victim := id } } id (fun x => { x with moving := true }))
      | none => conclude s
    else conclude s
  else conclude s

/-! ### Copies (R271, R282, R283, R346) -/

/-- The epoch that a rekey sweep gives a record of an older one. -/
def sweepEpoch (s : State) (i : Item) : Option Nat := match s.cipher.rekey with
  | some (q, k) => if q = i.quay ∧ i.epoch < slotEpoch s k then some (slotEpoch s k) else none
  | none => none

/-- The chain of an item's bucket is in the map cache. -/
def leafCached (s : State) (i : Item) : Bool := match tabGet s.index.chains (bucketOf i.digest) with
  | some c => !c.fetching
  | none => false

/-- The copy of an item (R271): the record's bytes with RFLAGS[2:0] and POSTED_SEQ clear. A rekey sweep encrypts its segments afresh under
the new epoch, with new invocations of the slot (R346). -/
def copyOf (s : State) (i : Item) : State × Item :=
  let c := { i with pseq := 0, batch := false, marked := false, commit := false, badPages := [] }
  match sweepEpoch s i with
  | none => (s, c)
  | some e =>
    let slot := quaySlot s i.quay
    match slotOf s slot, reserveCounter s slot (segments i.value.length) with
    | some x, some t => (t, { c with epoch := e, ctr := x.ctr + 1 })
    | _, _ => (s, c)

/-- The index location of an item moves to its copy, and the entry table's with it (R282, step 5): its chain is dirty, and the source waits
for the chain. -/
def moveItem (s : State) (i c : Item) (src : Nat) : State :=
  let b := bucketOf i.digest
  let s := { s with flash := { s.flash with items := s.flash.items.map (fun x => if x = i then c else x) } }
  let s := updSet (hotPlace (leafChange s c) c) src (fun x => { x with moved := if x.moved.contains b then x.moved else b :: x.moved })
  if c.epoch = i.epoch then s else { s with cipher := { s.cipher with rekeyCkpt := nextCkpt s } }

/-- The warehouse takes a copy of an item. -/
def copyItem (s : State) (i : Item) (src : Nat) (ok : Bool) : State :=
  match roomIn s .warehouse (itemUnits i) with
  | none => s
  | some (s, dst) =>
    if ok then
      let (s, c) := copyOf s i
      let (s, spans) := packUnits s dst i.csn i.recordId (recordBytes (itemKey s c) c)
      moveItem s i { c with setId := dst, spans := spans } src
    else copyFailed s dst

/-- RECORD_COPY: the copy of the record of a mutation and entry that lies on the source set, `ok` when the copy's row has been
program-confirmed. -/
def execRecordCopy (csn entry set : Nat) (ok : Bool) (s : State) : Host.Outcome State Fault Refusal :=
  match (validOn s set).find? (fun i => i.csn == csn && i.entry == entry && !itemUnread i) with
  | none => conclude s
  | some i =>
    if live s && s.power.holdUpReady && mayBegin s && (setMoves s set || (sweepEpoch s i).isSome) && leafCached s i then
      conclude (copyItem s i set ok)
    else conclude s

/-! ### Dissolving (R279) -/

/-- Some TOW window holds a read pin on a set. -/
def pinnedSet (s : State) (id : Nat) : Bool := s.harbour.tows.any (fun x => x.pinned.contains id)

/-- A set may be dissolved (R279, R284). -/
def mayDissolve (s : State) (id : Nat) (x : StripeSet) : Bool :=
  !x.isOpen && setMoves s id && (validOn s id).isEmpty && (leavesOn s id).isEmpty && allApplied s id && !pinnedSet s id &&
    x.moved.isEmpty && decide (x.ckptNeeded ≤ s.space.ckptSeq) && !x.sweepPending

/-- The items of a dissolved set are gone. A key whose newest item was a deletion there has no older record that the index
could still name; a lost key of an open quay stays in its leaf. -/
def dropItems (s : State) (id : Nat) : List Item :=
  let gone := s.flash.items.filter (fun i => i.landed && i.setId == id && i.kind == .deletion)
  let shadowed := fun (i : Item) => gone.any (fun g => g.quay == i.quay && g.key == i.key && decide (i.csn ≤ g.csn))
  (s.flash.items.filter (fun i => !shadowed i &&
    (!(i.landed && i.setId == id) || (i.kind == .lost && !quayErasing s i.quay)))).map (fun i =>
      if i.landed ∧ i.setId = id then { i with setId := 2 ^ 18, spans := [] } else i)

/-- A hull parity rebuild has moved all the sets of its stripe (R286, R500). -/
def hullDone (s : State) (stripe : Nat) : State :=
  if s.mode.hull.contains stripe && !s.flash.sets.any (fun p => p.1 / 4096 == stripe) then
    reviewRebuild { s with mode := { s.mode with hull := s.mode.hull.filter (fun x => x != stripe) } }
  else s

/-- The blocks of a dissolved set wait for their erase. -/
def releaseBlock (s : State) (b : Nat) : State :=
  let x := blockOf s b
  if x.bad || x.retired || (planeOf s (planeOfBlock b)).gone || s.flash.failedDies.contains (dieOfBlock b) then s
  else updBlock s b (fun x => { x with unfinished := true })

/-- A set is dissolved and its erases begin. -/
def dissolve (s : State) (id : Nat) (x : StripeSet) : State :=
  let leaves := (s.flash.leaves.map (fun p => (p.1, p.2.filter (fun l => l.setId != id)))).filter (fun p => !p.2.isEmpty)
  let s := { s with flash := { s.flash with items := dropItems s id, sets := tabErase s.flash.sets id, leaves := leaves } }
  let s := x.blocks.foldl releaseBlock s
  let s := freeQuays (hullDone s (id / 4096))
  reviewCampaigns (startErases (resumeAll (retryPieces (drainPosted s))))

/-- SET_DISSOLVE. -/
def execSetDissolve (set : Nat) (s : State) : Host.Outcome State Fault Refusal :=
  match tabGet s.flash.sets set with
  | some x => if live s && mayDissolve s set x then conclude (dissolve s set x) else conclude s
  | none => conclude s

/-! ### Lost-page sweeps (R284) -/

/-- LOST_PAGE_SWEEP: every key whose record on the set can be read no more is marked lost. -/
def execLostPageSweep (set : Nat) (s : State) : Host.Outcome State Fault Refusal :=
  match tabGet s.flash.sets set with
  | some x =>
    if live s && mayBegin s && x.sweepPending then
      let s := ((validOn s set).filter itemUnread).foldl markLost s
      let s := updSet s set (fun x => { x with sweepPending := false })
      conclude (resumeAll (raise s 8 5))
    else conclude s
  | none => conclude s

/-! ### Powered time (R329) -/

/-- HM_POWERED_S is persisted. -/
def persistPowered (s : State) : State :=
  let n := s.poweredUs / 1000000
  logRecord { s with persistedAt := s.poweredUs, flash := { s.flash with poweredS := n } } 0x0002 (src 1 0) false (leBytes n 8)

/-! ### Checkpoints (R292 to R294) -/

/-- Step 4 of an orderly shutdown: everything is sealed, and every dirty leaf chain has been written back (R62, R197). -/
def cleanBegin (s : State) : Bool := shutdownSealed s && (liveChains s).isEmpty && !cleanSaved s

/-- A trigger of R292 holds. -/
def ckptDue (s : State) : Bool :=
  s.space.ckptQueued || decide (s.space.ckptAt + 2000000 ≤ s.sessionUs) || decide (2 ^ 32 ≤ s.space.landedBytes) ||
    cleanBegin s

/-- A checkpoint begins: it takes the next CSN, the horizon and the durable POSTED_SEQ as they stand. -/
def beginCkpt (s : State) : State :=
  let clean := cleanBegin s
  let k : Ckpt := { begunAt := s.sessionUs, csn := s.seqr.next, horizon := horizon s, durablePseq := s.space.durablePseq,
                    clean := clean, mount := false, preUsed := s.space.preUsed,
                    tables := tablesNow s }
  let s := if clean then persistPowered s else s
  { s with space := { s.space with ckpt := some k, ckptQueued := false, ckptAt := s.sessionUs, landedBytes := 0 } }

/-- The clean checkpoint of an orderly shutdown is the last (R62). -/
def ckptOver (s : State) : Bool := decide (4 ≤ s.phase) || (s.phase == 3 && cleanSaved s)

/-- CHECKPOINT_BEGIN: one checkpoint runs at a time. -/
def execCheckpointBegin (s : State) : Host.Outcome State Fault Refusal :=
  if live s && s.power.holdUpReady && s.boot.readySpace && s.space.ckpt.isNone && mayBegin s && !ckptOver s && ckptDue s then conclude (beginCkpt s)
  else conclude s

/-- CHECKPOINT_DONE: every page is on both copies. -/
def execCheckpointDone (s : State) : Host.Outcome State Fault Refusal :=
  match s.space.ckpt with
  | none => conclude s
  | some k =>
    if live s then
      let n := s.space.ckptSeq + 1
      let saved : Saved := { seq := n, csn := k.csn, horizon := k.horizon, durablePseq := k.durablePseq, clean := k.clean,
                             lowWater := s.flash.lowWater, usable := true, tables := k.tables }
      let left := s.space.preUsed.filter (fun x => !k.preUsed.contains x)
      conclude { s with flash := { s.flash with saved := some saved },
                        space := { s.space with ckpt := none, ckptSeq := n, preUsed := left } }
    else conclude s

end Sys2Proof.Machine
end

