-- ==== Sys2Proof/Machine/Harbourmaster.lean ====
section
/-! DEFINITION. The harbourmaster: sensors (R63, R303 to R305), the rail (R25, R317), the tide (R306 to R316), the step-down
and the emergencies (R318 to R321), power states (R322 to R326) and powered time (R329). -/

namespace Sys2Proof.Machine

/-! ### The step-down trigger and the emergencies (R318 to R321) -/

/-- The supply condition of R318; a failed input sensor takes no part. -/
def supplyLow (s : State) : Bool :=
  (match sensorValue s (sensorKey 0 0) with
    | some v => decide (v < (fieldOf s A.HM_SUPPLY 31 16 : Int))
    | none => false) ||
  (match sensorValue s (sensorKey 1 0) with
    | some i => decide ((fieldOf s A.HM_SUPPLY 15 0 : Int) < i)
    | none => false)

/-- A region stands at or above its step threshold less `m`. -/
def regionAt (s : State) (m : Int) (r : Nat) : Bool := match regionHottest s r with
  | some t => decide (stepThreshold s r - m ≤ t)
  | none => false

/-- A region has reached its emergency threshold. -/
def regionEmerg (s : State) (r : Nat) : Bool := match regionHottest s r with
  | some t => decide (emergThreshold s r ≤ t)
  | none => false

/-- A region stands at or above its limit; inlet air has none. -/
def regionOver (s : State) (r : Nat) : Bool := match regionHottest s r with
  | some t => decide (r < 18) && decide ((if r = 0 then 1050 else 850) ≤ t)
  | none => false

/-- The region that holds the thermal trigger: one at its step threshold, or, while the trigger holds, one less than 3.0 °C
below it. -/
def thermalRegion (s : State) : Option Nat :=
  match (List.range 19).find? (regionAt s 0) with
  | some r => some r
  | none => if s.tide.trigger then (List.range 19).find? (regionAt s 29) else none

/-- The EMERGENCY record (R320): its kind as HM_EMERG gives it, the region, or 0xFF for none, and whether it is declared or cleared.
DESIGN CHOICE (log entry 194). -/
def logEmergency (s : State) (kind region : Nat) (declared : Bool) : State :=
  logRecord s 0x0050 (src 1 0) false (leBytes kind 1 ++ leBytes region 1 ++ [Config.emergencyCode declared])

/-- An emergency is declared (R320): every dry-dock grant is withdrawn. -/
def declare (s : State) (thermal : Bool) : State :=
  let since := if emergency s then s.tide.emSince else s.sessionUs
  let region := if thermal then ((List.range 19).find? (regionEmerg s)).getD 255 else 255
  let t := { s.tide with emThermal := s.tide.emThermal || thermal, emSupply := s.tide.emSupply || !thermal,
                         emSince := since, emClearedAt := none }
  let s := logEmergency { s with tide := t } (if thermal then 1 else 2) region true
  withdrawDocks (raise (bumpHalf s A.HM_COUNTS 16) 1 1)

/-- Emergencies whose condition holds and which are not yet declared. -/
def reviewEmergency (s : State) : State :=
  let hot := (List.range 19).any (regionEmerg s)
  let s := if hot && !s.tide.emThermal then declare s true else s
  if s.tide.supply && s.tide.step == 3 && !s.tide.emSupply then declare s false else s

/-- The emergencies clear with the trigger. -/
def clearEmergency (s : State) : State :=
  if emergency s then
    let kind := flag s.tide.emThermal + 2 * flag s.tide.emSupply
    let t := { s.tide with emThermal := false, emSupply := false, emPersisted := false, emClearedAt := some s.sessionUs }
    raise (logEmergency { s with tide := t } kind 255 false) 1 2
  else s

/-- The trigger, the emergencies and the regions at their limits, after a change of the readings. -/
def reviewTide (s : State) : State :=
  let region := thermalRegion s
  let supply := supplyLow s
  let on := region.isSome || supply
  let was := s.tide.trigger
  let hot := (List.range 19).filter (regionOver s)
  let since := hot.map (fun r => (r, tabGetD s.tide.hotSince r s.sessionUs))
  let t := { s.tide with region := region, thermal := region.isSome, supply := supply, trigger := on,
                         hotSince := since, hotTripped := s.tide.hotTripped.filter (fun r => hot.contains r),
                         undoAt := if was && !on then s.sessionUs else s.tide.undoAt }
  let s := { s with tide := t }
  let s := reviewEmergency s
  if was && !on then clearEmergency s else s

/-! ### Sensors (R63, R303, R305) -/

/-- Since when a sensor has been continuously plausible, with a plausible median now: a silence of more than 50 ms begins the
run anew. DEDUCED (log 149). -/
def goodRun (x : Sensor) (now : Nat) : Nat :=
  match x.goodSince with
  | some t => if x.lastGood + 50000 < now then now else t
  | none => now

/-- A raw sample joins the last two; three of them give a median, which is used when it is plausible. -/
def takeSample (s : State) (cls num : Nat) (raw : Int) : State :=
  let xs := ((sensorOf s cls num).samples ++ [raw]).reverse.take 3 |>.reverse
  let s := updSensor s cls num (fun x => { x with samples := xs, sampledAt := some s.sessionUs })
  match xs with
  | [a, b, c] =>
    let m := median3 a b c
    if plausible s cls m then
      updSensor s cls num (fun x => { x with median := some m, lastGood := s.sessionUs,
                                             goodSince := some (goodRun x s.sessionUs) })
    else bump (updSensor s cls num (fun x => { x with goodSince := none })) (A.BW_REJ_COUNT + 12)
  | _ => s

/-- SENSOR_SAMPLE: a sample of a sensor that is being sampled, at its interval (R303). -/
def execSensorSample (cls num : Nat) (raw : Int) (s : State) : Host.Outcome State Fault Refusal :=
  if live s && decide (num < sensorCount cls) && decide (cls < 8) && (sensorOf s cls num).sampling && sampleDue s cls num then
    conclude (reviewTide (takeSample s cls num raw))
  else conclude s

/-- SENSOR_FAILED: more than 50 ms without a plausible median. -/
def execSensorFailed (cls num : Nat) (s : State) : Host.Outcome State Fault Refusal :=
  let x := sensorOf s cls num
  if live s && decide (num < sensorCount cls) && decide (cls < 8) && x.sampling && !x.failed &&
      decide (x.lastGood + 50000 < s.sessionUs) then
    let s := updSensor s cls num (fun x => { x with failed := true, goodSince := none })
    conclude (reviewTide (faultAct (raise s 2 0) 13 (sensorKey cls num) 0))
  else conclude s

/-- SENSOR_READMITTED: 1 s of plausible medians, unless the sensor's fault is lasting. -/
def execSensorReadmitted (cls num : Nat) (s : State) : Host.Outcome State Fault Refusal :=
  let x := sensorOf s cls num
  let long := match x.goodSince with
    | some t => decide (t + 1000000 ≤ s.sessionUs) && decide (s.sessionUs ≤ x.lastGood + 50000)
    | none => false
  if live s && x.failed && long && !(faultCount s 13 (sensorKey cls num)).lasting then
    conclude (reviewTide (raise (updSensor s cls num (fun x => { x with failed := false })) 2 1))
  else conclude s

/-! ### The rail (R25, R317) -/

/-- The rail takes a new value; energy estimates are frozen for 100 ms (R316). -/
def setRail (s : State) (mv : Nat) : State :=
  if s.tide.rail = mv then s
  else { s with tide := { s.tide with rail := mv, frozenUntil := s.sessionUs + 100000 } }

/-- The FSI and the ring that sets it: the largest of the 48 delays, ties to the lower ring. -/
def fastestRing (rings : List Nat) : Nat × Nat :=
  let top := listMax (rings.take 48)
  (top, ((rings.take 48).findIdx? (fun x => x == top)).getD 0)

/-- The rail follows the FSI by 10 mV. -/
def railStep (s : State) : State :=
  let target := fieldOf s A.HM_FSI 31 16
  let t := s.tide
  if s.pstate.cur < 2 ∧ t.step < 2 then
    if target < t.fsi ∧ !t.full then setRail s (min (fieldOf s A.HM_RAIL_CTRL 25 16) (t.rail + 10))
    else if t.fsi + 40 < target then setRail s (max (fieldOf s A.HM_RAIL_CTRL 9 0) (t.rail - 10))
    else s
  else s

/-- Since when the rail has been at its maximum with the FSI above target. -/
def reviewAtMax (s : State) : State :=
  let t := s.tide
  let at_ := decide (t.rail = fieldOf s A.HM_RAIL_CTRL 25 16) && decide (fieldOf s A.HM_FSI 31 16 < t.fsi)
  { s with tide := { t with atMaxSince := if at_ then some (t.atMaxSince.getD (s.sessionUs, false)) else none } }

/-- 100 µs have passed since the rings were last measured (R25). -/
def ringsDue (s : State) : Bool := match s.tide.fsiAt with
  | some t => decide (t + 100 ≤ s.sessionUs)
  | none => true

/-- RING_MEASUREMENT. -/
def execRingMeasurement (rings : List Nat) (railMv : Nat) (s : State) : Host.Outcome State Fault Refusal :=
  if live s && ringsDue s then
    let (top, ring) := fastestRing rings
    let t := { s.tide with fsi := top, fsiRing := ring, fsiWorst := max s.tide.fsiWorst top, railMeasured := railMv,
                           fsiAt := some s.sessionUs }
    conclude (reviewAtMax (railStep { s with tide := t }))
  else conclude s

/-- RAIL_LIMIT: 1 s at the maximum with the FSI above target. -/
def execRailLimit (s : State) : Host.Outcome State Fault Refusal :=
  match s.tide.atMaxSince with
  | some (t, false) =>
    if live s && decide (t + 1000000 ≤ s.sessionUs) then
      conclude (raise { s with tide := { s.tide with atMaxSince := some (t, true) } } 1 5)
    else conclude s
  | _ => conclude s

/-! ### The tide (R306 to R308, R315, R316) -/

/-- An input sensor is failed. -/
def inputDown (s : State) : Bool := sensorDown s (sensorKey 0 0) || sensorDown s (sensorKey 1 0)

/-- The budget of a window with a credit (R307). -/
def budgetOf (s : State) (credit : Int) : Int :=
  let e : Int := effectiveCeiling s
  if credit < 0 then e + max credit (-(e / 4))
  else if s.pstate.cur = 0 ∧ s.tide.step = 0 ∧ !anySensorFailed s then e + min credit 60
  else e

/-- What the operations of a window are estimated to have taken, in tenths of a nanojoule. -/
def estimateDnj (s : State) (counts : Tab Nat) : Nat :=
  listSum (counts.map (fun p => p.2 * costOf s (p.1 / 16) (p.1 % 16)))

/-- One normalised least-mean-squares step of 1/64 over the estimates of the operations that ran, each held within 0.5 to 2.0
times its start (R316). -/
def fitCosts (s : State) (r : WindowReport) : State :=
  let ran := r.counts.filter (fun p => decide (p.2 ≠ 0) && decide (p.1 / 16 < 18) && decide (p.1 % 16 < 13))
  let norm := listSum (ran.map (fun p => p.2 * p.2))
  let err : Int := (10000000 * (r.spentMj : Int)) - (10000000 * r.standingMj + estimateDnj s ran : Nat)
  let fit := fun (p : Nat × Nat) =>
    let old : Int := costOf s (p.1 / 16) (p.1 % 16)
    let start := costStart (p.1 % 16)
    let new := (old + err * (p.2 : Int) / (64 * (norm : Int))).toNat
    max (start / 2) (min (2 * start) new)
  let costs := ran.foldl (fun t p => tabPut t p.1 (fit p)) s.tide.costs
  if norm = 0 then s else { s with tide := { s.tide with costs := costs } }

/-- The measured registers that a window's end sets (R223, R333, R334). -/
def windowRegs (s : State) (r : WindowReport) : State :=
  let s := regSet s A.HM_PIN (word (sat r.powerDw 16))
  let s := regSet s A.CM_POWER (word (sat r.indexMw 16))
  let s := regSet s A.CM_SEARCH_RATE (word (sat r.searches 32))
  let s := regSet s A.CM_MC_HIT (word (min 1000 r.hitPermille))
  let s := r.engineBusy.foldl (fun s p =>
    if p.1 < 64 then regSet s (0x5004C + 0x1000 * p.1) (word (min 1000 p.2)) else s) s
  r.engineMj.foldl (fun s p => if p.1 < 64 then bumpBy s (0x50050 + 0x1000 * p.1) p.2 else s) s

/-- A window ends: its energy settles the credit, and the next window's budget and pool are set. -/
def endWindow (s : State) (r : WindowReport) : State :=
  let spent := if inputDown s then r.standingMj + estimateDnj s r.counts / 10000000 else r.spentMj
  let credit := max (-600) (min 600 (s.tide.credit + (effectiveCeiling s : Int) - (spent : Int)))
  let full := decide (19 * s.tide.budget ≤ 20 * spent)
  let s := if inputDown s || decide (s.sessionUs < s.tide.frozenUntil) then s else fitCosts s r
  let budget := (budgetOf s credit).toNat
  let served := (s.tide.served ++ [r.classMj.take 8]).reverse.take 100 |>.reverse
  let pool := budget - r.standingMj
  let t := { s.tide with credit := credit, spent := spent, paced := 0, windowAt := s.sessionUs, budget := budget,
                         pool := pool, ledger := some (openLedger s (10000000 * pool) r.classQueued), full := full, energyMj := s.tide.energyMj + spent,
                         served := served, queued := r.classQueued.take 8 }
  let s := { s with tide := t }
  startErases ((dockWork s).foldl charge (windowRegs s r))

/-- TIDE_WINDOW_END: 1 ms has passed. -/
def execTideWindowEnd (r : WindowReport) (s : State) : Host.Outcome State Fault Refusal :=
  if live s && decide (s.tide.windowAt + 1000 ≤ s.sessionUs) then conclude (endWindow s r) else conclude s

/-! ### Steps (R318, R319) -/

/-- A tenth of CEIL. -/
def tenth (s : State) : Nat := fieldOf s A.HM_TIDE_CEIL 9 0 / 10

/-- The step-down ceiling falls by a tenth of CEIL, to LOW at the least. -/
def lowerCeil (s : State) : State :=
  let c := min s.tide.stepCeil (fieldOf s A.HM_TIDE_CEIL 9 0)
  { s with tide := { s.tide with stepCeil := max (fieldOf s A.HM_TIDE_CEIL 19 10) (c - tenth s) } }

/-- The step becomes `k`: STEP_CHANGED; at step 3 the shared remainder of the pool is zero. -/
def toStep (s : State) (k : Nat) : State :=
  let l := s.tide.ledger.map (fun l => if k = 3 then { l with shared := 0 } else l)
  raise { s with tide := { s.tide with step := k, ledger := l } } 1 0

/-- The rail falls by 10 mV, to MIN_MV at the least. -/
def lowerRail (s : State) : State := setRail s (max (fieldOf s A.HM_RAIL_CTRL 9 0) (s.tide.rail - 10))

/-- One move of the step-down. -/
def stepMove (s : State) : State :=
  match s.tide.step with
  | 0 => lowerCeil (bumpHalf (toStep s 1) A.HM_COUNTS 0)
  | 1 => if s.tide.stepCeil ≤ fieldOf s A.HM_TIDE_CEIL 19 10 then lowerRail (toStep s 2) else lowerCeil s
  | 2 => if s.tide.rail ≤ fieldOf s A.HM_RAIL_CTRL 9 0 then toStep s 3 else lowerRail s
  | _ => s

/-- STEP_DOWN: while the trigger holds, a move every 10 ms; the first at once. -/
def execStepDown (s : State) : Host.Outcome State Fault Refusal :=
  if live s && s.tide.trigger && (s.tide.step == 0 || decide (s.tide.steppedAt + 10000 ≤ s.sessionUs)) then
    let s := stepMove { s with tide := { s.tide with steppedAt := s.sessionUs } }
    conclude (reviewEmergency s)
  else conclude s

/-- One step undone; at step 1 the ceiling rises by a tenth of CEIL, and at CEIL the step-down is over. -/
def undoStep (s : State) : State :=
  let wait := fun (s : State) (us : Nat) => { s with tide := { s.tide with undoAt := s.sessionUs + us } }
  match s.tide.step with
  | 0 => s
  | 1 =>
    let top := fieldOf s A.HM_TIDE_CEIL 9 0
    let c := s.tide.stepCeil + tenth s
    if top ≤ c then toStep { s with tide := { s.tide with stepCeil := 300 } } 0
    else wait { s with tide := { s.tide with stepCeil := c } } 10000
  | k + 1 => wait (toStep s k) 100000

/-- STEP_UP. -/
def execStepUp (s : State) : Host.Outcome State Fault Refusal :=
  if live s && !s.tide.trigger && decide (1 ≤ s.tide.step) && decide (s.tide.undoAt ≤ s.sessionUs) then conclude (undoStep s)
  else conclude s

/-! ### Emergencies and LOW_TIDE (R77, R320) -/

/-- EMERGENCY_PERSIST. -/
def execEmergencyPersist (s : State) : Host.Outcome State Fault Refusal :=
  if live s && emergency s && !s.tide.emPersisted &&
      decide (s.tide.emSince + 1000 * fieldOf s A.HM_EMERG 15 0 ≤ s.sessionUs) then
    let s := { s with tide := { s.tide with emPersisted := true } }
    conclude (autoMode s 1 (if s.tide.emThermal then 5 else 6) [0, 4])
  else conclude s

/-- LOW_TIDE_RETURN: 60 s after the emergency cleared, to the mode left. -/
def execLowTideReturn (s : State) : Host.Outcome State Fault Refusal :=
  match s.mode.autoLow, s.tide.emClearedAt with
  | some m, some t =>
    if live s && !emergency s && s.mode.cur == 1 && decide (t + 60000000 ≤ s.sessionUs) then
      conclude (enterMode s (if m = 4 ∧ s.mode.rebuild then 4 else 0) 7 s.seqr.next)
    else conclude s
  | _, _ => conclude s

/-! ### The thermal trip (R321) -/

/-- The trip's record and event. -/
def logTrip (s : State) (r : Nat) : State :=
  let t := (regionHottest s r).getD 0
  let s := logRecord s 0x0051 (src 1 0) true (leBytes r 1 ++ leBytes (twos t 16) 2)
  raise { s with tide := { s.tide with tripped := true, hotTripped := r :: s.tide.hotTripped } } 1 4

/-- A trip before service opens ends the power-on: QUIESCE, and phases 3 and 4, with no checkpoint. -/
def tripBoot (s : State) : State :=
  let s : State := if s.mode.cur = 3 then s else enterMode s 3 0x0A s.seqr.next
  let s := setPhase (setPhase s 3) 4
  { s with boot := { s.boot with stage := .stoppedTrip }, seqr := { s.seqr with stopped := true } }

/-- THERMAL_TRIP. -/
def execThermalTrip (region : Nat) (s : State) : Host.Outcome State Fault Refusal :=
  match tabGet s.tide.hotSince region with
  | some t =>
    if live s && !s.tide.hotTripped.contains region && decide (t + 5000000 ≤ s.sessionUs) then
      let s := logTrip s region
      if s.phase = 2 then concludeSeq (beginShutdown s s.seqr.next)
      else if s.boot.stage = .stageTwo ∨ s.boot.stage = .mounting then conclude (tripBoot s)
      else conclude s
    else conclude s
  | none => conclude s

/-! ### Power states (R322 to R326) -/

/-- Work that is a hard deadline now (R312). -/
def hardDeadline (s : State) : Bool :=
  s.flash.sets.any (fun p => p.2.refreshDue.isSome) || (s.space.dredging && (s.space.state == 2 || s.space.state == 3)) ||
    decide (fieldOf s A.DR_LANDING 15 0 ≤ (s.flash.sets.filter (fun p => p.2.pool == Pool.landing)).length) ||
    (s.careen.survey.active && s.careen.survey.deadline) || s.dies.any (fun d => d.2.st == 1 || d.2.st == 2)

/-- Every completion frame has been acknowledged. -/
def allAcked (s : State) : Bool :=
  s.berths.all (fun p => p.2.cq.all (fun e => e.2) && p.2.cqWait.isEmpty) &&
    s.moorings.all (fun p => p.2.tp.sendQueue.isEmpty && p.2.tp.unacked.isEmpty)

/-- The preparations of a state have been made: before P4, every dirty chain is written back, and a checkpoint begun after
that has completed (R325). -/
def prepared (s : State) (k : Nat) : Bool :=
  k != 4 || ((liveChains s).isEmpty && s.space.ckpt.isNone && (match s.flash.saved with
    | some x => x.horizon == s.seqr.next
    | none => false))

/-- The conditions of R323 for entering a state. -/
def mayEnter (s : State) (k : Nat) : Bool :=
  decide (k ≤ 4) && decide (k ≤ fieldOf s A.SY_PWR_CTRL 2 0) &&
    (k < 2 || (!hardDeadline s && s.careen.campaigns.isEmpty && !s.careen.docks.any (fun d => d.2.phase != 0) &&
      !s.flash.sets.any (fun p => p.2.sweepPending) && s.mode.cur != 4 && !activating s)) &&
    (k < 3 || allAcked s) && prepared s k

/-- PSTATE_ENTRY: the drive has been idle for the next state's time. -/
def execPstateEntry (s : State) : Host.Outcome State Fault Refusal :=
  let k := s.pstate.cur + 1
  match s.pstate.idleSince with
  | some t =>
    if live s && serviceOpen s && s.pstate.excursion.isNone && mayEnter s k &&
        decide (t + 1000 * (regGet s (A.HM_IDLE_T + 4 * (k - 1))).toNat ≤ s.sessionUs) then
      conclude (setPState s k)
    else conclude s
  | none => conclude s

/-- The patrol lies behind the pace that ends its sweep within the period (R265). -/
def patrolBehind (s : State) : Bool :=
  let total := (s.flash.sets.filter (fun p => !p.2.isOpen)).length + mirroredTotal
  (patrolNext s).isSome &&
    decide (s.careen.patrolCount * (86400000000 * fieldOf s A.CA_PATROL 23 16) ≤ (s.poweredUs - s.careen.patrolStart) * total)

/-- Work that R326 names has fallen due: a checkpoint, powered-time persistence, the pace of the patrol, a calibration, a bank test; or
a hard deadline, or a word line. -/
def workDue (s : State) : Bool :=
  ckptDue s || decide (s.persistedAt + 60000000 ≤ s.poweredUs) || hardDeadline s || s.dies.any (fun d => d.2.calDue) ||
    testDue s || flushDue s || patrolBehind s

/-- Such work runs. -/
def workRuns (s : State) : Bool := s.space.ckpt.isSome || s.index.test.isSome || s.engines.any (fun e => e.2.testing)

/-- MAINTENANCE_EXCURSION: work falls due in P2 to P4 and the drive exits to P1; or the work is done, and it returns. -/
def execMaintenanceExcursion (s : State) : Host.Outcome State Fault Refusal :=
  match s.pstate.excursion with
  | some k =>
    if live s && !activating s && !workDue s && !workRuns s then
      conclude (setPState { s with pstate := { s.pstate with excursion := none } } k)
    else conclude s
  | none =>
    if live s && decide (2 ≤ s.pstate.cur) && workDue s then
      let was := s.pstate.cur
      let s := setPState s 1
      conclude { s with pstate := { s.pstate with excursion := some was } }
    else conclude s

/-- POWERED_TIME: 60 s of session time since it was last persisted. -/
def execPoweredTime (s : State) : Host.Outcome State Fault Refusal :=
  if live s && decide (s.persistedAt + 60000000 ≤ s.poweredUs) then conclude (persistPowered s) else conclude s

end Sys2Proof.Machine
end

