-- ==== Sys2Proof/Machine/Harbour.lean ====
section
/-! DEFINITION. The harbour: beacons and membership (R432 to R435), cohort triggers (R446, R447), TOW and its towline at the
source (R174, R437 to R441), and TOW_DATA at the destination (R442, R443). -/

namespace Sys2Proof.Machine

/-! ### Beacons and membership -/

/-- The beacon that the drive sends now (R434). -/
def beaconBody (s : State) : BeaconBody :=
  let id := harbourId s
  { bflags := flag (id.2.1 == 0) + 2 * flag (bit (regGet s A.HB_CTRL) 2) + 4 * flag s.harbour.selfConflictAt.isSome,
    harbourId := id.2.2, serial := s.flash.otp.serial, seq := s.harbour.beaconSeq,
    bootNumber := s.boot.bootNumber, fw := (regWord s false A.SY_FW_VERSION).toNat, mode := s.mode.cur, space := s.space.state,
    life := s.careen.life, towFree := 255 - towlinesHeld s, members := harbourMembers s, pstate := s.pstate.cur,
    towPort := fieldOf s A.HB_PORTS 31 16 }

/-- The Ethernet address of the group: PRESUMED, the mapping of RFC 2464. -/
def harbourGroupEth : Nat := 0x333300019256

/-- A beacon is due (R433): 100 ms and the delay drawn for it have passed since the last. -/
def beaconDue (s : State) : Bool := decide (s.harbour.beaconAt + 100000 + s.harbour.beaconDelay ≤ s.sessionUs)

/-- BEACON_SEND (R433): the delay of the next beacon is drawn, 0 to 10 ms, a free value (DEDUCED: log entry 136). -/
def execBeaconSend (s : State) : Host.Outcome State Fault Refusal :=
  if bit (regGet s A.HB_CTRL) 0 ∧ (harbourId s).1 ∧ s.power.running ∧ beaconDue s then
    let (w, s) := takeFree s
    let s := { s with harbour := { s.harbour with beaconSeq := seqAdd s.harbour.beaconSeq 1, beaconAt := s.sessionUs,
                                                  beaconDelay := w.toNat % 10001 } }
    let b := beaconBody s
    let env := fun (p : Port) => harbourEnvelope s p harbourGroupEth harbourGroup (fieldOf s A.HB_PORTS 15 0) false (beaconBytes b)
    conclude (emitOn (emitOn s .a (env .a) (.beacon .a b)) .b (env .b) (.beacon .b b))
  else conclude s

/-- Change a membership entry. -/
def putMember (s : State) (id : Nat) (m : Member) : State :=
  { s with harbour := { s.harbour with members := tabPut s.harbour.members id m } }

/-- The entry that a beacon gives (R435). -/
def memberOf (s : State) (rx : Rx) (b : BeaconBody) : Member :=
  { st := .present, serial := b.serial, address := rx.ipSrc, mode := b.mode, space := b.space, life := b.life, fw := b.fw,
    seq := b.seq, at_ := s.sessionUs, lostAt := 0, secondAt := 0 }

/-- A harbour datagram on BEACON_PORT: the class of the first of checks 1 to 5 of R93 that it fails. -/
def beaconCheck (s : State) (rx : Rx) : Option Nat :=
  match ipCheck s rx [17] with
  | some k => some k
  | none =>
    let sum := match rx.udpSum with
      | .good => true
      | .zero => rx.ether == .ipv4
      | .bad => false
    if harbourDatagram s rx && rx.dstUdpPort == fieldOf s A.HB_PORTS 15 0 && rx.udpLengthOk && sum then none else some 4

/-- A beacon's layout (R434, R435): MAGIC, VERSION, length and reserved bits. -/
def beaconForm (v : List Byte) : Bool :=
  v.length == 64 && beAt v 0 4 == 0x48424E39 && beAt v 4 1 == 1 && decide (beAt v 5 1 < 8) && decide (beAt v 6 2 < 4096) &&
    beAt v 35 1 == 0 && beAt v 38 26 == 0

/-- The fields of a beacon's payload (R434). -/
def beaconOf (v : List Byte) : BeaconBody :=
  { bflags := beAt v 5 1, harbourId := beAt v 6 2, serial := beAt v 8 8, seq := beAt v 16 4, bootNumber := beAt v 20 4, fw := beAt v 24 4,
    mode := beAt v 28 1, space := beAt v 29 1, life := beAt v 30 1, towFree := beAt v 31 1, members := beAt v 32 2, pstate := beAt v 34 1,
    towPort := beAt v 36 2 }

/-- The table of R435: what a beacon does to the entry of its HARBOUR_ID. -/
def updateMember (s : State) (rx : Rx) (b : BeaconBody) : State :=
  let fresh := memberOf s rx b
  let rxd := fun (s : State) => bump s A.HB_BEACON_RX
  let joined := raise (rxd (putMember s b.harbourId fresh)) 0x0D 0
  match tabGet s.harbour.members b.harbourId with
  | none => joined
  | some m =>
    match m.st with
    | .lost => joined
    | .present =>
      if b.serial ≠ m.serial then
        raise (rxd (putMember s b.harbourId { m with st := .conflict, secondAt := s.sessionUs, at_ := s.sessionUs })) 0x0D 2
      else if seqLt m.seq b.seq then rxd (putMember s b.harbourId { fresh with secondAt := m.secondAt })
      else bump s A.HB_BEACON_BAD
    | .conflict =>
      let second := if b.serial = m.serial then m.secondAt else s.sessionUs
      rxd (putMember s b.harbourId { m with at_ := s.sessionUs, secondAt := second })

/-- The drive's own ID under another serial (R435). -/
def selfConflict (s : State) (b : BeaconBody) : State :=
  if (harbourId s).1 ∧ (harbourId s).2.2 = b.harbourId then
    raise { s with harbour := { s.harbour with selfConflictAt := some s.sessionUs } } 0x0D 2
  else s

/-- BEACON (R432, R435). -/
def execBeacon (rx : Rx) (payload : List Byte) (s : State) : Host.Outcome State Fault Refusal :=
  let s := arrive s rx
  match beaconCheck s rx with
  | some k => conclude (discard s rx.port k)
  | none =>
    let s := countAccepted s rx.port
    let b := beaconOf payload
    if !beaconForm payload then conclude (bump s A.HB_BEACON_BAD)
    else if b.serial = s.flash.otp.serial then conclude s
    else conclude (selfConflict (updateMember s rx b) b)

/-- An entry ages (R435). -/
def ageMember (s : State) (id : Nat) : State :=
  match tabGet s.harbour.members id with
  | none => s
  | some m =>
    let quiet : Bool := decide (m.at_ + 1000000 ≤ s.sessionUs)
    match m.st with
    | .lost =>
      if m.lostAt + 60000000 ≤ s.sessionUs then
        { s with harbour := { s.harbour with members := tabErase s.harbour.members id } }
      else s
    | .present => if quiet then raise (putMember s id { m with st := .lost, lostAt := s.sessionUs }) 0x0D 1 else s
    | .conflict =>
      if quiet then raise (putMember s id { m with st := .lost, lostAt := s.sessionUs }) 0x0D 1
      else if m.secondAt + 1000000 ≤ s.sessionUs then putMember s id { m with st := .present } else s

/-- MEMBER_AGE (R435): of the drive's own ID, the conflict flags clear too. -/
def execMemberAge (id : Nat) (s : State) : Host.Outcome State Fault Refusal :=
  let s := ageMember s id
  match s.harbour.selfConflictAt with
  | none => conclude s
  | some t =>
    if (harbourId s).2.2 = id ∧ t + 1000000 ≤ s.sessionUs then
      conclude { s with harbour := { s.harbour with selfConflictAt := none } }
    else conclude s

/-! ### Cohort triggers -/

/-- A trigger's layout (R446). -/
def triggerForm (v : List Byte) : Bool :=
  v.length == 236 && beAt v 0 4 == 0x43545239 && beAt v 4 1 == 1 && beAt v 5 3 == 0 && beAt v 12 4 == 0 && beAt v 137 3 == 0

/-- COHORT of a trigger, and PUBKEY. -/
def triggerCohort (v : List Byte) : Nat := beAt v 8 4
def triggerKey (v : List Byte) : List Byte := (v.drop 40).take 97

/-- SIG of a trigger verifies over its bytes 0 to 139, under a key whose hash an enabled root slot holds (R447, step 3). -/
def triggerSigned (s : State) (v : List Byte) : Bool :=
  (enabledRoots s).any (fun r => r.2 == Config.sha384 (triggerKey v)) && Config.sigVerifies (triggerKey v) (v.take 140) (v.drop 140)

/-- COHORT and SET_PREFIX match the armed activation (R447, step 2). -/
def triggerMatches (s : State) (v : List Byte) : Bool :=
  s.update.st == .armed && s.update.cohort == triggerCohort v &&
    (match s.update.manifest with
    | some m => m.digest / 2 ^ 256 == beAt v 16 16
    | none => false)

/-- A trigger is ignored (R419): counted unless it names the cohort whose activation has fired. -/
def ignoreTrigger (s : State) (v : List Byte) : State :=
  if activating s ∧ s.update.cohort = triggerCohort v then s
  else { s with update := { s.update with trigIgnored := sat (s.update.trigIgnored + 1) 32 } }

/-- Verify a matching trigger, at most 100 in a second, and fire (R447). -/
def verifyTrigger (s : State) (v : List Byte) : State :=
  let second := s.sessionUs / 1000000
  let n := if s.update.trigSecond = second then s.update.trigChecked else 0
  if 100 ≤ n then { s with update := { s.update with trigIgnored := sat (s.update.trigIgnored + 1) 32 } }
  else
    let s := { s with update := { s.update with trigSecond := second, trigChecked := n + 1 } }
    if triggerSigned s v then (fireCohort s (triggerCohort v)).1
    else raise (bump s A.HB_TRIG_BAD) 0x0D 5

/-- COHORT_TRIGGER (R432, R447). -/
def execCohortTrigger (rx : Rx) (payload : List Byte) (s : State) : Host.Outcome State Fault Refusal :=
  let s := arrive s rx
  match beaconCheck s rx with
  | some k => conclude (discard s rx.port k)
  | none =>
    let s := countAccepted s rx.port
    if !bit (regGet s A.HB_CTRL) 1 then conclude s
    else if !triggerForm payload then conclude (bump s A.HB_TRIG_BAD)
    else if triggerMatches s payload then conclude (verifyTrigger s payload)
    else conclude (ignoreTrigger s payload)

/-! ### A towline at its source -/

/-- A towline. -/
def towlineOf (s : State) (t : Nat) : Option Towline := tabGet s.harbour.towlines t

/-- Change a towline. -/
def updTowline (s : State) (t : Nat) (f : Towline → Towline) : State :=
  { s with harbour := { s.harbour with towlines := tabUpd s.harbour.towlines t f } }

/-- The port through which a towline's frames go: A when it is up, else B (R437). -/
def towPort (s : State) : Port := if linkUp s .a then .a else .b

/-- The towline from this drive to a destination, open or in its handshake (R439). -/
def towlineTo (s : State) (dest : Nat) : Option (Nat × Towline) :=
  s.harbour.towlines.find? (fun p => p.2.source && p.2.peerId == dest && p.2.st != .closing && p.2.st != .peerClosing)

/-- Why no towline to a destination can be opened (R430, R437, R441). -/
def towlineRefusal (s : State) (dest : Nat) : Option Status :=
  let present : Bool := match tabGet s.harbour.members dest with
    | some m => m.st == .present
    | none => false
  if s.flash.harbourCert.isNone || !(harbourId s).1 || !present then some .state
  else if 255 ≤ towlinesHeld s then some .tableFull
  else none

/-- The HELLO of a towline (R437): one berth, and TOW_ID in the first reserved byte; HOST_RANDOM and the ephemeral key come from
one draw. -/
def towHello (draw id : Nat) (ecn : Bool) : HelloBody :=
  { random := beNat (randomOf draw), ephemeral := beNat (ephemeralOf draw), onCurve := true, berths := 1, hflags := flag ecn,
    maxPayload := 9088, reserved := id * 65536 }

/-- Open a towline to a destination: the lowest free ID, two slots, and HELLO (R437, R438). -/
def openTowline (s : State) (dest : Nat) : Except Status (State × Nat) :=
  match towlineRefusal s dest, tabGet s.harbour.members dest, freeKey s.harbour.towlines 255 with
  | some st, _, _ => .error st
  | none, some m, some id =>
    (match takeSlots { s with draws := s.draws + 1 } id [] [] with
    | none => .error .tableFull
    | some (t, recv, send) =>
      let p := towPort s
      let path : Path := { port := p, ethSrc := 0, ipSrc := m.address, ipv6 := true, ipDst := linkLocal s p, seq := 0 }
      let ecn := bit (regGet s (npAddr p A.NP_IP_CTRL)) 2
      let hello := towHello s.draws id ecn
      let tp := Transport.fresh path 9088 (fieldOf s A.MO_RECV_WINDOW 12 0) 1 s.sessionUs ecn
      let x : Towline := { st := .helloSent, source := true, peer := 0, peerId := dest, sendSlot := send, recvSlot := recv,
                           lastUse := s.sessionUs, tp := tp, hello := hello, draw := s.draws, secrets := ([], []) }
      let t := { t with harbour := { t.harbour with towlines := tabPut t.harbour.towlines id x } }
      .ok (emitOn t p (lineEnvelope t (.towline id) x.tp (clearFrame 1 (helloPayload hello))) (.towHandshake 1 p id dest), id))
  | none, _, _ => .error .tableFull

/-- A TOW begins its first window on an open towline. -/
def startTow (s : State) (csn : Nat) : State :=
  match s.harbour.tows.find? (fun x => x.csn == csn) with
  | none => s
  | some x => admitWindow s x

/-- The TOW that an admitted capsule asks for (R174). -/
def towOf (n : Nat) (c : Capsule) (csn : Nat) (faults : ReadFaults) : Tow :=
  { csn := csn, berth := n, tag := c.tag, quay := c.quay, dest := c.param % 4096, destQuay := natBits c.param 27 16,
    towline := none, windowStart := beAt c.value 0 16, windowCsn := 0, windowKeys := 0, windowGranules := 0,
    keys := 0, granules := 0, firstCsn := 0, lastCsn := 0, nextSeq := 0, outstanding := [], toSend := [], pinned := [],
    badRecords := faults.tags, parity := faults.parity }

/-- A TOW takes its towline (R437, R439): on one that is open its first window follows; on one in its handshake it waits;
where none can be opened it ends at the first window. -/
def enterTow (s : State) (x : Tow) : State :=
  let s := { s with harbour := { s.harbour with tows := s.harbour.tows ++ [x] } }
  match towlineTo s x.dest with
  | some (t, y) =>
    let s := updTow (updTowline s t (fun y => { y with lastUse := s.sessionUs })) x.csn (fun x => { x with towline := some t })
    if y.st = .open then resumeAll (startTow s x.csn) else s
  | none =>
    match openTowline s x.dest with
    | .error st => endTow (towFailed s (statusCode st) x.dest) x .retry x.windowStart
    | .ok (s, t) => updTow s x.csn (fun x => { x with towline := some t })

/-- A TOW is admitted (R174). -/
def admitTow (s : State) (n : Nat) (c : Capsule) (faults : ReadFaults) : State :=
  let (csn, s) := admitTag s n c.tag true
  enterTow s (towOf n c csn faults)

/-- TOW (R174). `faults` names records by RECORD_ID. -/
def execTow (berth : Nat) (faults : ReadFaults) (s : State) : Host.Outcome State Fault Refusal :=
  capsule s berth 0x09 (fun s _ _ c => admitTow s berth c faults)

/-- The handshake of a towline ends in failure (R441): its ID and slots are free, and its TOWs end. -/
def failHandshake (s : State) (t : Nat) (x : Towline) (status : Nat) : State :=
  let s := freeSlot (freeSlot s x.sendSlot) x.recvSlot
  let s := towFailed s status x.peerId
  endTowsOf { s with harbour := { s.harbour with towlines := tabErase s.harbour.towlines t } } t status

/-- A towline whose handshake has come to one step. -/
def handshakeAt (s : State) (t : Nat) (st : TowlineState) : Option Towline :=
  match towlineOf s t with
  | some x => if x.source ∧ x.st = st then some x else none
  | none => none

/-- The destination's certificate is good, and its serial is that of the peer's PRESENT entry (R437). -/
def peerCertOk (s : State) (peerId : Nat) (cert : Cert) : Bool :=
  chainOk s [cert] true &&
    (match tabGet s.harbour.members peerId with
    | some m => m.st == .present && m.serial == cert.serial
    | none => false)

/-- The cleartext part of a WELCOME that the source received. -/
def receivedClear (b : WelcomeBody) : List Byte := beBytes b.random 32 ++ beBytes b.ephemeral 97 ++ zeroBytes 3

/-- th1 and hs at the source of a towline (R98, R437). -/
def towSchedule (x : Towline) (b : WelcomeBody) : List Byte × List Byte :=
  (thOne x.hello (receivedClear b),
   handshakeSecret (beBytes x.hello.random 32) (beBytes b.random 32) (Config.sharedSecret x.draw b.ephemeral))

/-- HOST_SIG of a towline's source (R98, R437), by the key of its harbour certificate, the device identity key. -/
def towHostSig (dik : Nat) (x : Towline) (b : WelcomeBody) (cert : List Byte) : List Byte :=
  identitySign dik "FLT-H" ((towSchedule x b).1 ++ b.cert.bytes ++ b.sig ++ cert)

/-- The traffic secrets of a towline at its source: of its sending direction, to the destination, first. -/
def towSecrets (dik : Nat) (x : Towline) (b : WelcomeBody) (cert : List Byte) : List Byte × List Byte :=
  let (th1, hs) := towSchedule x b
  let th3 := thThree th1 b.cert.bytes b.sig cert (towHostSig dik x b cert)
  (trafficSecret hs th3 true, trafficSecret hs th3 false)

/-- WELCOME (R437): a good one is answered with HOST_AUTH, sealed under the handshake key; on a bad one the handshake ends. `sigOk`
tells whether the sealed part's tag, and DRIVE_SIG under the certificate's SUBJECT_KEY, verify. -/
def execWelcome (towline : Nat) (b : WelcomeBody) (sigOk : Bool) (s : State) : Host.Outcome State Fault Refusal :=
  match handshakeAt s towline .helloSent with
  | none => conclude s
  | some x =>
    if peerCertOk s x.peerId b.cert && sigOk then
      let cert := presentedCert s true
      let dik := s.boot.keyStore.dik
      let (th1, hs) := towSchedule x b
      let plain := authPayload cert (towHostSig dik x b cert)
      let bytes := sealedFrame (handshakeKey hs th1 true) 0 (handshakeHead 3 plain.length (helloWindow s) 1) [] plain
      let s := updTowline s towline (fun x => { x with st := .authSent, secrets := towSecrets dik x b cert })
      conclude (emitOn s x.tp.path.port (lineEnvelope s (.towline towline) x.tp bytes)
        (.towHandshake 3 x.tp.path.port towline x.peerId))
    else conclude (failHandshake s towline x (statusCode .auth))

/-- MOORED (R437, R438): the traffic keys go into the slots, the towline is open under the destination's ID, and the TOWs that
waited for it start. -/
def execMoored (towline peerId window : Nat) (s : State) : Host.Outcome State Fault Refusal :=
  match handshakeAt s towline .authSent with
  | none => conclude s
  | some x =>
    let s := updSlot (updSlot s x.sendSlot (fun k => { k with key := .secret x.secrets.1 })) x.recvSlot
      (fun k => { k with key := .secret x.secrets.2 })
    let s := updTowline s towline (fun x => { x with
      st := .open, peer := peerId, lastUse := s.sessionUs, secrets := ([], []), tp := { x.tp with hostLimit := seqAdd 1 window, lastRx := s.sessionUs } })
    let waiting := s.harbour.tows.filter (fun x => x.towline == some towline)
    conclude (resumeAll (waiting.foldl (fun s x => startTow s x.csn) (raise s 0x0D 3)))

/-- REFUSE (R437, R441): it answers HELLO. -/
def execRefuse (towline status : Nat) (s : State) : Host.Outcome State Fault Refusal :=
  match handshakeAt s towline .helloSent with
  | none => conclude s
  | some x => conclude (failHandshake s towline x status)

/-- REFUSE_SEALED (R437, R441): it answers HOST_AUTH. -/
def execRefuseSealed (towline status : Nat) (s : State) : Host.Outcome State Fault Refusal :=
  match handshakeAt s towline .authSent with
  | none => conclude s
  | some x => conclude (failHandshake s towline x status)

/-- GONE (R114, R441): the peer has torn the towline down; nothing is sent in answer. -/
def execGone (towline _cause : Nat) (s : State) : Host.Outcome State Fault Refusal :=
  match towlineOf s towline with
  | none => conclude s
  | some x => if towlineUp x then conclude (teardownLine s (.towline towline) 7) else conclude s

/-- TOWLINE_IDLE (R439): CLOSE is sent. -/
def execTowlineIdle (towline : Nat) (s : State) : Host.Outcome State Fault Refusal :=
  match towlineOf s towline with
  | none => conclude s
  | some x =>
    let used := s.harbour.tows.any (fun y => y.towline == some towline) || s.harbour.towIns.any (fun y => y.towline == towline)
    if x.st = .open ∧ ¬used ∧ x.lastUse + 1000000 * fieldOf s A.HB_TOW_IDLE 15 0 ≤ s.sessionUs then
      let f : TxFrame := { typ := 0x12, seq := 0, berth := 0, first := false, last := false, payload := [], ticket := none,
                           sentAt := 0, sends := 0, expiries := 0, sacked := false }
      let s := updTowline s towline (fun x => { x with
        st := .closing, tp := { x.tp with sendQueue := x.tp.sendQueue ++ [f] } })
      conclude (pump s (.towline towline))
    else conclude s

/-- TOWLINE_CLOSED (R439). -/
def execTowlineClosed (towline : Nat) (s : State) : Host.Outcome State Fault Refusal :=
  match towlineOf s towline with
  | none => conclude s
  | some x => if x.st = .closing then conclude (freeTowline s towline x) else conclude s

/-- TOW_ACK (R440, R441): with OK the capsule is copied, and with its window's last the window is; any other status ends the
TOW at the start of the window. -/
def execTowAck (towline status msgSeq _destCsn _nonces : Nat) (s : State) : Host.Outcome State Fault Refusal :=
  match towlineOf s towline, s.harbour.tows.find? (fun x => x.towline == some towline && x.outstanding.contains msgSeq) with
  | some l, some x =>
    if ¬towlineUp l ∨ ¬l.source then conclude s
    else
      let s := updTowline s towline (fun y => { y with lastUse := s.sessionUs })
      if status = 0 then
        conclude (resumeAll (updTow s x.csn (fun y => { y with outstanding := y.outstanding.filter (fun q => q != msgSeq) })))
      else conclude (resumeAll (endTow (towFailed s status x.dest) x .retry x.windowStart))
  | _, _ => conclude s

/-! ### TOW_DATA at the destination -/

/-- An entry's own form (R440). -/
def towEntryStatus (e : TowEntry) : Option Status :=
  if e.key.isEmpty || e.value.length != e.valueLen then some .badLength
  else if decide (1024 < e.key.length) || decide (0x04000000 < e.valueLen) || !e.eflagsOk || !e.paddingZero ||
    (e.lost && e.valueLen != 0) then some .range
  else none

/-- Check 1 of R442. -/
def towForm (d : TowData) : Option Status :=
  if d.entries.length ≠ d.declared ∨ 83886080 < d.size then some .badLength
  else if d.declared = 0 ∨ 256 < d.declared ∨ ¬d.reservedZero ∨ ¬(d.entries.map TowEntry.key).Nodup then some .range
  else d.entries.findSome? towEntryStatus

/-- The BATCH of PUT entries that a TOW_DATA amounts to (R442, R443). -/
def towBatch (d : TowData) : Capsule :=
  let entry := fun (e : TowEntry) =>
    let body := [1, 0] ++ beBytes e.key.length 2 ++ beBytes e.value.length 4 ++ zeroBytes 8 ++ e.key ++ e.value
    fit body ((body.length + 7) / 8 * 8)
  let value := d.entries.flatMap entry
  { opcode := 0x06, flags := 0, tag := 0, quay := d.quay, keyLen := 0, valueLen := value.length, segOff := 0, expVer := 0,
    param := d.entries.length, key := [], value := value, carried := 32 + value.length }

/-- The checks of R442, with the barrier of R149 where check 3 of R126 has it. -/
def towRefusal (s : State) (d : TowData) : Option Status :=
  let c := towBatch d
  (towForm d).orElse fun _ =>
  (if s.seqr.barrier then some Status.busyActivating else none).orElse fun _ =>
  (if !serviceOpen s || s.mode.cur == 2 || s.mode.cur == 3 || s.mode.cur == 5 then some Status.state else none).orElse fun _ =>
  (if !quayOpen s d.quay then some Status.state else (keyUnavailable s d.quay).map (fun _ => Status.keyLost)).orElse fun _ =>
  (if d.entries.all (fun e => fitsQuay s c e.valueLen) then none else some Status.badLength).orElse fun _ =>
  (spaceStatus s c).orElse fun _ =>
  (if inflightOk s c then none else some Status.retry)

/-- A TOW_DATA is admitted (R443): one committed-mode write with a CSN of its own. -/
def admitTowData (s : State) (t : Nat) (d : TowData) : State :=
  let c := towBatch d
  let (csn, s) := takeCsn (ensureCsn s)
  let s := { s with boot := { s.boot with lastAdmitted := some s.sessionUs } }
  let ops := opsOf s c
  let slot := quaySlot s d.quay
  let segs := listSum (ops.map opSegments)
  let x : TowIn := { csn := csn, towline := t, msgSeq := d.msgSeq, segments := segs,
                     lostKeys := (d.entries.filter TowEntry.lost).map TowEntry.key }
  let s := { s with harbour := { s.harbour with towIns := s.harbour.towIns ++ [x] } }
  match reserveCounter s slot segs with
  | none => answerTow (bumpHalf s A.CP_KEY_REFUSED 0) csn .keyWorn
  | some u => enterReserved u (nextInvocation s slot) (16384 + t) c csn slot ops false

/-- TOW_DATA (R442, R443). -/
def execTowData (towline : Nat) (d : TowData) (s : State) : Host.Outcome State Fault Refusal :=
  match towlineOf s towline with
  | none => conclude s
  | some l =>
    if ¬towlineUp l ∨ l.source ∨ s.seqr.stopped then conclude s
    else
      let s := updTowline s towline (fun y => { y with lastUse := s.sessionUs })
      match towRefusal s d with
      | some st =>
        let x : TowIn := { csn := 0, towline := towline, msgSeq := d.msgSeq, segments := 0, lostKeys := [] }
        conclude (sendCapsule s (.towline towline) 0 none (towAckBytes x st 0 0))
      | none => conclude (admitTowData s towline d)

/-! ### The idle step -/

/-- A step with no command waiting: a tick of time; reads that waited for a pair of index banks run once it is filled (R221). -/
def idleStep (s : State) : State :=
  let t := tick s
  if t.index.pairs = s.index.pairs then t else settle (resumeAll t)

end Sys2Proof.Machine
end

