-- ==== Sys2Proof/Machine/Dispatch.lean ====
section
/-! DEFINITION. exec: one arm per command, each a direct call of that command's meaning. -/

namespace Sys2Proof.Machine

def exec (i : Instr) (s : State) : Host.Outcome State Fault Refusal :=
  match i with
  | .hello rx head body => Sys2Proof.Machine.execHello rx head body s
  | .hostAuth f random body => Sys2Proof.Machine.execHostAuth f random body s
  | .data f => Sys2Proof.Machine.execData f s
  | .ack f => Sys2Proof.Machine.execAck f s
  | .close f => Sys2Proof.Machine.execClose f s
  | .closed l => Sys2Proof.Machine.execClosed l s
  | .arpRequest rx target => Sys2Proof.Machine.execArpRequest rx target s
  | .neighbourSolicitation rx target => Sys2Proof.Machine.execNeighbourSolicitation rx target s
  | .echoRequest echo => Sys2Proof.Machine.execEchoRequest echo s
  | .ackDelayExpiry l => Sys2Proof.Machine.execAckDelayExpiry l s
  | .retransmissionTimeout l seq => Sys2Proof.Machine.execRetransmissionTimeout l seq s
  | .idleAck l => Sys2Proof.Machine.execIdleAck l s
  | .idleTimeout l => Sys2Proof.Machine.execIdleTimeout l s
  | .teardownComplete mooring => Sys2Proof.Machine.execTeardownComplete mooring s
  | .handshakeTimeout ipSrc udpPort random => Sys2Proof.Machine.execHandshakeTimeout ipSrc udpPort random s
  | .oldEpochRelease l => Sys2Proof.Machine.execOldEpochRelease l s
  | .rekeyRefusalTimeout l => Sys2Proof.Machine.execRekeyRefusalTimeout l s
  | .driveRekey l => Sys2Proof.Machine.execDriveRekey l s
  | .linkDetect p => Sys2Proof.Machine.execLinkDetect p s
  | .autonegotiation p peer => Sys2Proof.Machine.execAutonegotiation p peer s
  | .training p ok => Sys2Proof.Machine.execTraining p ok s
  | .fecLock p ok => Sys2Proof.Machine.execFecLock p ok s
  | .linkLost p lane => Sys2Proof.Machine.execLinkLost p lane s
  | .capsuleFrameGapTimeout berth => Sys2Proof.Machine.execCapsuleFrameGapTimeout berth s
  | .get berth faults => Sys2Proof.Machine.execGet berth faults s
  | .put berth => Sys2Proof.Machine.execPut berth s
  | .delete berth => Sys2Proof.Machine.execDelete berth s
  | .existsKey berth => Sys2Proof.Machine.execExistsKey berth s
  | .cas berth => Sys2Proof.Machine.execCas berth s
  | .batch berth => Sys2Proof.Machine.execBatch berth s
  | .scan berth => Sys2Proof.Machine.execScan berth s
  | .exportValue berth faults => Sys2Proof.Machine.execExportValue berth faults s
  | .tow berth faults => Sys2Proof.Machine.execTow berth faults s
  | .quayCreate berth => Sys2Proof.Machine.execQuayCreate berth s
  | .quaySet berth => Sys2Proof.Machine.execQuaySet berth s
  | .quayDestroy berth => Sys2Proof.Machine.execQuayDestroy berth s
  | .rulePut berth => Sys2Proof.Machine.execRulePut berth s
  | .ruleDel berth => Sys2Proof.Machine.execRuleDel berth s
  | .ruleRead berth => Sys2Proof.Machine.execRuleRead berth s
  | .sealWrites berth => Sys2Proof.Machine.execSealWrites berth s
  | .abort berth => Sys2Proof.Machine.execAbort berth s
  | .berthReset berth => Sys2Proof.Machine.execBerthReset berth s
  | .berthResetEnd berth => Sys2Proof.Machine.execBerthResetEnd berth s
  | .deferredRead berth => Sys2Proof.Machine.execDeferredRead berth s
  | .deferredAck berth => Sys2Proof.Machine.execDeferredAck berth s
  | .mgmtRead berth => Sys2Proof.Machine.execMgmtRead berth s
  | .mgmtWrite berth => Sys2Proof.Machine.execMgmtWrite berth s
  | .capability berth => Sys2Proof.Machine.execCapability berth s
  | .lbRead berth => Sys2Proof.Machine.execLbRead berth s
  | .lbClear berth keyHash sigOk => Sys2Proof.Machine.execLbClear berth keyHash sigOk s
  | .quote berth => Sys2Proof.Machine.execQuote berth s
  | .unlock berth verifierOk unwrapFails => Sys2Proof.Machine.execUnlock berth verifierOk unwrapFails s
  | .otpRequest berth => Sys2Proof.Machine.execOtpRequest berth s
  | .upOpen berth => Sys2Proof.Machine.execUpOpen berth s
  | .upWrite berth => Sys2Proof.Machine.execUpWrite berth s
  | .upCommit berth => Sys2Proof.Machine.execUpCommit berth s
  | .upAbandon berth => Sys2Proof.Machine.execUpAbandon berth s
  | .upArm berth => Sys2Proof.Machine.execUpArm berth s
  | .upDisarm berth => Sys2Proof.Machine.execUpDisarm berth s
  | .upTrigger berth => Sys2Proof.Machine.execUpTrigger berth s
  | .csnChunkReserve => Sys2Proof.Machine.execCsnChunkReserve s
  | .commit mooring page => Sys2Proof.Machine.execCommit mooring page s
  | .abandon mooring page => Sys2Proof.Machine.execAbandon mooring page s
  | .clrErr mooring page => Sys2Proof.Machine.execClrErr mooring page s
  | .pgEvtStatusClear mooring page mask => Sys2Proof.Machine.execPgEvtStatusClear mooring page mask s
  | .lock mooring page => Sys2Proof.Machine.execLock mooring page s
  | .syModeReq mooring value => Sys2Proof.Machine.execSyModeReq mooring value s
  | .shutdown mooring => Sys2Proof.Machine.execShutdown mooring s
  | .shutdownComplete => Sys2Proof.Machine.execShutdownComplete s
  | .pstateLimit mooring limit => Sys2Proof.Machine.execPstateLimit mooring limit s
  | .cfOvlMode mooring value => Sys2Proof.Machine.execCfOvlMode mooring value s
  | .cfDefaultsAccept mooring => Sys2Proof.Machine.execCfDefaultsAccept mooring s
  | .retrain mooring p => Sys2Proof.Machine.execRetrain mooring p s
  | .moKill mooring value => Sys2Proof.Machine.execMoKill mooring value s
  | .moCertGenMin mooring role value => Sys2Proof.Machine.execMoCertGenMin mooring role value s
  | .cmTestStart mooring => Sys2Proof.Machine.execCmTestStart mooring s
  | .fcCalStart mooring channel die => Sys2Proof.Machine.execFcCalStart mooring channel die s
  | .fcDiagStart mooring channel mode => Sys2Proof.Machine.execFcDiagStart mooring channel mode s
  | .enTestStart mooring engine => Sys2Proof.Machine.execEnTestStart mooring engine s
  | .ckptNow mooring => Sys2Proof.Machine.execCkptNow mooring s
  | .ackVolatile mooring => Sys2Proof.Machine.execAckVolatile mooring s
  | .newNonce mooring => Sys2Proof.Machine.execNewNonce mooring s
  | .freeze mooring => Sys2Proof.Machine.execFreeze mooring s
  | .thaw mooring => Sys2Proof.Machine.execThaw mooring s
  | .rebuildStart mooring => Sys2Proof.Machine.execRebuildStart mooring s
  | .rebuildEnd mooring => Sys2Proof.Machine.execRebuildEnd mooring s
  | .hbIdWrite mooring value => Sys2Proof.Machine.execHbIdWrite mooring value s
  | .writeExportKey mooring => Sys2Proof.Machine.execWriteExportKey mooring s
  | .rekeyQuaySlot mooring => Sys2Proof.Machine.execRekeyQuaySlot mooring s
  | .eraseExportSlot mooring => Sys2Proof.Machine.execEraseExportSlot mooring s
  | .registerWrite mooring address value => Sys2Proof.Machine.execRegisterWrite mooring address value s
  | .shadowTimeout page => Sys2Proof.Machine.execShadowTimeout page s
  | .i3cPrivateWrite w => Sys2Proof.Machine.execI3cPrivateWrite w s
  | .lbSbNewest => Sys2Proof.Machine.execLbSbNewest s
  | .lbSbOlder => Sys2Proof.Machine.execLbSbOlder s
  | .i3cTransferTimeout => Sys2Proof.Machine.execI3cTransferTimeout s
  | .enec => Sys2Proof.Machine.execEnec s
  | .disec => Sys2Proof.Machine.execDisec s
  | .rstdaa => Sys2Proof.Machine.execRstdaa s
  | .entdaa address => Sys2Proof.Machine.execEntdaa address s
  | .setnewda address => Sys2Proof.Machine.execSetnewda address s
  | .getmwl => Sys2Proof.Machine.execGetmwl s
  | .getmrl => Sys2Proof.Machine.execGetmrl s
  | .getpid => Sys2Proof.Machine.execGetpid s
  | .getbcr => Sys2Proof.Machine.execGetbcr s
  | .getdcr => Sys2Proof.Machine.execGetdcr s
  | .getstatus => Sys2Proof.Machine.execGetstatus s
  | .quoteReq nonce => Sys2Proof.Machine.execQuoteReq nonce s
  | .sidebandQuoteReady => Sys2Proof.Machine.execSidebandQuoteReady s
  | .inputRise mv => Sys2Proof.Machine.execInputRise mv s
  | .detect => Sys2Proof.Machine.execDetect s
  | .bulkCharge => Sys2Proof.Machine.execBulkCharge s
  | .rails => Sys2Proof.Machine.execRails s
  | .holdUpReady => Sys2Proof.Machine.execHoldUpReady s
  | .holdUpTimeout => Sys2Proof.Machine.execHoldUpTimeout s
  | .powerFail cause => Sys2Proof.Machine.execPowerFail cause s
  | .finish => Sys2Proof.Machine.execFinish s
  | .park inputMv => Sys2Proof.Machine.execPark inputMv s
  | .pwrdis high => Sys2Proof.Machine.execPwrdis high s
  | .strapRead a b c => Sys2Proof.Machine.execStrapRead a b c s
  | .bootRom r => Sys2Proof.Machine.execBootRom r s
  | .stageTwo r => Sys2Proof.Machine.execStageTwo r s
  | .mount => Sys2Proof.Machine.execMount s
  | .fullScan => Sys2Proof.Machine.execFullScan s
  | .landingPageClose page => Sys2Proof.Machine.execLandingPageClose page s
  | .landingConfirmed program => Sys2Proof.Machine.execLandingConfirmed program s
  | .postedDurable => Sys2Proof.Machine.execPostedDurable s
  | .programFailed page => Sys2Proof.Machine.execProgramFailed page s
  | .eraseSuspend die => Sys2Proof.Machine.execEraseSuspend die s
  | .eraseResume die => Sys2Proof.Machine.execEraseResume die s
  | .arrayReadDone die block page step => Sys2Proof.Machine.execArrayReadDone die block page step s
  | .eraseDone block flips => Sys2Proof.Machine.execEraseDone block flips s
  | .calibrationDue channel package die => Sys2Proof.Machine.execCalibrationDue channel package die s
  | .calibrationDone channel die offsets => Sys2Proof.Machine.execCalibrationDone channel die offsets s
  | .diagReadDone channel step erased ok flips bytes => Sys2Proof.Machine.execDiagReadDone channel step erased ok flips bytes s
  | .handshakeWatchdog u again => Sys2Proof.Machine.execHandshakeWatchdog u again s
  | .dramScrub channel word => Sys2Proof.Machine.execDramScrub channel word s
  | .campaignStart => Sys2Proof.Machine.execCampaignStart s
  | .dryDockGrant die => Sys2Proof.Machine.execDryDockGrant die s
  | .heaterCheck die driftPpm => Sys2Proof.Machine.execHeaterCheck die driftPpm s
  | .ramp die overrun => Sys2Proof.Machine.execRamp die overrun s
  | .pulseTrain die => Sys2Proof.Machine.execPulseTrain die s
  | .cool die overrun => Sys2Proof.Machine.execCool die overrun s
  | .release die => Sys2Proof.Machine.execRelease die s
  | .careenAbort die cause => Sys2Proof.Machine.execCareenAbort die cause s
  | .careenRetry die => Sys2Proof.Machine.execCareenRetry die s
  | .blockVerify die r => Sys2Proof.Machine.execBlockVerify die r s
  | .lifeRecompute => Sys2Proof.Machine.execLifeRecompute s
  | .refresh set => Sys2Proof.Machine.execRefresh set s
  | .patrolRead set flips => Sys2Proof.Machine.execPatrolRead set flips s
  | .retentionSurvey cls set flips => Sys2Proof.Machine.execRetentionSurvey cls set flips s
  | .surveyDeadlineEnd => Sys2Proof.Machine.execSurveyDeadlineEnd s
  | .leafFetch bucket => Sys2Proof.Machine.execLeafFetch bucket s
  | .chainWriteback write => Sys2Proof.Machine.execChainWriteback write s
  | .indexScrub bank offset flips => Sys2Proof.Machine.execIndexScrub bank offset flips s
  | .bankTest => Sys2Proof.Machine.execBankTest s
  | .bankTestEnd pass => Sys2Proof.Machine.execBankTestEnd pass s
  | .engineTestEnd engine pass => Sys2Proof.Machine.execEngineTestEnd engine pass s
  | .warehousing => Sys2Proof.Machine.execWarehousing s
  | .dredging => Sys2Proof.Machine.execDredging s
  | .recordCopy csn entry set ok => Sys2Proof.Machine.execRecordCopy csn entry set ok s
  | .setDissolve set => Sys2Proof.Machine.execSetDissolve set s
  | .lostPageSweep set => Sys2Proof.Machine.execLostPageSweep set s
  | .checkpointBegin => Sys2Proof.Machine.execCheckpointBegin s
  | .checkpointDone => Sys2Proof.Machine.execCheckpointDone s
  | .sensorSample cls num raw => Sys2Proof.Machine.execSensorSample cls num raw s
  | .sensorFailed cls num => Sys2Proof.Machine.execSensorFailed cls num s
  | .sensorReadmitted cls num => Sys2Proof.Machine.execSensorReadmitted cls num s
  | .ringMeasurement rings railMv => Sys2Proof.Machine.execRingMeasurement rings railMv s
  | .railLimit => Sys2Proof.Machine.execRailLimit s
  | .tideWindowEnd r => Sys2Proof.Machine.execTideWindowEnd r s
  | .stepDown => Sys2Proof.Machine.execStepDown s
  | .stepUp => Sys2Proof.Machine.execStepUp s
  | .emergencyPersist => Sys2Proof.Machine.execEmergencyPersist s
  | .lowTideReturn => Sys2Proof.Machine.execLowTideReturn s
  | .thermalTrip region => Sys2Proof.Machine.execThermalTrip region s
  | .pstateEntry => Sys2Proof.Machine.execPstateEntry s
  | .maintenanceExcursion => Sys2Proof.Machine.execMaintenanceExcursion s
  | .poweredTime => Sys2Proof.Machine.execPoweredTime s
  | .alarm cause zeroiseNs => Sys2Proof.Machine.execAlarm cause zeroiseNs s
  | .alarmSettle => Sys2Proof.Machine.execAlarmSettle s
  | .entropyHealthFail => Sys2Proof.Machine.execEntropyHealthFail s
  | .autoRekey slot => Sys2Proof.Machine.execAutoRekey slot s
  | .rekeySweepEnd => Sys2Proof.Machine.execRekeySweepEnd s
  | .counterChunkReserve slot => Sys2Proof.Machine.execCounterChunkReserve slot s
  | .cipherSuspend pipe => Sys2Proof.Machine.execCipherSuspend pipe s
  | .cipherResume pipe => Sys2Proof.Machine.execCipherResume pipe s
  | .pipeUncorrectable pipe => Sys2Proof.Machine.execPipeUncorrectable pipe s
  | .parityFault pipe csn => Sys2Proof.Machine.execParityFault pipe csn s
  | .logFlush => Sys2Proof.Machine.execLogFlush s
  | .coalesced => Sys2Proof.Machine.execCoalesced s
  | .wrapped ledger => Sys2Proof.Machine.execWrapped ledger s
  | .logMediaFailed f => Sys2Proof.Machine.execLogMediaFailed f s
  | .freezeTimeout => Sys2Proof.Machine.execFreezeTimeout s
  | .stagingLockTimeout => Sys2Proof.Machine.execStagingLockTimeout s
  | .armingDeadline => Sys2Proof.Machine.execArmingDeadline s
  | .prepare r => Sys2Proof.Machine.execPrepare r s
  | .switchTime => Sys2Proof.Machine.execSwitchTime s
  | .drain otpOk => Sys2Proof.Machine.execDrain otpOk s
  | .drainBudget => Sys2Proof.Machine.execDrainBudget s
  | .restart partFailed => Sys2Proof.Machine.execRestart partFailed s
  | .revert => Sys2Proof.Machine.execRevert s
  | .beaconSend => Sys2Proof.Machine.execBeaconSend s
  | .beacon rx b => Sys2Proof.Machine.execBeacon rx b s
  | .memberAge id => Sys2Proof.Machine.execMemberAge id s
  | .cohortTrigger rx t => Sys2Proof.Machine.execCohortTrigger rx t s
  | .towData towline d => Sys2Proof.Machine.execTowData towline d s
  | .towAck towline status msgSeq destCsn nonces => Sys2Proof.Machine.execTowAck towline status msgSeq destCsn nonces s
  | .towlineIdle towline => Sys2Proof.Machine.execTowlineIdle towline s
  | .i3cPrivateRead words => Sys2Proof.Machine.execI3cPrivateRead words s
  | .welcome towline body sigOk => Sys2Proof.Machine.execWelcome towline body sigOk s
  | .moored towline peerId window => Sys2Proof.Machine.execMoored towline peerId window s
  | .refuse towline status => Sys2Proof.Machine.execRefuse towline status s
  | .refuseSealed towline status => Sys2Proof.Machine.execRefuseSealed towline status s
  | .gone towline cause => Sys2Proof.Machine.execGone towline cause s
  | .towlineClosed towline => Sys2Proof.Machine.execTowlineClosed towline s

end Sys2Proof.Machine
end

