-- ==== Sys2Proof/Safety.lean ====
section
/-! DEFINITION. What a safe run is, in the terms that statements use: the drive never stops, it drives its lines as its state
says, and nothing but a loss of power takes back what the drive has promised to keep; and what it means for a capsule to be
presented to the sequencer and to pass the checks before admission. -/

namespace Sys2Proof.Machine

/-- The output lines are driven as the rest of the state gives them (R61, R458, R470, R471). -/
def LinesDriven (s : State) : Prop := s.lines = linesOf s

/-- The idle timer runs exactly while the drive is idle (R150, R323). -/
def IdleTimed (s : State) : Prop := s.pstate.idleSince.isSome = idle s

/-- The space state is the one that R288 gives for what the drive holds now. -/
def SpaceSettled (s : State) : Prop := s.space.state = spaceNext s

/-- What holds of the drive after every step: its lines, its idle timer and its space state follow from the rest of its state. -/
def Consistent (s : State) : Prop := LinesDriven s ∧ IdleTimed s ∧ SpaceSettled s

/-- An outcome is a next state: the command has its effect and the drive goes on. -/
def Answers (o : Host.Outcome State Fault Refusal) : Prop := ∃ t, o = .next t

/-! ### The sequencer -/

/-- A command of the sequencer has been decided, with the state `u`: capsules of undefined opcodes that come to the head
behind it are refused at once (check 1 of R126), and the pins and timers follow. -/
def decided (u : State) : State := settle (refuseUndefined (queuedRequests u) u)

/-! ### Register writes -/

/-- A single write of `w` at `addr` by mooring `m` (`x`) will be accepted: the mooring stands, a CSN is to be had (R36), no
check of R126 refuses it, and every check of R57 passes. -/
abbrev WriteAccepted (s : State) (m : Nat) (x : Mooring) (addr : Nat) (w : Word) : Prop :=
  mooringOf s m = some x ∧ x.st ≠ .tearingDown ∧ csnReady s 1 = true ∧ writeRefused s x addr w = none ∧
    writeVerdict (takeCsn s).2 0 m x.role addr [w] = none

/-- The state that an accepted write of mooring `m` takes effect in: its CSN is assigned, and its word is in place. -/
def wordPlaced (s : State) (m addr : Nat) (w : Word) : State := storeWord m (takeCsn s).2 addr w

/-- The write of mooring `m` with CSN `csn` has had its effect, which left `u`, and its outcome OK leaves the drive. -/
def writeDone (u : State) (m csn : Nat) : State := writeOut (reviewSpace u) m csn .ok

/-! ### Capsules -/

/-- The capsule `c` of opcode `op` is the one that the sequencer decides next (R35): it stands at the head of berth `n`, which
is berth `b` of mooring `m`, and CSNs can be assigned (R36). -/
abbrev Presented (s : State) (n op : Nat) (b : Berth) (m : Mooring) (c : Capsule) : Prop :=
  dueCapsule s n op = some c ∧ admitReady s op = true ∧ berthOf s n = some b ∧ mooringOf s b.mooring = some m

/-- Every check of R126 passes for it. -/
abbrev Admissible (s : State) (n op : Nat) (b : Berth) (m : Mooring) (c : Capsule) : Prop :=
  Presented s n op b m c ∧ admission s n b m c = none

/-- The same, once service is open: the command will take a CSN. -/
abbrev Admitted (s : State) (n op : Nat) (b : Berth) (m : Mooring) (c : Capsule) : Prop :=
  Admissible s n op b m c ∧ serviceOpen s = true

/-- No command admitted earlier is still to complete, and no TOW runs, so that nothing holds a new command back (R129). -/
abbrev Quiet (s : State) : Prop := s.cmds = [] ∧ s.harbour.tows = []

/-- The state in which a capsule of berth `n` runs once it is admitted with the next CSN (R32, R33): out of its ring, its tag
outstanding. -/
def admittedState (s : State) (n : Nat) (c : Capsule) (committed : Bool) : State :=
  (admitTag (takeRequest s) n c.tag committed).2

/-- The capsule commands of berth `n` with the opcode that each decides. -/
def capsuleCommands (n keyHash : Nat) (ok : Bool) (fails : List Nat) (faults : ReadFaults) : List (Nat × Instr) :=
  [(0x01, .get n faults), (0x02, .put n), (0x03, .delete n), (0x04, .existsKey n), (0x05, .cas n), (0x06, .batch n), (0x07, .scan n),
   (0x08, .exportValue n faults), (0x09, .tow n faults), (0x20, .quayCreate n), (0x21, .quaySet n), (0x22, .quayDestroy n),
   (0x23, .rulePut n), (0x24, .ruleDel n), (0x25, .ruleRead n), (0x40, .sealWrites n), (0x41, .abort n),
   (0x42, .berthReset n), (0x43, .deferredRead n), (0x44, .deferredAck n), (0x50, .mgmtRead n), (0x51, .mgmtWrite n),
   (0x52, .capability n), (0x53, .lbRead n), (0x54, .lbClear n keyHash ok), (0x55, .quote n), (0x56, .unlock n ok fails),
   (0x57, .otpRequest n), (0x58, .upOpen n), (0x59, .upWrite n), (0x5A, .upCommit n), (0x5B, .upAbandon n),
   (0x5C, .upArm n), (0x5D, .upDisarm n), (0x5E, .upTrigger n)]

end Sys2Proof.Machine
end

