-- ==== Sys2Proof/Certificates/Slice0/Obligations.lean ====
section
/-! DEFINITION. The statements for the provers: what the drive's commands do by the numbered rules of spec/, family by family,
and what every step keeps. -/

open Sys2Proof Sys2Proof.Machine

/-- The step takes the command at the front of the queue: it is that command, run with the queue's rest. With no command
waiting a microsecond passes, which is the model's choice (log entries 2, 172; R328, R329): the board's clock runs, session
and powered time run while the controller is out of reset, the pipelines and the programs of word lines go on, and nothing
else changes but, where an index bank is still to be filled in place of a lost one, the index dies. No stored register
changes but the counts of blocks and the events of the space state and of a pair that lost a member. -/
def Obligations.StepTakesTheFront : Prop :=
  (∀ (c : Instr) (s : State), step { s with pending := c :: s.pending } = exec c s) ∧
  (∀ (c : Instr) (cs : List Instr) (s : State), s.pending = c :: cs → step s = exec c { s with pending := cs }) ∧
  (∀ s : State, core.step s = step s) ∧ core.reset = State.reset ∧
  (∀ s : State, s.pending = [] → step s = .next (idleStep s)) ∧
  (∀ s : State, let t := tick s
    t.pending = s.pending ∧ t.boardUs = s.boardUs + 1 ∧
    t.sessionUs = s.sessionUs + (if s.power.running = true then 1 else 0) ∧
    t.poweredUs = s.poweredUs + (if s.power.running = true then 1 else 0) ∧
    t.flash = s.flash ∧ t.log = s.log ∧ t.moorings = s.moorings ∧ t.berths = s.berths ∧ t.cmds = s.cmds ∧
    t.seqr = s.seqr ∧ t.mode = s.mode ∧ t.harbour = s.harbour ∧ t.update = s.update ∧ t.out = s.out ∧
    t.cipher = { s.cipher with pipes := t.cipher.pipes }) ∧
  (∀ s : State, (∀ p ∈ s.index.pairs, p.unfilled = []) → idleStep s = tick s ∧ (tick s).index = s.index ∧
    ∀ k, k ≠ 0x8014 → k ≠ 0x801C → k % 2 ^ 24 ≠ A.CP_PIPE_BLOCKS → regGet (tick s) k = regGet s k) ∧
  (∀ s : State, s.power.running = false → (tick s).dies = s.dies ∧ (tick s).cipher = s.cipher ∧ (tick s).index = s.index)

/-- R32, R61, R105, R147, R205, R361, R376, R409: what the Reset columns and rules of the spec give the drive at reset.
Nothing is admitted, moored or staged, no event is set, and each register named reads its Reset value. -/
def Obligations.ResetValues : Prop :=
  State.reset.pending = [] ∧ State.reset.phase = 0 ∧ State.reset.moorings = [] ∧ State.reset.berths = [] ∧
  State.reset.cmds = [] ∧ State.reset.update.st = .empty ∧ State.reset.cipher.locked = true ∧
  (∀ k, regGet State.reset k = regDefault k) ∧ evtSummary State.reset = 0 ∧
  regGet State.reset A.MO_HS_TMO = 1000 ∧ regGet State.reset A.MO_IDLE_TMO = 10 ∧ regGet State.reset A.MO_RECV_WINDOW = 512 ∧
  regGet State.reset A.BW_CAPSULE_TMO = 100 ∧ regGet State.reset A.SY_PWR_CTRL = 4 ∧ regGet State.reset A.HB_TOW_IDLE = 60 ∧
  bits (regGet State.reset A.DR_SPACE_THR) 9 0 = 970 ∧ bits (regGet State.reset A.DR_SPACE_THR) 25 16 = 990 ∧
  bits (regGet State.reset A.HB_PORTS) 15 0 = 7501 ∧ bits (regGet State.reset A.HB_PORTS) 31 16 = 7502 ∧
  (regWord State.reset false A.CP_STATUS).getLsbD 31 = true

/-- R288, R323, R458, R470, R471: at reset the lines, the idle timer and the space state agree with the rest of the state.
The model's own choices here: log entries 9, 12. -/
def Obligations.ResetIsConsistent : Prop := Consistent State.reset

/-- Every command of the drive completes: whatever the state, its outcome is a next state, never a fault and never a
refusal of the model. -/
def Obligations.EveryCommandAnswers : Prop := ∀ (c : Instr) (s : State), Answers (exec c s)

/-- R288, R323, R458, R470, R471: every step, of whatever command and from whatever state, leaves the output lines driven
as the state says, the idle timer running exactly while the drive is idle, and the space state the one that its occupancy
calls for. The model's own choices here: log entries 12, 172. -/
def Obligations.EveryStepKeepsConsistent : Prop := ∀ s t : State, step s = .next t → Consistent t

/-- R42, R52, R61, R288, R323: the register file, events, and what follows every command. A word stored reads back, every
other register keeps its word, and the stored list keeps its one form: keys rising, no entry equal to what an unlisted
register reads as, so that equal register files are equal data. An event sets its own bit of its page's PG_EVT_STATUS,
enabled or not, leaves the page's other bits, and counts in PG_EVT_COUNT, which holds at its largest value. What follows a
command reviews the space state, the idle timer and the lines, and changes no register but the events of DR. The model's
own choices here: log entries 12, 20, 158, 161. -/
def Obligations.RegistersAndEvents : Prop :=
  (∀ (s : State) (k j : Nat) (w : Word), regGet (regSet s k w) j = if k = j then w else regGet s j) ∧
  (∀ (s : State) (k : Nat) (w : Word), s.regs.Pairwise (fun p q => p.1 < q.1) → (∀ p ∈ s.regs, p.2 ≠ regDefault p.1) →
    (regSet s k w).regs.Pairwise (fun p q => p.1 < q.1) ∧ ∀ p ∈ (regSet s k w).regs, p.2 ≠ regDefault p.1) ∧
  (∀ s t : State, s.regs.Pairwise (fun p q => p.1 < q.1) → t.regs.Pairwise (fun p q => p.1 < q.1) →
    (∀ p ∈ s.regs, p.2 ≠ regDefault p.1) → (∀ p ∈ t.regs, p.2 ≠ regDefault p.1) →
    (∀ k, regGet s k = regGet t k) → s.regs = t.regs) ∧
  (∀ (s : State) (page b : Nat), b < 32 → let t := raise s page b
    (∀ i, i < 32 → (regGet t (page * 0x1000 + 0x14)).getLsbD i =
      ((regGet s (page * 0x1000 + 0x14)).getLsbD i || decide (i = b))) ∧
    regGet t (page * 0x1000 + 0x1C) = BitVec.ofNat 32 (min ((regGet s (page * 0x1000 + 0x1C)).toNat + 1) (2 ^ 32 - 1)) ∧
    (∀ k, k ≠ page * 0x1000 + 0x14 → k ≠ page * 0x1000 + 0x1C → regGet t k = regGet s k) ∧
    t = { s with regs := t.regs }) ∧
  (∀ s : State, ∃ regs since, settle s = { s with
      regs := regs
      space := { s.space with state := spaceNext s }
      pstate := { s.pstate with idleSince := since }
      lines := linesOf (settle s) } ∧
    ∀ k, k ≠ 0x8014 → k ≠ 0x801C → regGet (settle s) k = regGet s k) ∧
  (∀ s : State, nextRequest s = none → decided s = settle s)

/-- R114, R121, R131, R132, R138: completions. With room in the ring a completion takes a ring entry and the next ticket
and frees its tag; with the ring full it waits and its tag stays; once the mooring is torn down an admitted command's final
status is kept for MOORING_LOST and nothing is sent. A completion that waits for a void marker is kept back and not sent
(R301). One of status OK announces the lowest deferred record not yet announced. -/
def Obligations.CompletionsReachTheRing : Prop :=
  (∀ (s : State) (n : Nat) (c : Completion), berthOf s n = none → complete s n c = s) ∧
  (∀ (s : State) (n : Nat) (b : Berth) (c : Completion), berthOf s n = some b → b.tearing = false → b.cq.length < 1024 →
    ∃ y, berthOf (complete s n c) n = some y ∧ y.cq = b.cq ++ [(b.nextTicket, false)] ∧ y.nextTicket = b.nextTicket + 1 ∧
      y.cqTail = (b.cqTail + 1) % 2048 ∧ y.sq = b.sq ∧
      y.tags = (if c.csn = 0 then b.tags else b.tags.filter (fun t => t.csn != c.csn)) ∧
      (∀ k, k ≠ n → berthOf (complete s n c) k = berthOf s k)) ∧
  (∀ (s : State) (n : Nat) (b : Berth) (c : Completion), berthOf s n = some b → b.tearing = false → b.cq.length < 1024 →
    (∃ x ∈ s.cmds, x.csn = (announce b c).2.voidOf ∧ x.voidFor.isSome = true) →
    (complete s n c).out = s.out ∧ ∃ w, (complete s n c).withheld = s.withheld ++ [w] ∧ w.berth = n ∧ w.ticket = b.nextTicket ∧
      w.bytes = completionBytes (announce b c).2) ∧
  (∀ (s : State) (n : Nat) (b : Berth) (c : Completion), berthOf s n = some b → b.tearing = false → 1024 ≤ b.cq.length →
    berthOf (complete s n c) n = some { b with cqWait := b.cqWait ++ [c] } ∧ (complete s n c).out = s.out) ∧
  (∀ (s : State) (n : Nat) (b : Berth) (c : Completion), berthOf s n = some b → b.tearing = true →
    (c.csn = 0 → complete s n c = s) ∧
    (∀ m, c.csn ≠ 0 → mooringOf s b.mooring = some m → (complete s n c).out = s.out ∧
      mooringOf (complete s n c) b.mooring = some { m with finals := m.finals ++ [(n, c.tag, c.status, c.csn)] })) ∧
  (∀ (b : Berth) (c : Completion) (i : Nat), c.status = 0 → nextAnnounce b = some i →
    (announce b c).2 = { c with status := 0x0001, detail := i } ∧
    (announce b c).1 = { b with deferreds := b.deferreds.map (fun d => if d.index = i then { d with announced := true } else d) } ∧
    (∃ d ∈ b.deferreds, d.announced = false ∧ d.index = i) ∧ ∀ d ∈ b.deferreds, d.announced = false → i ≤ d.index) ∧
  (∀ (b : Berth) (c : Completion), c.status ≠ 0 ∨ nextAnnounce b = none → announce b c = (b, c)) ∧
  (∀ b : Berth, nextAnnounce b = none ↔ ∀ d ∈ b.deferreds, d.announced = true) ∧
  (∀ (s : State) (n : Nat) (c : Completion), let t := complete s n c
    t.flash = s.flash ∧ t.cmds = s.cmds ∧ t.cipher = s.cipher ∧ t.log = s.log ∧ t.seqr = s.seqr ∧ t.mode = s.mode ∧
    t.update = s.update ∧ t.index = s.index ∧ t.space = s.space ∧ t.seals = s.seals ∧ t.power = s.power ∧ t.boot = s.boot) ∧
  (∀ s : State, Quiet s → resumeAll s = s)

/-- R341, R342, R346, R362: the key group's COMMIT. OP 1 puts the written words in the slot, as epoch 0 of a free slot or
as the next epoch; OP 2 gives a quay's slot a drawn key as its next epoch and starts its sweep; OP 3 frees the slot with
its record. No other slot changes. A COMMIT that R362 refuses gives the status of the first check that fails. -/
def Obligations.KeyGroupCommit : Prop :=
  (∀ (s : State) (ws : List Word), (keyGroup s).1 = 1 → let k := (keyGroup s).2.1
    (slotOf s k = none → slotOf (keyCommit s ws) k = some
      { kind := 4, st := .live, epoch := 0, owner := (keyGroup s).2.2, ctr := 0, chunk := 0, refs := 0, key := .words ws,
        indexKey := 0, shadows := [] }) ∧
    (∀ x, slotOf s k = some x → slotOf (keyCommit s ws) k = some { x with
      key := .words ws, epoch := (x.epoch + 1) % 65536, ctr := 0, chunk := 0, owner := (keyGroup s).2.2
      shadows := shadowsAfter s k x })) ∧
  (∀ (s : State) (ws : List Word) (x : Slot), (keyGroup s).1 = 2 → slotOf s (keyGroup s).2.1 = some x →
    slotOf (keyCommit s ws) (keyGroup s).2.1 = some { x with
      key := .drawn s.draws, epoch := (x.epoch + 1) % 65536, ctr := 0, chunk := 0
      shadows := shadowsAfter s (keyGroup s).2.1 x } ∧
    (s.cipher.rekey = none → (keyCommit s ws).cipher.rekey = some (x.owner, (keyGroup s).2.1))) ∧
  (∀ (s : State) (ws : List Word), (keyGroup s).1 = 3 → slotOf (keyCommit s ws) (keyGroup s).2.1 = none ∧
    tabGet (keyCommit s ws).flash.keyRecords (keyGroup s).2.1 = none) ∧
  (∀ (s : State) (ws : List Word) (k : Nat), k ≠ (keyGroup s).2.1 → slotOf (keyCommit s ws) k = slotOf s k ∧
    tabGet (keyCommit s ws).flash.keyRecords k = tabGet s.flash.keyRecords k) ∧
  (∀ s : State, 3 < (keyGroup s).1 → keyCommitStatus s = some .range) ∧
  (∀ s : State, ((keyGroup s).1 = 1 ∨ (keyGroup s).1 = 2) → s.cipher.locked = true → keyCommitStatus s = some .keyLost) ∧
  (∀ (s : State) (x : Slot), (keyGroup s).1 = 3 → slotOf s (keyGroup s).2.1 = some x → x.kind ≠ 4 →
    keyCommitStatus s = some .state)

/-- R65, R460, R464, R469: the phases of the input stage from a cold input to hold-up ready. A qualified input with PWRDIS
low begins Detect, one out of range leaves it; Detect ends after 50 ms, bulk charge and rails follow, and at the end of
rails the controller leaves reset in its boot ROM, with session time 0. Nothing else changes. Three strap samples that
agree are accepted: BW_STRAP shows them, and the first accepted reading stays the one that fixes the drive's identity; a
set that does not agree is counted in BW_REJ_COUNT[4], and the sixteenth in a row declares the straps failed and raises
STRAP_FAILED. The model's own choices here: log entries 17, 18, 161, and 3 where an event does not hold. -/
def Obligations.InputStageAndStraps : Prop :=
  (∀ (s : State) (mv : Nat), (s.power.phase = .unpowered ∨ s.power.phase = .detect) → 36000 ≤ mv → mv ≤ 75000 →
    s.power.pwrdis = false →
    exec (.inputRise mv) s = .next (settle { s with power :=
      { s.power with inputMv := mv, phase := .detect, phaseSince := s.boardUs } })) ∧
  (∀ (s : State) (mv : Nat), (s.power.phase = .unpowered ∨ s.power.phase = .detect) → mv < 36000 →
    exec (.inputRise mv) s = .next (settle { s with power :=
      { s.power with inputMv := mv, phase := .unpowered, phaseSince := s.boardUs } })) ∧
  (∀ (s : State), s.power.phase = .detect → s.power.phaseSince + 50000 ≤ s.boardUs → 36000 ≤ s.power.inputMv →
    s.power.inputMv ≤ 75000 → s.power.pwrdis = false →
    exec .detect s = .next (settle { s with power := { s.power with phase := .bulkCharge, phaseSince := s.boardUs } })) ∧
  (∀ (s : State), s.power.phase = .bulkCharge →
    exec .bulkCharge s = .next (settle { s with power := { s.power with phase := .rails, phaseSince := s.boardUs } })) ∧
  (∀ (s : State), s.power.phase = .rails →
    exec .rails s = .next (settle { s with
      power := { s.power with phase := .running, phaseSince := s.boardUs, running := true, failed := false }
      sessionUs := 0
      boot := { s.boot with stage := .rom } })) ∧
  (∀ (s : State), live s = true →
    exec .holdUpReady s = .next (settle { s with power := { s.power with holdUpReady := true, holdUpLate := false } })) ∧
  (∀ (s : State), live s = true → s.power.holdUpReady = false → 2000000 ≤ s.sessionUs →
    exec .holdUpTimeout s = .next (settle { s with power := { s.power with holdUpLate := true } })) ∧
  (∀ (s : State) (a : Nat), live s = true →
    (s.boot.stage = .stageTwo ∨ s.boot.stage = .mounting ∨ s.boot.stage = .mounted) → s.power.strapFailed = false →
    exec (.strapRead a a a) s = .next (settle (let u := fieldSet s A.BW_STRAP 5 0 a
      { u with power := { s.power with strapValid := true, strapMisses := 0,
                                       slotFirst := if s.power.strapValid then s.power.slotFirst else a } }))) ∧
  (∀ (s : State) (a b c : Nat), live s = true →
    (s.boot.stage = .stageTwo ∨ s.boot.stage = .mounting ∨ s.boot.stage = .mounted) → s.power.strapFailed = false →
    ¬(a = b ∧ b = c) → s.power.strapMisses < 15 →
    exec (.strapRead a b c) s = .next (settle (let u := bump s (A.BW_REJ_COUNT + 4 * 4)
      { u with power := { s.power with strapMisses := s.power.strapMisses + 1 } }))) ∧
  (∀ (s : State) (a b c : Nat), live s = true →
    (s.boot.stage = .stageTwo ∨ s.boot.stage = .mounting ∨ s.boot.stage = .mounted) → s.power.strapFailed = false →
    ¬(a = b ∧ b = c) → 15 ≤ s.power.strapMisses →
    exec (.strapRead a b c) s = .next (settle (let u := bump s (A.BW_REJ_COUNT + 4 * 4)
      raise { u with power := { s.power with strapMisses := s.power.strapMisses + 1, strapFailed := true } } 2 2)))

/-- R41, R148, R291, R414, R462, R465, R466: power fail. Its declaration (by a comparator, or by a level of PWRDIS that
counted) starts Stop: admission has stopped, both links are down, moorings, berths and seals are gone, landing pages that
had not closed are dropped, and flash and the logbook's records stand as they were. Finish confirms the pages whose
transfer had completed, and Park follows. A level of PWRDIS counts, in every phase, once it has held for 1 ms, and while it
is low a qualified input lets Detect begin. Park ends in a drive reset: what lies in flash stands, but for records that had
not landed and what was reserved for commands that are gone, and word lines that had been begun are whole; every register
and every volatile part has its reset value; the commands that wait, the board's clock, PWRDIS and what was sent stand; and
Detect begins at once where the input is back. The model's own choices here: log entries 15, 16, and 3 where an event does
not hold. -/
def Obligations.PowerFailAndPark : Prop :=
  (∀ (s : State) (cause : FailCause),
    (s.power.phase = .bulkCharge ∨ s.power.phase = .rails ∨ s.power.phase = .running) →
    (cause = .pwrdis → s.power.pwrdis = true) →
    ∃ t, exec (.powerFail cause) s = .next t ∧
      t.power.phase = .stop ∧ t.power.failed = true ∧ t.power.holdUpReady = false ∧ t.power.phaseSince = s.boardUs ∧
      t.seqr.stopped = true ∧ t.seqr.cycle = [] ∧ t.seqr.next = s.seqr.next ∧ t.linkA.phase = .down ∧ t.linkB.phase = .down ∧
      t.moorings = [] ∧ t.berths = [] ∧ t.seals = [] ∧ t.harbour.towlines = [] ∧
      t.space.pages = s.space.pages.filter (fun p => p.2.closed) ∧ t.flash = s.flash ∧ t.log.staging = s.log.staging ∧
      t.cmds = s.cmds ∧ t.update = s.update ∧ t.out = s.out ∧ t.lines.alert = false ∧ t.lines.lamp = .off) ∧
  (∀ (s : State), s.power.phase = .stop →
    exec .finish s = .next (settle (let u := s.space.pages.foldl (fun s p => confirmPage s p.1 p.2) s
      { u with power := { u.power with phase := .park, phaseSince := u.boardUs } }))) ∧
  (∀ (s : State) (high : Bool), high ≠ s.power.pwrdisRaw → exec (.pwrdis high) s = .next (settle { s with power :=
    { s.power with pwrdisRaw := high, pwrdisSince := s.boardUs } })) ∧
  (∀ (s : State) (high : Bool), high = s.power.pwrdisRaw → high = s.power.pwrdis ∨ s.boardUs < s.power.pwrdisSince + 1000 →
    exec (.pwrdis high) s = .next (settle s)) ∧
  (∀ (s : State), (s.power.phase = .bulkCharge ∨ s.power.phase = .rails ∨ s.power.phase = .running) →
    s.power.pwrdisRaw = true → s.power.pwrdis = false → s.power.pwrdisSince + 1000 ≤ s.boardUs →
    ∃ t, exec (.pwrdis true) s = .next t ∧ t.power.pwrdis = true ∧ t.power.phase = .stop ∧ t.power.failed = true ∧
      t.flash = s.flash ∧ t.moorings = [] ∧ t.berths = []) ∧
  (∀ (s : State), s.power.phase = .detect →
    s.power.pwrdisRaw = true → s.power.pwrdis = false → s.power.pwrdisSince + 1000 ≤ s.boardUs →
    exec (.pwrdis true) s = .next (settle { s with power :=
      { s.power with pwrdis := true, phase := .unpowered, phaseSince := s.boardUs } })) ∧
  (∀ (s : State), s.power.phase = .unpowered → 36000 ≤ s.power.inputMv → s.power.inputMv ≤ 75000 →
    s.power.pwrdisRaw = false → s.power.pwrdis = true → s.power.pwrdisSince + 1000 ≤ s.boardUs →
    exec (.pwrdis false) s = .next (settle { s with power :=
      { s.power with pwrdis := false, phase := .detect, phaseSince := s.boardUs } })) ∧
  (∀ (s : State) (mv : Nat), s.power.phase = .park →
    ∃ t, exec (.park mv) s = .next t ∧
      t.flash = { s.flash with
        items := (s.flash.items.filter (fun i => i.landed)).map (fun i => { i with taken := none })
        quays := s.flash.quays.map (fun p => (p.1, { p.2 with reserved := 0, refused := 0 }))
        config := { s.flash.config with ovlFail := 0 }
        pages := t.flash.pages, sets := t.flash.sets, partialSet := t.flash.partialSet, armedCohort := t.flash.armedCohort } ∧
      ((∀ p ∈ s.flash.sets, p.2.pool = .landing ∨ p.2.packed = []) → t.flash.pages = s.flash.pages ∧ t.flash.sets = s.flash.sets) ∧
      t.flash.partialSet = (if s.update.st = .staging then some (s.update.owner, s.update.staged) else none) ∧
      t.power.inputMv = mv ∧ t.power.pwrdis = s.power.pwrdis ∧ t.power.running = false ∧ t.power.holdUpReady = false ∧
      t.power.phase = (if 36000 ≤ mv ∧ mv ≤ 75000 ∧ s.power.pwrdis = false then .detect else .unpowered) ∧
      t.pending = s.pending ∧ t.boardUs = s.boardUs ∧ t.out = s.out ∧ t.sessionUs = 0 ∧ t.phase = 0 ∧
      t.boot = State.reset.boot ∧ t.mode = State.reset.mode ∧ t.moorings = [] ∧ t.berths = [] ∧ t.cmds = [] ∧ t.seals = [] ∧
      t.shadows = [] ∧ t.seqr = State.reset.seqr ∧ t.index = State.reset.index ∧ t.cipher = State.reset.cipher ∧
      t.log = State.reset.log ∧ t.update = State.reset.update ∧ t.harbour = State.reset.harbour ∧
      t.sideband = State.reset.sideband ∧ t.tide = State.reset.tide ∧
      (∀ k, k ≠ 0x8014 → k ≠ 0x801C → regGet t k = regDefault k))

/-- R245, R387, R388, R389, R391, R407: the boot ROM. With the OTP image formed of the two copies and the entropy source
healthy it hands over to the first copy of stage two that passes the rollback test: MR0 is extended with its digest, the
identity key is derived of the OTP seed and the attestation key of the seed and that digest, and the alarm detectors are
armed. The active bank is the one that the intact marker with the highest GENERATION names; a marker's bytes give back what
it was written with. With no factory fields, or with no copy that passes, boot stops, and the lamp shows which. ROOT slots
whose two copies verify and differ are noted. The factory fields come from the copy whose FACTORY_CRC verifies, and from
none where both verify and differ or neither does; a ROOT slot that the copies disagree on is empty; a rollback position
counts when either copy has it (R244, R245). Programming never sets a bit again and changes no factory field; die 512
follows die 0, and is left out where the readback differs (R246; the model's own choice: log entry 173). The model's own
choices here: log entries 7, 173, 174, 198, 201 to 204, and 3 where an event does not hold. -/
def Obligations.BootRomHandsOver : Prop :=
  (∀ (s : State) (r : RomReport) (o : Otp) (sv : Nat), live s = true → s.boot.stage = .rom → otpImage s = some o → r.entropyOk = true →
    r.primary = some sv → o.secVersion ≤ sv →
    let d := Config.sha384 (imageOf s (newestMarker s).active 1).bytes
    let seed := leBytes (((factoryCopy s).map OtpRow.seed).getD 0) 32
    exec (.bootRom r) s = .next (settle { s with
      flash := { s.flash with otp := o, banks := newestMarker s }
      boot := { s.boot with stage := .stageTwo, mirror := false, stage2Digest := d, rootsOut := (List.range 4).filter (rootSplit s),
                            mr := s.boot.mr.set 0 (Config.sha384 (beBytes (s.boot.mr.getD 0 0) 48 ++ beBytes d 48)),
                            keyStore := {
        dik := p384Key (hkdfExpand (hkdfExtract (ascii "FLITAR-DID") seed) (ascii "device identity") 56)
        ak := p384Key (hkdfExpand (hkdfExpand (hkdfExtract (beBytes d 48) seed) (ascii "flitar cdi") 48) (ascii "attestation key") 56) } }
      cipher := { s.cipher with
        wrapBase := some (hkdfExpand (hkdfExtract (ascii "FLITAR-WRAP") seed) (ascii "wrap base") 32)
        armed := true } })) ∧
  (∀ (s : State) (r : RomReport) (o : Otp) (sv : Nat), live s = true → s.boot.stage = .rom → otpImage s = some o → r.entropyOk = true →
    r.primary = none → r.mirror = some sv → o.secVersion ≤ sv →
    ∃ t, exec (.bootRom r) s = .next t ∧ t.boot.stage = .stageTwo ∧ t.boot.mirror = true ∧
      t.boot.stage2Digest = Config.sha384 (imageOf s (newestMarker s).active 1).bytes ∧
      t.boot.bflags = s.boot.bflags ||| 2 ^ 5 ∧ keysPresent t = true ∧ t.cipher.armed = true ∧
      t.flash = { s.flash with otp := o, banks := newestMarker s }) ∧
  (∀ (s : State) (r : RomReport), live s = true → s.boot.stage = .rom → otpImage s = none →
    exec (.bootRom r) s = .next (settle { s with boot := { s.boot with stage := .stoppedOtp } })) ∧
  (∀ (s : State) (r : RomReport) (o : Otp), live s = true → s.boot.stage = .rom → otpImage s = some o → r.entropyOk = true →
    (∀ sv, r.primary = some sv → sv < o.secVersion) → (∀ sv, r.mirror = some sv → sv < o.secVersion) →
    exec (.bootRom r) s = .next (settle { s with
      flash := { s.flash with otp := o, banks := newestMarker s }
      boot := { s.boot with stage := .stoppedImage, rootsOut := (List.range 4).filter (rootSplit s) } })) ∧
  (∀ s : State, otpImage s = none ↔
    (factoryOk s s.flash.row0 = factoryOk s s.flash.row512 ∧
      (factoryOk s s.flash.row0 = true → factoryBytes s s.flash.row0 ≠ factoryBytes s s.flash.row512))) ∧
  (∀ (s : State) (o : Otp), otpImage s = some o → factoryOk s s.flash.row0 = true → factoryOk s s.flash.row512 = false →
    o.serial = s.flash.row0.serial ∧ o.lot = s.flash.row0.lot ∧ o.macBase = s.flash.row0.macBase) ∧
  (∀ (s : State) (o : Otp), otpImage s = some o → factoryOk s s.flash.row0 = false →
    o.serial = s.flash.row512.serial ∧ o.lot = s.flash.row512.lot ∧ o.macBase = s.flash.row512.macBase) ∧
  (∀ (s : State) (o : Otp) (k : Nat), otpImage s = some o → k < 4 → o.roots[k]? = some (match rootOf s.flash.row0 k, rootOf s.flash.row512 k with
    | some a, some b => if a = b then some a else none
    | some a, none => some a
    | none, x => x)) ∧
  (∀ (s : State) (o : Otp) (n : Nat), otpImage s = some o → n < 128 → s.flash.row0.rollback.testBit n = false → n < o.secVersion) ∧
  (∀ (o : Otp) (r : OtpRow), (burn o r).rollback &&& r.rollback = (burn o r).rollback ∧
    (burn o r).lineage &&& r.lineage = (burn o r).lineage ∧ (burn o r).debug &&& r.debug = (burn o r).debug ∧
    ∀ s : State, factoryBytes s (burn o r) = factoryBytes s r) ∧
  (∀ (s : State) (o : Otp) (ok : Bool), burnRows s o ok = { s with flash := { s.flash with
    row0 := burn o s.flash.row0, row512 := if ok = true then burn o s.flash.row512 else s.flash.row512 } }) ∧
  (∀ (m : PageMeta) (b : Banks) (g page : Nat), b.active < 256 → b.generation < 2 ^ 32 → b.switchBoot < 2 ^ 32 → b.release < 2 ^ 32 →
    b.setDigest < 2 ^ 384 → page < 4096 →
    markerAt (4096 * g + page, Page.of m (markerBytes b)) = some { b with block := g % 1024 - 1022, page := page + 1 })

/-- R366, R390, R392: stage two. With hold-up ready it finds the numbers of the power-on once, and takes its boot number,
one above the highest that the ledger gives (1 for an empty region); bits of the OTP image that one copy lacks it programs
in that copy (R246, step 5). Where no update waits it goes on with its own steps and writes the boot record; without
hold-up ready nothing happens. The model's own choices here: log entries 14, 36, 80, 159, 173, 202, 203, and 3 where an
event does not hold. -/
def Obligations.StageTwoRuns : Prop :=
  (∀ (s : State) (r : BootReport), live s = true → s.boot.stage = .stageTwo → s.boot.bootSeq = 0 → s.power.holdUpReady = true →
    s.log.nextSeq ≠ 0 → s.flash.update = none →
    exec (.stageTwo r) s = .next (settle (let u := { s with boot := { s.boot with bootNumber := findBootNumber s } }
      stageTwoParts u r (prevDigest u r.chainBroken)))) ∧
  (∀ (s : State) (r : BootReport), live s = true → s.boot.stage = .stageTwo → s.boot.bootSeq = 0 → s.power.holdUpReady = true →
    s.log.nextSeq = 0 → s.flash.update = none →
    exec (.stageTwo r) s = .next (settle (let v := firstBoot s
      let u := { v with boot := { v.boot with bootNumber := findBootNumber v } }
      stageTwoParts u r (prevDigest u r.chainBroken)))) ∧
  (∀ (s : State) (r : BootReport), s.power.holdUpReady = false → exec (.stageTwo r) s = .next (settle s)) ∧
  (∀ (s : State),
    (s.flash.ledger.blocks = [] → findBootNumber s = 1) ∧
    (s.flash.ledger.blocks ≠ [] → ledgerBoots s ≠ [] →
      (∀ n ∈ ledgerBoots s, n < findBootNumber s) ∧ findBootNumber s - 1 ∈ ledgerBoots s)) ∧
  (∀ (s : State), s.boot.rootsOut = [] → s.cipher.entropyFailed = false → s.flash.partialSet = none →
    s.flash.armedCohort = none → startMedia s = 0 →
    firstBoot s = { s with
      log := { s.log with nextSeq := highestSeq s + 16384, firstSeq := highestSeq s + 16384 }
      poweredUs := s.poweredUs + 1000000 * s.flash.poweredS
      persistedAt := s.poweredUs + 1000000 * s.flash.poweredS
      sideband := { s.sideband with cursor := s.flash.ledger.recs.getLast?.map LogRec.seq }
      flash := { s.flash with row0 := burn s.flash.otp s.flash.row0, row512 := burn s.flash.otp s.flash.row512
                              deltas := if s.flash.update.isNone then [] else s.flash.deltas } })

/-- R36, R49, R257, R295, R296, R299: mount. From a usable checkpoint MOUNT opens service; with none FULL_SCAN does, and
raises its event. After either, SY_PHASE is 2, the pages of the space units are ready, admission starts at the first CSN of
a chunk never used before, and that chunk is recorded: where no record of chunks is found, it lies above the CSN of every
programmed page and above the checkpoint's. The tables are those of the newest readable checkpoint; a plane whose careen
had begun, and neither ended nor aborted, is held; the blocks of a plane whose careen ended after the checkpoint take
native wear 0 and one careen more; the campaigns that go on are those of draining and held planes (R257). The model's own
choices here: log entries 102 to 104, 159, 183, 196, and 3 where an event does not hold. -/
def Obligations.MountOpensService : Prop :=
  (∀ (s : State) (k : Saved), live s = true → s.boot.stage = .mounting → s.power.holdUpReady = true →
    s.flash.saved = some k → k.usable = true →
    exec .mount s = .next (settle (mountAs s (if k.clean then 0 else 1)))) ∧
  (∀ (s : State), live s = true → s.boot.stage = .mounting → s.power.holdUpReady = true →
    (∀ k, s.flash.saved = some k → k.usable = false) →
    exec .fullScan s = .next (settle (mountAs (raise s 8 3) 2))) ∧
  (∀ (s : State) (kind : Nat), (openService s kind).phase = 2 ∧ (openService s kind).boot.stage = .mounted ∧
    (openService s kind).boot.readySpace = true ∧ (openService s kind).boot.mountKind = kind ∧
    (openService s kind).seqr = s.seqr) ∧
  (∀ (s : State) (k : Nat), s.flash.chunk = some k →
    (openChunks s).seqr.next = (k + 1) * 2 ^ 24 ∧ (openChunks s).flash.chunk = some (k + 1)) ∧
  (∀ (s : State), s.flash.chunk = none → s.flash.pages = [] → s.flash.saved = none →
    (openChunks s).seqr.next = 1 ∧ (openChunks s).flash.chunk = some 0) ∧
  (∀ (s : State), s.flash.chunk = none → (s.flash.pages ≠ [] ∨ s.flash.saved ≠ none) →
    (∀ p ∈ s.flash.pages, pageCsn p.2 < (openChunks s).seqr.next) ∧
    (∀ k, s.flash.saved = some k → k.csn < (openChunks s).seqr.next)) ∧
  (∀ (s : State) (k : Saved), s.flash.saved = some k → buildTables s 1 =
    (let u := loadTables s k.tables
    { u with flash := { u.flash with lowWater := k.lowWater } })) ∧
  (∀ (s : State) (k : Tables) (b : Nat) (x : Block), tabGet s.flash.blocks b = some x →
    (tabGet (loadTables s k).flash.blocks b).map (fun y => (y.wear, y.careens, y.residue, y.reads, y.bad, y.retired, y.s0)) =
      (let z := tabGetD k.blocks b Block.fresh
      some (z.wear, z.careens, z.residue, z.reads, x.bad, x.retired, x.s0))) ∧
  (∀ (s : State) (k : Tables), (loadTables s k).flash.patrolAt = k.patrolAt ∧
    (loadTables s k).careen.patrolCount = k.patrolCount ∧ (loadTables s k).careen.patrolStart = k.patrolStart ∧
    (loadTables s k).flash.items = s.flash.items) ∧
  (∀ (s : State) (p b : Nat) (x : Block), tabGet s.flash.blocks b = some x →
    tabGet (careened s p).flash.blocks b = some (if planeOfBlock b = p ∧ x.bad = false ∧ x.retired = false
      then { x with wear := 0, careens := x.careens + 1 } else x)) ∧
  (∀ (s : State) (p : Nat), (planeOf (careened s p) p).st = (if (planeOf s p).st = 3 then 3 else 0) ∧
    (planeOf (careenHeld s p) p).st = (if (planeOf s p).st = 3 then 3 else 2) ∧ (careenHeld s p).flash.blocks = s.flash.blocks) ∧
  (∀ (s : State) (c : Campaign), c ∈ (resumeCampaigns s).careen.campaigns → ∃ p ∈ s.flash.planes,
    (p.2.st = 1 ∨ p.2.st = 2) ∧ c.stripe = stripeOf (p.1 / 4) ∧ c.plane = p.1 % 4)

/-- R297, R298: what recovery keeps. An item stays exactly when rules 1 to 3 count it and its posted number is at most P,
the end of the unbroken run of posted numbers that follows the durable one of the checkpoint; the posted items above P are
discarded and counted (DR_DISCARDED). The CSN of the posted write numbered P is what DR_DURABLE reads, the new base is the
next multiple of 2^32 above the highest posted number found (where none is above the durable one, above that), and the
mount checkpoint records the number before it. The model's own choices here: log entries 102, 103. -/
def Obligations.RecoveryKeeps : Prop :=
  (∀ (s : State), ∃ p, (replay s).space.durablePseq = p ∧ basePseq s ≤ p ∧
    (∀ q, basePseq s < q → q ≤ p → ∃ i ∈ s.flash.items, countsSoFar s (savedHorizon s) i = true ∧ i.pseq = q) ∧
    (∀ i ∈ s.flash.items, countsSoFar s (savedHorizon s) i = true → i.pseq ≠ p + 1) ∧
    (replay s).flash.items = (s.flash.items.filter (fun i => countsSoFar s (savedHorizon s) i && decide (i.pseq ≤ p))).map
      (fun i => { i with settled := true, durable := true, encrypted := true }) ∧
    (replay s).space.discarded =
      (s.flash.items.filter (fun i => countsSoFar s (savedHorizon s) i && decide (p < i.pseq))).length ∧
    (basePseq s < p → ∃ i ∈ s.flash.items, countsSoFar s (savedHorizon s) i = true ∧ i.pseq = p ∧
      (replay s).space.durableCsn = i.csn)) ∧
  (∀ (s : State) (k : Saved), s.flash.saved = some k → basePseq s = k.durablePseq ∧ savedHorizon s = k.horizon) ∧
  (∀ (s : State), let n := (replay s).space.nextPseq
    let found := fun (i : Item) => i.landed = true ∧ (itemReads s i = true ∨ i.csn < savedHorizon s)
    2 ^ 32 ∣ n ∧ basePseq s < n ∧ (∀ i ∈ s.flash.items, found i → i.pseq < n) ∧
    (n ≤ basePseq s + 2 ^ 32 ∨ ∃ i ∈ s.flash.items, found i ∧ n ≤ i.pseq + 2 ^ 32)) ∧
  (∀ (s : State), ∃ k, (mountCheckpoint s).flash.saved = some k ∧ k.durablePseq = s.space.nextPseq - 1 ∧
    (mountCheckpoint s).space.durablePseq = s.space.nextPseq - 1 ∧ (mountCheckpoint s).space.nextPseq = s.space.nextPseq) ∧
  (∀ (s : State) (h : Nat) (i : Item), countsSoFar s h i = true ↔
    i.landed = true ∧ (itemReads s i = true ∨ i.csn < h) ∧ (i.marked = false ∨ i.commit = true) ∧ i.csn ∉ s.flash.voids)

/-- R33, R55, R57: one register write by a mooring. A write that passes every check takes the next CSN, puts its word in
place, has that register's effect, and its outcome OK leaves the drive with its CSN (for SY_MODE_REQ into AUDIT or QUIESCE,
and for FREEZE, the outcome waits). A write that the checks of admission refuse takes no CSN and changes nothing. A write
that a check of R57 fails takes a CSN, is recorded on its page and counted in BW_REJ_COUNT, and changes nothing else. The
commands of the table that write one register are that write, with the word that the row names: a bit set beside the
register's present word, or a field of it replaced. The model's own choices here: log entries 32, 148. -/
def Obligations.RegisterWrites : Prop :=
  (∀ (s : State) (m : Nat) (x : Mooring) (addr : Nat) (w : Word), WriteAccepted s m x addr w →
    exec (.registerWrite m addr w) s = .next (decided (
      let u := trigger (wordPlaced s m addr w) addr w m s.seqr.next none
      if completionWaits s addr w then reviewSpace u else writeDone u m s.seqr.next))) ∧
  (∀ (s : State) (m : Nat) (x : Mooring) (addr : Nat) (w : Word) (st : Status), mooringOf s m = some x →
    x.st ≠ .tearingDown → (serviceOpen s = true → csnReady s 1 = true) → writeRefused s x addr w = some st →
    exec (.registerWrite m addr w) s = .next (decided (writeOut s m 0 st))) ∧
  (∀ (s : State) (m : Nat) (x : Mooring) (addr a : Nat) (w : Word) (st : Status), mooringOf s m = some x →
    x.st ≠ .tearingDown → csnReady s 1 = true → writeRefused s x addr w = none →
    writeVerdict (takeCsn s).2 0 m x.role addr [w] = some (a, st, false) →
    exec (.registerWrite m addr w) s = .next (decided (
      writeOut (bump (recordReject (takeCsn s).2 0 a st) (A.BW_REJ_COUNT + 20)) m s.seqr.next st))) ∧
  (∀ (s : State) (m p : Nat), exec (.commit m p) s = exec (.registerWrite m (p * 4096 + 0x10) 1) s) ∧
  (∀ (s : State) (m p : Nat), exec (.abandon m p) s = exec (.registerWrite m (p * 4096 + 0x10) 2) s) ∧
  (∀ (s : State) (m p : Nat), exec (.clrErr m p) s = exec (.registerWrite m (p * 4096 + 0x10) 4) s) ∧
  (∀ (s : State) (m p : Nat) (k : Word), exec (.pgEvtStatusClear m p k) s = exec (.registerWrite m (p * 4096 + 0x14) k) s) ∧
  (∀ (s : State) (m p : Nat), exec (.lock m p) s = exec (.registerWrite m (p * 4096 + 0x20) 1) s) ∧
  (∀ (s : State) (m : Nat) (w : Word), exec (.syModeReq m w) s = exec (.registerWrite m A.SY_MODE_REQ w) s) ∧
  (∀ (s : State) (m : Nat), exec (.shutdown m) s =
    exec (.registerWrite m A.SY_PWR_CTRL (regWord s false A.SY_PWR_CTRL ||| 0x100)) s) ∧
  (∀ (s : State) (m k : Nat), exec (.pstateLimit m k) s =
    exec (.registerWrite m A.SY_PWR_CTRL (insertBits (regWord s false A.SY_PWR_CTRL) 2 0 k)) s) ∧
  (∀ (s : State) (m : Nat) (w : Word), exec (.cfOvlMode m w) s = exec (.registerWrite m A.CF_OVL_MODE w) s) ∧
  (∀ (s : State) (m : Nat), exec (.cfDefaultsAccept m) s = exec (.registerWrite m A.CF_DEFAULTS_ACCEPT 1) s) ∧
  (∀ (s : State) (m : Nat) (p : Port), exec (.retrain m p) s =
    exec (.registerWrite m (npAddr p A.NP_LINK_CTRL) (regWord s false (npAddr p A.NP_LINK_CTRL) ||| 0x100)) s) ∧
  (∀ (s : State) (m : Nat) (w : Word), exec (.moKill m w) s = exec (.registerWrite m A.MO_KILL w) s) ∧
  (∀ (s : State) (m r : Nat) (w : Word), 1 ≤ r → r ≤ 4 →
    exec (.moCertGenMin m r w) s = exec (.registerWrite m (A.MO_CERT_GEN_MIN + 4 * (r - 1)) w) s) ∧
  (∀ (s : State) (m : Nat), exec (.cmTestStart m) s =
    exec (.registerWrite m A.CM_TEST (regWord s false A.CM_TEST ||| 0x80000000)) s) ∧
  (∀ (s : State) (m c d : Nat), c < 64 → d < 16 → exec (.fcCalStart m c d) s = exec (.registerWrite m (fcBase c + 0xA4)
    (insertBits (regWord s false (fcBase c + 0xA4) ||| 0x80000000) 27 24 d)) s) ∧
  (∀ (s : State) (m c k : Nat), c < 64 → k < 4 → exec (.fcDiagStart m c k) s = exec (.registerWrite m (fcBase c + 0xBC)
    (insertBits (regWord s false (fcBase c + 0xBC) ||| 0x80000000) 9 8 k)) s) ∧
  (∀ (s : State) (m e : Nat), e < 64 → exec (.enTestStart m e) s = exec (.registerWrite m (0x50064 + 0x1000 * e)
    (regWord s false (0x50064 + 0x1000 * e) ||| 0x80000000)) s) ∧
  (∀ (s : State) (m : Nat), exec (.ckptNow m) s =
    exec (.registerWrite m A.DR_CKPT (regWord s false A.DR_CKPT ||| 0x80000000)) s) ∧
  (∀ (s : State) (m : Nat), exec (.ackVolatile m) s =
    exec (.registerWrite m A.LB_CONTROL (regWord s false A.LB_CONTROL ||| 0x80000000)) s) ∧
  (∀ (s : State) (m : Nat), exec (.newNonce m) s =
    exec (.registerWrite m A.LB_CONTROL (regWord s false A.LB_CONTROL ||| 0x40000000)) s) ∧
  (∀ (s : State) (m : Nat), exec (.freeze m) s =
    exec (.registerWrite m A.LB_CONTROL (regWord s false A.LB_CONTROL ||| 0x20000000)) s) ∧
  (∀ (s : State) (m : Nat), exec (.thaw m) s =
    exec (.registerWrite m A.LB_CONTROL (regWord s false A.LB_CONTROL ||| 0x10000000)) s) ∧
  (∀ (s : State) (m : Nat), exec (.rebuildStart m) s =
    exec (.registerWrite m A.HB_CTRL (regWord s false A.HB_CTRL ||| 0x80000000)) s) ∧
  (∀ (s : State) (m : Nat), exec (.rebuildEnd m) s =
    exec (.registerWrite m A.HB_CTRL (regWord s false A.HB_CTRL ||| 0x40000000)) s) ∧
  (∀ (s : State) (m : Nat) (w : Word), exec (.hbIdWrite m w) s = exec (.registerWrite m A.HB_ID w) s) ∧
  (∀ (s : State) (m : Nat), (keyGroup s).1 = 1 → exec (.writeExportKey m) s = exec (.registerWrite m 0x6010 1) s) ∧
  (∀ (s : State) (m : Nat), (keyGroup s).1 = 2 → exec (.rekeyQuaySlot m) s = exec (.registerWrite m 0x6010 1) s) ∧
  (∀ (s : State) (m : Nat), (keyGroup s).1 = 3 → exec (.eraseExportSlot m) s = exec (.registerWrite m 0x6010 1) s)

/-- R51, R52, R58, R59, R60: accepted writes of the page header. COMMIT makes the page's shadow live, ABANDON releases it,
CLR_ERR clears PG_LAST_ERROR, a write of PG_EVT_STATUS clears the events whose bits it carries, and PG_LOCK locks the page.
A shadow that its owner has not written for 10 s of session time is released. The model's own choices here: log entry 32. -/
def Obligations.PageHeaderWrites : Prop :=
  (∀ (s : State) (m p : Nat) (x : Mooring), isRecordPage p = false → WriteAccepted s m x (p * 4096 + 0x10) 1 →
    exec (.commit m p) s = .next (decided (writeDone (commitPage (wordPlaced s m (p * 4096 + 0x10) 1) p) m s.seqr.next))) ∧
  (∀ (s : State) (m p : Nat) (x : Mooring), isRecordPage p = false → WriteAccepted s m x (p * 4096 + 0x10) 2 →
    exec (.abandon m p) s = .next (decided (writeDone (discardShadow (wordPlaced s m (p * 4096 + 0x10) 2) p) m s.seqr.next))) ∧
  (∀ (s : State) (m p : Nat) (x : Mooring), isRecordPage p = false → WriteAccepted s m x (p * 4096 + 0x10) 4 →
    exec (.clrErr m p) s = .next (decided (writeDone (regSet (wordPlaced s m (p * 4096 + 0x10) 4) (p * 4096 + 0x0C) 0)
      m s.seqr.next))) ∧
  (∀ (s : State) (m p : Nat) (k : Word) (x : Mooring), isRecordPage p = false → WriteAccepted s m x (p * 4096 + 0x14) k →
    exec (.pgEvtStatusClear m p k) s = .next (decided (let u := wordPlaced s m (p * 4096 + 0x14) k
      writeDone (regSet u (p * 4096 + 0x14) (regGet u (p * 4096 + 0x14) &&& ~~~k)) m s.seqr.next))) ∧
  (∀ (s : State) (m p : Nat) (x : Mooring), isRecordPage p = false → pageMapped p = true →
    WriteAccepted s m x (p * 4096 + 0x20) 1 →
    exec (.lock m p) s = .next (decided (writeDone (wordPlaced s m (p * 4096 + 0x20) 1) m s.seqr.next)) ∧
      pageLocked (wordPlaced s m (p * 4096 + 0x20) 1) p = true) ∧
  (∀ (s : State) (p : Nat) (h : Shadow), shadowOf s p = some h → h.lastWrite + 10000000 ≤ s.sessionUs →
    exec (.shadowTimeout p) s = .next (settle (discardShadow s p))) ∧
  (∀ (s : State) (p : Nat) (h : Shadow), shadowOf s p = some h →
    discardShadow s p = logRecord { s with shadows := s.shadows.filter (fun x => x.page != p) } 0x0021
      (src (blockOfPage p) (pageInstance p)) false (leBytes p 2 ++ leBytes h.owner 2)) ∧
  (∀ (s : State) (p : Nat) (h : Shadow), p ≠ 5 → p ≠ 6 → p ≠ 12 → p ≠ 13 → shadowOf s p = some h →
    (h.words.map Prod.fst).Nodup →
    (commitPage s p).shadows = s.shadows.filter (fun x => x.page != p) ∧
    (∀ q ∈ h.words, (q.1 < A.CP_KEY_DATA ∨ A.CP_KEY_DATA + 32 ≤ q.1) → regGet (commitPage s p) q.1 = q.2) ∧
    (∀ k, k ∉ h.words.map Prod.fst → regGet (commitPage s p) k = regGet s k))

/-- R61, R62, R71, R75 to R80, R82, R114, R118, R323: accepted writes of the system page, of the configuration and mooring
pages and of a port's NP_LINK_CTRL, and what each sets off. An orderly shutdown ends, once its seal and clean checkpoint
are done, in phase 0x4 with every mooring and towline torn down with cause 0x06. The model's own choices here: log entries
32, 151, 152, 159. -/
def Obligations.SystemAndMooringWrites : Prop :=
  (∀ (s : State) (m : Nat) (w : Word) (x : Mooring), WriteAccepted s m x A.SY_MODE_REQ w →
    exec (.syModeReq m w) s = .next (decided (
      let u := requestMode (wordPlaced s m A.SY_MODE_REQ w) (bits w 2 0) m s.seqr.next none
      if (bits w 2 0 = 2 ∨ bits w 2 0 = 3) ∧ bits w 2 0 ≠ s.mode.cur then reviewSpace u else writeDone u m s.seqr.next))) ∧
  (∀ (s : State) (m k : Nat) (x : Mooring),
    let w := insertBits (regWord s false A.SY_PWR_CTRL) 2 0 k
    k ≤ 4 → bit w 8 = false → WriteAccepted s m x A.SY_PWR_CTRL w →
    exec (.pstateLimit m k) s = .next (decided (let u := wordPlaced s m A.SY_PWR_CTRL w
      writeDone (if k < u.pstate.cur then setPState u k else u) m s.seqr.next))) ∧
  (∀ (s : State) (m : Nat) (x : Mooring),
    let w := withBit s A.SY_PWR_CTRL 8
    s.pstate.cur = 0 → WriteAccepted s m x A.SY_PWR_CTRL w →
    exec (.shutdown m) s = .next (decided (writeDone (beginShutdown (wordPlaced s m A.SY_PWR_CTRL w) s.seqr.next)
      m s.seqr.next))) ∧
  (∀ (s : State), shutdownSealed s = true → cleanSaved s = true →
    exec .shutdownComplete s = .next (decided (
      let u := s.moorings.foldl (fun v p => teardown v p.1 6) (setPhase s 4)
      u.harbour.towlines.foldl (fun v p => teardownLine v (.towline p.1) 6) u))) ∧
  (∀ (s : State) (m : Nat) (w : Word) (x : Mooring), WriteAccepted s m x A.CF_OVL_MODE w →
    exec (.cfOvlMode m w) s = .next (decided (writeDone (loadEdit (wordPlaced s m A.CF_OVL_MODE w) (bits w 2 0)) m
      s.seqr.next))) ∧
  (∀ (s : State) (m : Nat) (w : Word) (x : Mooring), WriteAccepted s m x A.CF_BOOT_MODE w →
    exec (.registerWrite m A.CF_BOOT_MODE w) s = .next (decided (let u := wordPlaced s m A.CF_BOOT_MODE w
      writeDone { u with flash := { u.flash with config := { u.flash.config with
        bootMode := regGet u A.CF_BOOT_MODE } } } m s.seqr.next))) ∧
  (∀ (s : State) (m : Nat) (x : Mooring), WriteAccepted s m x A.CF_DEFAULTS_ACCEPT 1 →
    exec (.cfDefaultsAccept m) s = .next (decided (let u := wordPlaced s m A.CF_DEFAULTS_ACCEPT 1
      writeDone { u with flash := { u.flash with config := { u.flash.config with defaultsPending := false } } } m
        s.seqr.next))) ∧
  (∀ (s : State) (m : Nat) (p : Port) (x : Mooring),
    WriteAccepted s m x (npAddr p A.NP_LINK_CTRL) (withBit s (npAddr p A.NP_LINK_CTRL) 8) →
    exec (.retrain m p) s = .next (decided (writeDone
      (linkDown (wordPlaced s m (npAddr p A.NP_LINK_CTRL) (withBit s (npAddr p A.NP_LINK_CTRL) 8)) p) m s.seqr.next))) ∧
  (∀ (s : State) (m : Nat) (w : Word) (x : Mooring), WriteAccepted s m x A.MO_KILL w →
    exec (.moKill m w) s = .next (decided (writeDone (teardown (wordPlaced s m A.MO_KILL w) (bits w 11 0) 4) m
      s.seqr.next))) ∧
  (∀ (s : State) (m r : Nat) (w : Word) (x : Mooring), 1 ≤ r → r ≤ 4 →
    WriteAccepted s m x (A.MO_CERT_GEN_MIN + 4 * (r - 1)) w →
    exec (.moCertGenMin m r w) s = .next (decided (writeDone
      (cullMoorings (wordPlaced s m (A.MO_CERT_GEN_MIN + 4 * (r - 1)) w) r w.toNat) m s.seqr.next)))

/-- R220, R243, R248, R292, R332, R361, R373, R374, R377, R380, R431, R445: accepted writes that start a test, a
calibration, a diagnostic read or a checkpoint, that work the logbook's freeze, nonce and volatile ring, that begin or end
a rebuild, set the harbour ID, or commit the key group. (LB_CONTROL holds write-only bits alone and reads as zero.) The
model's own choices here: log entries 32, 34, 35, 205. -/
def Obligations.UnitControlWrites : Prop :=
  (∀ (s : State) (m : Nat) (x : Mooring), WriteAccepted s m x A.CM_TEST (withBit s A.CM_TEST 31) →
    exec (.cmTestStart m) s = .next (decided (writeDone
      (startBankTest (wordPlaced s m A.CM_TEST (withBit s A.CM_TEST 31))) m s.seqr.next))) ∧
  (∀ (s : State) (m c d : Nat) (x : Mooring), c < 64 → d < 16 →
    let w := insertBits (withBit s (fcBase c + 0xA4) 31) 27 24 d
    WriteAccepted s m x (fcBase c + 0xA4) w →
    exec (.fcCalStart m c d) s = .next (decided (writeDone
      (updDie (wordPlaced s m (fcBase c + 0xA4) w) (16 * c + d) (fun y => { y with calDue := true })) m s.seqr.next))) ∧
  (∀ (s : State) (m c k : Nat) (x : Mooring), c < 64 → k < 4 →
    let w := insertBits (withBit s (fcBase c + 0xBC) 31) 9 8 k
    WriteAccepted s m x (fcBase c + 0xBC) w →
    exec (.fcDiagStart m c k) s = .next (decided (let u := wordPlaced s m (fcBase c + 0xBC) w
      writeDone (holdTest { regSet u (fcBase c + 0xC4) 0x80000000 with
        space := { u.space with diag := tabPut u.space.diag c (regGet u (fcBase c + 0xB8), k) } } (64 + c)) m s.seqr.next))) ∧
  (∀ (s : State) (m e : Nat) (x : Mooring), e < 64 →
    let a := 0x50064 + 0x1000 * e
    WriteAccepted s m x a (withBit s a 31) →
    exec (.enTestStart m e) s = .next (decided (writeDone
      (holdTest (updEngine (wordPlaced s m a (withBit s a 31)) e (fun y => { y with testing := true })) e) m s.seqr.next))) ∧
  (∀ (s : State) (k : Nat), (activating s = false → holdTest s k = s) ∧ (activating s = true → heldBack (holdTest s k) k = true ∧
    holdTest s k = { s with update := { s.update with held := k :: s.update.held } })) ∧
  (∀ (s : State) (m : Nat) (x : Mooring), WriteAccepted s m x A.DR_CKPT (withBit s A.DR_CKPT 31) →
    exec (.ckptNow m) s = .next (decided (let u := wordPlaced s m A.DR_CKPT (withBit s A.DR_CKPT 31)
      writeDone { u with space := { u.space with ckptQueued := true } } m s.seqr.next))) ∧
  (∀ (s : State) (m : Nat) (x : Mooring), regWord s false A.LB_CONTROL = 0 → WriteAccepted s m x A.LB_CONTROL 0x80000000 →
    exec (.ackVolatile m) s = .next (decided (let u := wordPlaced s m A.LB_CONTROL 0x80000000
      writeDone (logRecord { u with log := { u.log with unacked := false } } 0x000B (src 4 0) true (leBytes m 2))
        m s.seqr.next))) ∧
  (∀ (s : State) (m : Nat) (x : Mooring), regWord s false A.LB_CONTROL = 0 → WriteAccepted s m x A.LB_CONTROL 0x40000000 →
    exec (.newNonce m) s = .next (decided (let u := wordPlaced s m A.LB_CONTROL 0x40000000
      writeDone { u with
        draws := u.draws + 1
        log := { u.log with
          nonce := some { draw := u.draws, seq := u.log.nextSeq - 1, issuedAt := u.sessionUs }
          nonceDraw := some u.draws
          nonceSeq := u.log.nextSeq - 1 } } m s.seqr.next))) ∧
  (∀ (s : State) (m : Nat) (x : Mooring), regWord s false A.LB_CONTROL = 0 → s.log.media ≠ 3 →
    WriteAccepted s m x A.LB_CONTROL 0x20000000 →
    exec (.freeze m) s = .next (decided (let u := wordPlaced s m A.LB_CONTROL 0x20000000
      reviewSpace (logRecord { u with log := { u.log with
          frozen := some { owner := m, since := u.sessionUs }
          frozenSeq := u.log.nextSeq - 1
          freezeWait := some (m, s.seqr.next, none) } } 0x0009 (src 4 0) false
        (leBytes m 2 ++ leBytes (u.log.nextSeq - 1) 8))))) ∧
  (∀ (s : State) (m : Nat) (x : Mooring), regWord s false A.LB_CONTROL = 0 → WriteAccepted s m x A.LB_CONTROL 0x10000000 →
    exec (.thaw m) s = .next (decided (writeDone (endFreeze (wordPlaced s m A.LB_CONTROL 0x10000000) m 0) m s.seqr.next))) ∧
  (∀ (s : State) (m : Nat) (x : Mooring), let w := withBit s A.HB_CTRL 31
    bit w 30 = false → WriteAccepted s m x A.HB_CTRL w →
    exec (.rebuildStart m) s = .next (decided (let u := enterMode (wordPlaced s m A.HB_CTRL w) 4 8 s.seqr.next
      writeDone { u with mode := { u.mode with operatorRebuild := true } } m s.seqr.next))) ∧
  (∀ (s : State) (m : Nat) (x : Mooring), let w := withBit s A.HB_CTRL 30
    bit w 31 = false → WriteAccepted s m x A.HB_CTRL w →
    exec (.rebuildEnd m) s = .next (decided (let u := wordPlaced s m A.HB_CTRL w
      writeDone (reviewRebuild { u with mode := { u.mode with operatorRebuild := false } }) m s.seqr.next))) ∧
  (∀ (s : State) (m : Nat) (w : Word) (x : Mooring), WriteAccepted s m x A.HB_ID w →
    exec (.hbIdWrite m w) s = .next (decided (let u := wordPlaced s m A.HB_ID w
      writeDone { u with harbour := { u.harbour with idSet := true } } m s.seqr.next))) ∧
  (∀ (s : State) (m : Nat) (x : Mooring), WriteAccepted s m x 0x6010 1 →
    let u := wordPlaced s m 0x6010 1
    let r := .next (decided (writeDone (shadowLive (keyCommit u
      ((List.range 8).map (fun i => mergedWord u 6 (A.CP_KEY_DATA + 4 * i)))) 6) m s.seqr.next))
    ((keyGroup s).1 = 1 → exec (.writeExportKey m) s = r) ∧ ((keyGroup s).1 = 2 → exec (.rekeyQuaySlot m) s = r) ∧
      ((keyGroup s).1 = 3 → exec (.eraseExportSlot m) s = r))

/-- R33, R35, R126: how a capsule is decided. With no capsule of its opcode at the head, a capsule command has no effect. A
capsule that a check of R126 refuses completes with that status and CSN 0: it leaves the next CSN, the commands in
progress, what is stored, the keys and the mode as they were; the index dies and the logbook too, but for what a Tenant's
rule search meets there (R214). One that passes every check leaves its ring and is admitted with the next CSN, its tag
outstanding. The model's own choices here: log entries 58, 59, 153, 166. -/
def Obligations.CapsuleDecision : Prop :=
  (∀ (s : State) (n op k : Nat) (ok : Bool) (ks : List Nat) (f : ReadFaults) (i : Instr),
    (op, i) ∈ capsuleCommands n k ok ks f →
    dueCapsule s n op = none → exec i s = .next (settle s)) ∧
  (∀ (s : State) (n op k : Nat) (ok : Bool) (ks : List Nat) (f : ReadFaults) (i : Instr) (b : Berth) (m : Mooring) (c : Capsule)
    (st : Status),
    (op, i) ∈ capsuleCommands n k ok ks f → Presented s n op b m c → admission s n b m c = some st →
    exec i s = .next (decided (refuseCapsule (takeRequest s) n c st)) ∧
    (refusalHint s c st).csn = 0 ∧ (refusalHint s c st).status = statusCode st ∧
    (let t := refuseCapsule (takeRequest s) n c st
     t.seqr.next = s.seqr.next ∧ t.cmds = s.cmds ∧ t.flash.items = s.flash.items ∧ t.flash.rules = s.flash.rules ∧
     t.cipher = s.cipher ∧ t.mode = s.mode ∧ t.update = s.update ∧ t.space = s.space ∧
     t.index = (takeRequest s).index ∧ t.log = (takeRequest s).log ∧
     (searchesRules c = false → t.index = s.index ∧ t.log = s.log))) ∧
  (∀ (s : State) (n : Nat) (c : Capsule) (k : Bool) (b : Berth), berthOf (takeRequest s) n = some b →
    (admittedState s n c k).seqr.next = s.seqr.next + 1 ∧ (admittedState s n c k).seqr.last = s.seqr.next ∧
    (admittedState s n c k).boot = { s.boot with lastAdmitted := some s.sessionUs } ∧
    berthOf (admittedState s n c k) n =
      some { b with tags := b.tags ++ [⟨c.tag, s.seqr.next, k⟩], lastCsn := s.seqr.next })

/-- R31, R129, R159, R164, R170, R173, R192, R194, R209: reads are admitted with their CSN and start at once where nothing
holds them back. GET, EXISTS, SCAN and EXPORT each become an admitted command with the next CSN, whose in-flight searches
are made, and which is dispatched to an engine; on a drive with no other command in progress, and no posted word of its
keys, such a command runs in the same step. A command that runs pins the leaves it reads: with all of them there, and its
pages readable, it is carried out, and otherwise it goes on waiting. The model's own choices here: log entries 13, 65, 185. -/
def Obligations.ReadsAreAdmitted : Prop :=
  (∀ (s : State) (n : Nat) (b : Berth) (m : Mooring) (c : Capsule) (f : ReadFaults), Admitted s n 0x01 b m c →
    exec (.get n f) s = .next (decided (let u := admittedState s n c true
      let d := digestOf u c.quay c.key
      startCmd (inflightSearches u c.quay [d]) { cmdOf n c s.seqr.next (slotEpoch u (quaySlot u c.quay))
        (.get c.key d c.segOff c.valueLen) 0 0 with badTags := f.tags, parity := f.parity }))) ∧
  (∀ (s : State) (n : Nat) (b : Berth) (m : Mooring) (c : Capsule), Admitted s n 0x04 b m c →
    exec (.existsKey n) s = .next (decided (let u := admittedState s n c true
      let d := digestOf u c.quay c.key
      startCmd (inflightSearches u c.quay [d])
        (cmdOf n c s.seqr.next (slotEpoch u (quaySlot u c.quay)) (.exist c.key d) 0 0)))) ∧
  (∀ (s : State) (n : Nat) (b : Berth) (m : Mooring) (c : Capsule), Admitted s n 0x07 b m c →
    exec (.scan n) s = .next (decided (let u := admittedState s n c true
      startCmd u (cmdOf n c s.seqr.next (slotEpoch u (quaySlot u c.quay)) (.scan (beAt c.value 0 16) (natBits c.param 15 0)
        (natBits c.param 23 16) (c.flags % 2 == 1) c.key) 0 0)))) ∧
  (∀ (s : State) (n : Nat) (b : Berth) (m : Mooring) (c : Capsule) (x : Slot) (f : ReadFaults), Admitted s n 0x08 b m c →
    slotOf s (natBits c.param 15 0) = some x →
    exec (.exportValue n f) s = .next (decided (let u := admittedState s n c true
      let d := digestOf u c.quay c.key
      startCmd (inflightSearches u c.quay [d]) { cmdOf n c s.seqr.next (slotEpoch u (quaySlot u c.quay))
        (.exportSegs c.key d c.segOff (natBits c.param 15 0) (natBits c.param 31 16)
          (slotEpoch u (natBits c.param 15 0)) x.kind) 0 0 with badTags := f.tags, parity := f.parity }))) ∧
  (∀ (u : State) (c : Cmd), u.cmds = [] → c.stage = .waiting → c.voidFor = none → pairLost u c.job = false →
    wordAhead u c = false →
    startCmd u c = (let x := { c with engine := dispatchEngine u }
      let t := runCmd { u with cmds := [x] } x
      towLoop (4097 * t.harbour.tows.length) t)) ∧
  (∀ (u : State) (x : Cmd), let look := lookOnce u x
    let v := pinLeaves look x.csn (leavesNeeded look x)
    (¬ ((∀ b ∈ leavesNeeded look x, leafIn v b = true) ∧ pagesWait v x = false) → runCmd u x = v) ∧
    ((∀ b ∈ leavesNeeded look x, leafIn v b = true) → pagesWait v x = false →
      (∀ key d off len, x.job = .get key d off len → runCmd u x = runGet (dropCmd v x.csn) x key off len) ∧
      (∀ key d, x.job = .exist key d → runCmd u x = runExists (dropCmd v x.csn) x key)))

/-- R157, R159, R160, R164, R166, R270, R284, R335, R348: what GET and EXISTS answer. With the quay's key gone, the status
says so; a key never written, or deleted, is E_NOT_FOUND; a lost key answers the status it was lost with, its version and
its length; a key whose record cannot be read for a lost page is E_MEDIA, and is marked lost; a key with a value of one
segment answers OK with its version, its length and, to GET, its bytes, the segment having come to a pipeline as a message;
where that segment fails its tag, GET answers E_INTEGRITY with no byte of it, and CP_TAG_FAIL counts. The search of the
hot-key banks and the messages store nothing: a collision may count, and a soft error be mended. The model's own choices
here: log entries 13, 65, 185. -/
def Obligations.ReadResults : Prop :=
  (∀ (s : State) (x : Cmd) (key : List Byte) (off len : Nat) (st : Status), keyUnavailable s x.quay = some st →
    runGet s x key off len = complete s x.berth (readFail x st 0) ∧
    runExists s x key = complete s x.berth (readFail x st 0)) ∧
  (∀ (s : State) (x : Cmd) (key : List Byte) (off len : Nat), keyUnavailable s x.quay = none →
    (∀ i, newestItem s.flash.items x.quay key x.csn = some i → i.kind = .deletion) →
    runGet s x key off len = complete s x.berth (readFail x .notFound 0) ∧
    runExists s x key = complete s x.berth (readFail x .notFound 0)) ∧
  (∀ (s : State) (x : Cmd) (key : List Byte) (off len : Nat) (i : Item), keyUnavailable s x.quay = none →
    newestItem s.flash.items x.quay key x.csn = some i → i.kind = .lost →
    runGet s x key off len =
      complete s x.berth { readFail x (lostAs i) i.version with result := fit (beBytes i.lostLen 8) 16 } ∧
    runExists s x key = complete s x.berth { readFail x (lostAs i) i.version with result := fit (beBytes i.lostLen 8) 16 }) ∧
  (∀ (s : State) (x : Cmd) (key : List Byte) (off len : Nat) (i : Item), keyUnavailable s x.quay = none →
    newestItem s.flash.items x.quay key x.csn = some i → i.kind = .value → headLost i = true →
    runGet s x key off len = complete (markLost s i) x.berth (readFail x .media i.version) ∧
    runExists s x key = complete (markLost s i) x.berth (readFail x .media i.version)) ∧
  (∀ (s : State) (x : Cmd) (key : List Byte) (i : Item), keyUnavailable s x.quay = none →
    newestItem s.flash.items x.quay key x.csn = some i → i.kind = .value → headLost i = false →
    runExists s x key = complete (hotRead s i) x.berth
      { Completion.plain x.opcode x.tag .ok x.csn with
        version := i.version
        result := fit (beBytes i.value.length 8) 16 }) ∧
  (∀ (s : State) (x : Cmd) (key : List Byte) (i : Item), keyUnavailable s x.quay = none →
    newestItem s.flash.items x.quay key x.csn = some i → i.kind = .value → headLost i = false → segmentLost i 0 = false →
    epochHeld s (quaySlot s x.quay) i.epoch = true → 0 ∉ x.badSegs → 1 ≤ i.value.length → i.value.length ≤ 65536 →
    (s.flash.otp.lineage = false ∨ ∀ p ∈ x.parity, p.1 ≠ 0) →
    let u := enqueueSegments s 1 x.csn (quaySlot s x.quay) i.epoch i.ctr [i.value.length]
    (0 ∉ x.badTags → runGet s x key 0 0 = complete (hotRead u i) x.berth
      { Completion.plain x.opcode x.tag .ok x.csn with
        version := i.version
        result := fit (beBytes i.value.length 8) 16
        valueLen := i.value.length
        value := i.value }) ∧
    (0 ∈ x.badTags → runGet s x key 0 0 = complete (bump (hotRead u i) A.CP_TAG_FAIL) x.berth
      { readFail x .integrity i.version with result := fit (beBytes i.value.length 8) 16 })) ∧
  (∀ (s : State) (q : Nat) (key : List Byte) (d : Nat), ∃ r ix lg f, hotLook s q key d =
    { s with regs := r, index := ix, log := lg, flash := { s.flash with faults := f } }) ∧
  (∀ (s : State) (prio csn slot epoch ctr : Nat) (ns : List Nat), ∃ p, enqueueSegments s prio csn slot epoch ctr ns =
    { s with cipher := { s.cipher with pipes := p } })

/-- R128, R129, R130, R133, R156, R158, R165, R166, R335, R345: PUT, DELETE, CAS and BATCH once admitted. With the quay's
at-rest key gone they complete at once with its status; with the slot's invocations used up, with E_KEY_WORN, counted in
CP_KEY_REFUSED. Otherwise their invocations are reserved, from the slot's next one on, their segments come to the pipelines
as messages (R335), their in-flight searches are made and their in-flight entries and chains registered; a committed-mode
write takes its reservation and starts, while a posted one takes the next POSTED_SEQ, settles its records, completes with
its versions (its CSN, 0 for a DELETE), and its records move on towards landing. The model's own choices here: log entries
105 to 107, 168. -/
def Obligations.MutationsAreAdmitted : Prop :=
  (∀ (s : State) (n op : Nat) (i : Instr) (b : Berth) (m : Mooring) (c : Capsule),
    (op, i) ∈ [(0x02, Instr.put n), (0x03, .delete n), (0x05, .cas n), (0x06, .batch n)] → Admitted s n op b m c →
    let u := admittedState s n c (isPosted s c)
    let slot := quaySlot s c.quay
    let count := listSum ((opsOf u c).map opSegments)
    (∀ st, keyUnavailable s c.quay = some st →
      exec i s = .next (decided (complete u n (Completion.plain c.opcode c.tag st s.seqr.next)))) ∧
    (keyUnavailable s c.quay = none → reserveCounter u slot count = none →
      exec i s = .next (decided (complete (bumpHalf u A.CP_KEY_REFUSED 0) n
        (Completion.plain c.opcode c.tag .keyWorn s.seqr.next)))) ∧
    (∀ t, keyUnavailable s c.quay = none → reserveCounter u slot count = some t →
      let first := nextInvocation s slot
      exec i s = .next (decided (enterWrite
        (enqueueSegments t 2 s.seqr.next slot (slotEpoch t slot) first ((opsOf u c).flatMap opPieces))
        { cmdOf n c s.seqr.next (slotEpoch t slot) (.write []) (granulesOf c) (putsOf c).length with ctr := first }
        (opsOf u c) (isPosted s c))))) ∧
  (∀ (s : State) (x : Cmd) (ops : List KeyOp),
    let ds := (ops.filter opWrites).map KeyOp.digest
    let u := inflightSearches { s with tide := { s.tide with paced := s.tide.paced + x.granules } } x.quay (ops.map KeyOp.digest)
    let v := fun (posted : Bool) => chainRegister (inflightAdd u x.quay x.csn posted ds) x.csn ds
    enterWrite s x ops false = startCmd (reserve (v false) x.quay x.granules x.keyCount) { x with job := .write ops } ∧
    enterWrite s x ops true = postWrite (v true) x ops) ∧
  (∀ (s : State) (x : Cmd) (o : KeyOp),
    let version := if o.change = .delete then 0 else x.csn
    let i := itemOf x 1 s.space.nextPseq 0 s.space.nextRecord x.ctr version false o
    postWrite s x [o] = drainPosted (complete (hotSettle (recount { s with
        flash := { s.flash with items := s.flash.items ++ [i] }
        space := { s.space with nextPseq := s.space.nextPseq + 1, nextRecord := s.space.nextRecord + 1 } } x.quay) i)
      x.berth (writeOk x.opcode x.tag x.csn [version])))

/-- R128, R155 to R157, R162, R163, R168, R169, R273: how a committed-mode write runs. An entry whose expected version is
not its key's fails the whole write with E_CONDITION, the key's version, and no effect. Otherwise a put gives its key one
version more, its records are placed on landing pages and it waits for them; a BATCH of checks alone waits for its commit
marker. The model's own choices here: log entries 105 to 107. -/
def Obligations.WritesRun : Prop :=
  (∀ (s : State) (x : Cmd) (ops : List KeyOp) (st : Status), keyUnavailable s x.quay = some st →
    runWrite s x ops = failPlain s x st) ∧
  (∀ (s : State) (x : Cmd) (ops : List KeyOp) (f : Nat × Nat), keyUnavailable s x.quay = none →
    failingEntry s x.quay x.csn 0 ops = some f → runWrite s x ops = failWrite s x (conditionFailed x f) .condition) ∧
  (∀ (s t : State) (x : Cmd) (ops : List KeyOp), keyUnavailable s x.quay = none →
    failingEntry s x.quay x.csn 0 ops = none → x.badSegs = [] → postedAhead s x.quay x.csn ops = false →
    ops.any opWrites = true →
    placeOps x (lostKeysOf s x.csn) 0 (ops.zip ((ops.map (entryVersion s x.quay x.csn)).zip (opCtrs x.ctr ops))) s = some t →
    runWrite s x ops = updCmd t x.csn (fun y => { y with
      stage := .placed
      versions := ops.map (entryVersion s x.quay x.csn) })) ∧
  (∀ (s : State) (x : Cmd) (ops : List KeyOp), keyUnavailable s x.quay = none →
    failingEntry s x.quay x.csn 0 ops = none → x.badSegs = [] → postedAhead s x.quay x.csn ops = false →
    ops.any opWrites = false →
    runWrite s x ops = updCmd (queueMarker s .commitMarker x.csn 0 false) x.csn (fun y => { y with
      stage := .marking
      versions := ops.map (entryVersion s x.quay x.csn) })) ∧
  (∀ (s : State) (q k e : Nat) (o : KeyOp), o.expected = some e →
    (failingEntry s q k 0 [o] = none ↔ versionAt s q o.key k = e)) ∧
  (∀ (s : State) (q k : Nat) (o : KeyOp) (v : List Byte), o.change = .put v →
    entryVersion s q k o = versionAt s q o.key k + 1) ∧
  (∀ (s : State) (q k : Nat) (key : List Byte),
    ((∀ i, newestItem s.flash.items q key k = some i → i.kind = .deletion) → versionAt s q key k = 0) ∧
    (∀ i, newestItem s.flash.items q key k = some i → i.kind ≠ .deletion → versionAt s q key k = i.version)) ∧
  (∀ (x : Cmd) (f : Nat × Nat), (conditionFailed x f).status = statusCode .condition ∧ (conditionFailed x f).csn = x.csn ∧
    (x.opcode ≠ 0x06 → (conditionFailed x f).version = f.2))

/-- R174, R437, R439, R441: a TOW once admitted. To a drive with an open towline its first window is admitted on that
towline; where a handshake runs it waits for it; where a towline can be opened, one is; where none can, the TOW ends with
E_RETRY at the bucket it was to start from, and the failure is logged. The model's own choices here: log entries 138 to
141. -/
def Obligations.TowIsAdmitted : Prop :=
  (∀ (s : State) (n : Nat) (b : Berth) (m : Mooring) (c : Capsule) (bad : ReadFaults), Admitted s n 0x09 b m c →
    exec (.tow n bad) s = .next (decided (enterTow (admittedState s n c true) (towOf n c s.seqr.next bad)))) ∧
  (∀ (a : State) (x : Tow),
    let u := { a with harbour := { a.harbour with tows := a.harbour.tows ++ [x] } }
    (∀ t y, towlineTo u x.dest = some (t, y) → y.st = .open →
      enterTow a x = resumeAll (startTow (updTow (updTowline u t (fun z => { z with lastUse := u.sessionUs })) x.csn
        (fun z => { z with towline := some t })) x.csn)) ∧
    (∀ t y, towlineTo u x.dest = some (t, y) → y.st ≠ .open →
      enterTow a x = updTow (updTowline u t (fun z => { z with lastUse := u.sessionUs })) x.csn
        (fun z => { z with towline := some t })) ∧
    (∀ v t, towlineTo u x.dest = none → openTowline u x.dest = .ok (v, t) →
      enterTow a x = updTow v x.csn (fun z => { z with towline := some t })) ∧
    (∀ st, towlineTo u x.dest = none → openTowline u x.dest = .error st →
      enterTow a x = endTow (towFailed u (statusCode st) x.dest) x .retry x.windowStart))

/-- R139, R177 to R179, R339, R342: the quay commands. QUAY_CREATE with a legal block that fits the guarantees creates the
quay it names (with ANY, the lowest FREE one): two draws give its at-rest key, in the lowest free slot, and its index key,
the key record is saved, and RESULT names the quay. QUAY_SET replaces the settings of an open quay. QUAY_DESTROY makes an
open quay ERASING, erases its slot, its key record and its index key (R185), drops its rules, and frees what waited for it.
Each block that breaks its rules is answered E_RANGE and each quay in the wrong state E_STATE, with no effect. The model's
own choices here: log entries 63, 64, 182. -/
def Obligations.QuayCommands : Prop :=
  (∀ (s : State) (n : Nat) (b : Berth) (m : Mooring) (c : Capsule), Admitted s n 0x20 b m c →
    let u := admittedState s n c true
    let who := if c.flags % 2 = 1 then none else some c.quay
    ((blockLegal c.value = false ∨ guaranteesFit s who c.value = false) →
      exec (.quayCreate n) s = .next (decided (complete u n (statusOnly c s.seqr.next .range)))) ∧
    (∀ q slot, blockLegal c.value = true → guaranteesFit s who c.value = true → createTarget s c = .ok q →
      s.cipher.locked = false → s.cipher.entropyFailed = false → lowestSlot s = some slot →
      exec (.quayCreate n) s = .next (decided (complete (createQuay u q slot s.seqr.next c.value) n
        { statusOnly c s.seqr.next .ok with result := fit (beBytes q 2) 16 })))) ∧
  (∀ (s : State) (q slot csn : Nat) (v : List Byte),
    let t := createQuay s q slot csn v
    tabGet t.flash.quays q = some
      { erasing := false, posted := beAt v 0 1 == 1, maxValue := beAt v 4 4, guarGib := beAt v 8 4, limitGib := beAt v 12 4,
        used := 0, keys := 0, slot := slot, reserved := 0, createCsn := csn, refused := 0, lost := 0,
        indexKey := s.draws + 1 } ∧
    (∀ r, r ≠ q → tabGet t.flash.quays r = tabGet s.flash.quays r) ∧ t.draws = s.draws + 2 ∧
    t.flash.items = s.flash.items ∧ t.flash.rules = s.flash.rules ∧ t.index = s.index ∧ t.space = s.space) ∧
  (∀ (s : State) (n : Nat) (b : Berth) (m : Mooring) (c : Capsule), Admitted s n 0x21 b m c →
    let u := admittedState s n c true
    ((blockLegal c.value = false ∨ guaranteesFit s (some c.quay) c.value = false) →
      exec (.quaySet n) s = .next (decided (complete u n (statusOnly c s.seqr.next .range)))) ∧
    (blockLegal c.value = true → guaranteesFit s (some c.quay) c.value = true → quayOpen s c.quay = false →
      exec (.quaySet n) s = .next (decided (complete u n (statusOnly c s.seqr.next .state)))) ∧
    (blockLegal c.value = true → guaranteesFit s (some c.quay) c.value = true → quayOpen s c.quay = true →
      exec (.quaySet n) s = .next (decided (complete { u with flash := { u.flash with
        quays := tabUpd u.flash.quays c.quay (fun y => { y with
          posted := beAt c.value 0 1 == 1
          maxValue := beAt c.value 4 4
          guarGib := beAt c.value 8 4
          limitGib := beAt c.value 12 4 }) } } n (statusOnly c s.seqr.next .ok))))) ∧
  (∀ (s : State) (n : Nat) (b : Berth) (m : Mooring) (c : Capsule), Admitted s n 0x22 b m c →
    let u := admittedState s n c true
    (quayOpen s c.quay = false →
      exec (.quayDestroy n) s = .next (decided (complete u n (statusOnly c s.seqr.next .state)))) ∧
    (quayOpen s c.quay = true →
      exec (.quayDestroy n) s = .next (decided (resumeAll (complete (destroyQuay u c.quay (quaySlot s c.quay)) n
        (statusOnly c s.seqr.next .ok)))))) ∧
  (∀ (s : State) (q slot : Nat) (y : Quay), plainPosted s q = [] → tabGet s.flash.quays q = some y →
    let t := destroyQuay s q slot
    (∀ z, tabGet t.flash.quays q = some z → z.erasing = true ∧ z.used = 0 ∧ z.keys = 0 ∧ z.indexKey = 0) ∧
    t.flash.rules = s.flash.rules.filter (fun r => r.quay != q) ∧ t.flash.items = s.flash.items ∧
    tabGet t.flash.keyRecords slot = none ∧ slotOf t slot = none ∧
    (∀ k, k ≠ slot → slotOf t k = slotOf s k))

/-- R180 to R183, R211, R213: the rule commands. RULE_PUT of a legal body, on an open quay with a prefix length to spare,
takes the next RULE_ID, keeps the rule, places its entry at the append offset of its quay's rule pair and its body on an
engine, and answers the ID; RULE_DEL removes a rule with its entry, and answers E_NOT_FOUND for an ID that none has;
RULE_READ answers the bodies from an ID on, in order, and changes nothing. The model's own choices here: log entries 72,
169, 182. -/
def Obligations.RuleCommands : Prop :=
  (∀ (s : State) (n : Nat) (b : Berth) (m : Mooring) (c : Capsule), Admitted s n 0x23 b m c →
    let u := admittedState s n c true
    let lens := prefixLens s c.quay
    let id := s.flash.topRule + 1
    (ruleLegal c.value = false →
      exec (.rulePut n) s = .next (decided (complete u n (statusOnly c s.seqr.next .range)))) ∧
    (ruleLegal c.value = true → 4 ≤ lens.length → beAt c.value 18 1 ∉ lens →
      exec (.rulePut n) s = .next (decided (complete u n (statusOnly c s.seqr.next .range)))) ∧
    (ruleLegal c.value = true → (lens.length < 4 ∨ beAt c.value 18 1 ∈ lens) → quayOpen s c.quay = true →
      s.flash.rules.length < 65536 → id ≤ 0xFFFFFFFF →
      exec (.rulePut n) s = .next (decided (complete
        (placeRule { u with flash := { u.flash with
          rules := u.flash.rules ++ [ruleOf id c.value]
          topRule := id } } (ruleOf id c.value)) n
        { statusOnly c s.seqr.next .ok with result := fit (beBytes id 4) 16 })))) ∧
  (∀ (s : State) (r : Rule), tabGetD s.index.appendAt (r.quay % 2) 0 < 131072 →
    let o := tabGetD s.index.appendAt (r.quay % 2) 0
    placeRule s r = dropCells { s with index := { s.index with
      ruleEntries := s.index.ruleEntries ++ [{ offset := o, rule := r.id, engine := bodyEngine s }]
      appendAt := tabPut s.index.appendAt (r.quay % 2) (o + 1) } } (r.quay % 2) [o]) ∧
  (∀ (s : State) (ids : List Nat), ∃ ix, removeRules s ids = { s with index := ix } ∧
    ix.ruleEntries = s.index.ruleEntries.filter (fun e => !ids.contains e.rule) ∧ ix.appendAt = s.index.appendAt) ∧
  (∀ (s : State) (n : Nat) (b : Berth) (m : Mooring) (c : Capsule), Admitted s n 0x24 b m c →
    let u := admittedState s n c true
    ((∃ r ∈ s.flash.rules, r.id = c.param) →
      exec (.ruleDel n) s = .next (decided (let v := removeRules u [c.param]
        complete { v with flash := { v.flash with rules := v.flash.rules.filter (fun r => r.id != c.param) } } n
          (statusOnly c s.seqr.next .ok)))) ∧
    ((∀ r ∈ s.flash.rules, r.id ≠ c.param) →
      exec (.ruleDel n) s = .next (decided (complete u n (statusOnly c s.seqr.next .notFound))))) ∧
  (∀ (s : State) (n : Nat) (b : Berth) (m : Mooring) (c : Capsule), Admitted s n 0x25 b m c →
    let found := (sortBy Rule.id (s.flash.rules.filter (fun r => decide (c.param % 2 ^ 32 ≤ r.id)))).take
      (natBits c.param 39 32)
    exec (.ruleRead n) s = .next (decided (complete (admittedState s n c true) n
      { statusOnly c s.seqr.next .ok with
        valueLen := 64 * found.length
        verified := found.length
        value := found.flatMap ruleBytes })))

/-- R134, R137 to R140, R142, R144 to R147, R301: the berth commands once admitted. SEAL begins a seal of its scope at its
CSN. ABORT of an admitted write whose pages have not begun their transfer takes the write back, which completes with
E_ABORTED_HOST; of anything else it answers E_ABORT_TOO_LATE. BERTH_RESET discards what the target's ring holds, each
discarded capsule taking a CSN, and completes once the commands admitted before it have. DEFERRED_READ answers the listed
errors of its window in order of index, with the mask of the indices present; DEFERRED_ACK frees the indices it names, and
with its flag clears OVERFLOW; where it names a free index, or OVERFLOW is clear, it answers E_STATE and changes nothing.
The model's own choices here: log entries 56, 69. -/
def Obligations.BerthCommands : Prop :=
  (∀ (s : State) (n : Nat) (b : Berth) (m : Mooring) (c : Capsule), Admitted s n 0x40 b m c →
    exec (.sealWrites n) s = .next (decided (beginSeal (admittedState s n c true)
      { csn := s.seqr.next, scope := c.flags % 4, quay := c.quay, berth := n, purpose := .capsule n c.tag }))) ∧
  (∀ (s : State) (n : Nat) (b : Berth) (m : Mooring) (c : Capsule), Admitted s n 0x41 b m c →
    let u := admittedState s n c true
    ((∀ t ∈ b.tags, t.tag ≠ c.param) →
      exec (.abort n) s = .next (decided (complete u n (abortAnswer c.tag s.seqr.next 0 .abortTooLate)))) ∧
    (∀ t, b.tags.find? (fun t => t.tag == c.param) = some t → t.committed = true →
      exec (.abort n) s = .next (decided (complete u n (abortAnswer c.tag s.seqr.next t.csn .abortTooLate)))) ∧
    (∀ t x, b.tags.find? (fun t => t.tag == c.param) = some t → t.committed = false →
      s.cmds.find? (fun x => x.csn == t.csn) = some x →
      exec (.abort n) s = .next (decided (resumeAll (abortWrite u n c.tag s.seqr.next x))))) ∧
  (∀ (s : State) (n tag csn : Nat) (x : Cmd),
    let u := releaseWrite (dropPieces s x.csn) x false
    x.transferred = false → transferred u x.csn = false →
    abortWrite s n tag csn x = complete (complete (dropCmd { u with flash := { u.flash with
        items := u.flash.items.filter (fun i => i.csn != x.csn) } } x.csn) x.berth
      (Completion.plain x.opcode x.tag .abortedHost x.csn)) n (abortAnswer tag csn x.csn .ok)) ∧
  (∀ (s : State) (n : Nat) (b : Berth) (m : Mooring) (c : Capsule), Admitted s n 0x42 b m c →
    exec (.berthReset n) s = .next (decided (resetBerth (admittedState s n c true) (m.berths.getD (c.param % 16) 16384) n
      c.tag s.seqr.next))) ∧
  (∀ (s : State) (n source tag csn : Nat) (b : Berth), berthOf s n = some b →
    resetBerth s n source tag csn = (undecided b).foldl (discardCapsule n)
      (updBerth (withdraw s (fun q => q.berth == n && !q.reset)) n (fun y => { clearRing y with
        reset := some { csn := csn, berth := source, tag := tag, discarded := (undecided b).length,
                        running := (b.tags.filter (fun t => t.csn != csn)).length } }))) ∧
  (∀ (s : State) (n : Nat) (b : Berth) (r : Resetting), berthOf s n = some b → b.reset = some r →
    ((∃ t ∈ b.tags, t.csn < r.csn) → exec (.berthResetEnd n) s = .next (settle s)) ∧
    ((∀ t ∈ b.tags, r.csn ≤ t.csn) →
      exec (.berthResetEnd n) s = .next (settle (complete (updBerth s n (fun b => { b with reset := none })) r.berth
        { Completion.plain 0x42 r.tag .ok r.csn with
          result := fit (beBytes r.discarded 2 ++ beBytes r.running 2) 16 })))) ∧
  (∀ (s : State) (n : Nat) (b : Berth) (m : Mooring) (c : Capsule), Admitted s n 0x43 b m c →
    let lo := natBits c.param 5 0
    let found := sortBy Deferred.index (b.deferreds.filter (fun d =>
      decide (lo ≤ d.index) && decide (d.index < lo + natBits c.param 15 8)))
    exec (.deferredRead n) s = .next (decided (complete (admittedState s n c true) n
      { statusOnly c s.seqr.next .ok with
        valueLen := 32 * found.length
        value := found.flatMap deferredBytes
        result := fit (beBytes (deferredMask b) 8 ++ beBytes b.lostCount 2 ++ beBytes (flag b.overflow) 1) 16 }))) ∧
  (∀ (s : State) (n : Nat) (b : Berth) (m : Mooring) (c : Capsule), Admitted s n 0x44 b m c →
    let u := admittedState s n c true
    let named := c.param &&& (2 ^ 64 - 1 - deferredMask b)
    ((named ≠ 0 ∨ (c.flags % 2 = 1 ∧ b.overflow = false)) →
      exec (.deferredAck n) s = .next (decided (complete u n (statusOnly c s.seqr.next .state)))) ∧
    (named = 0 → (c.flags % 2 = 1 → b.overflow = true) →
      exec (.deferredAck n) s = .next (decided (complete (updBerth u n (ackDeferreds c)) n
        (statusOnly c s.seqr.next .ok)))))

/-- R36, R43, R55, R57, R111, R112, R271, R386: the management capsules. MGMT_READ of mapped words within a page answers
them in network order, setting the latches that they set, and is otherwise rejected with E_RANGE or E_BAD_LENGTH and
recorded; MGMT_WRITE is checked whole and applied whole, and its completion waits where the write seals or freezes;
CAPABILITY answers 64 bytes and changes nothing. Before service is open MGMT_READ and CAPABILITY are served with CSN 0.
Half a chunk before the CSNs recorded run out, the next chunk is recorded, and with it the chunk of RECORD_IDs. The model's
own choices here: log entries 13, 60. -/
def Obligations.ManagementCommands : Prop :=
  (∀ (s : State) (n : Nat) (b : Berth) (m : Mooring) (c : Capsule), Admitted s n 0x50 b m c →
    let u := admittedState s n c true
    let k := c.param % 256
    (∀ st, readStatus c.segOff k = some st →
      exec (.mgmtRead n) s = .next (decided (complete (recordReject u 0 c.segOff st) n (statusOnly c s.seqr.next st)))) ∧
    (readStatus c.segOff k = none →
      exec (.mgmtRead n) s = .next (decided (complete (readRegs false k u c.segOff).1 n
        { statusOnly c s.seqr.next .ok with
          valueLen := 4 * k
          value := (readRegs false k u c.segOff).2.flatMap (fun w => beBytes w.toNat 4) })))) ∧
  (∀ (s : State) (n : Nat) (b : Berth) (m : Mooring) (c : Capsule), Admissible s n 0x50 b m c → serviceOpen s = false →
    readStatus c.segOff (c.param % 256) = none →
    exec (.mgmtRead n) s = .next (decided (let r := readRegs false (c.param % 256) (takeRequest s) c.segOff
      complete r.1 n { statusOnly c 0 .ok with
        valueLen := 4 * (c.param % 256)
        value := r.2.flatMap (fun w => beBytes w.toNat 4) }))) ∧
  (∀ (addr count : Nat), readStatus addr count = none ↔
    pageMapped (addr / 4096) = true ∧ addr % 4 = 0 ∧ 1 ≤ count ∧ count ≤ 64 ∧ addr % 4096 + 4 * count ≤ 4096) ∧
  (∀ (s : State) (n : Nat) (b : Berth) (m : Mooring) (c : Capsule), Admitted s n 0x51 b m c →
    let r := writeRegs (admittedState s n c true) 0 b.mooring m.role c.segOff s.seqr.next (some (n, c.tag)) (capsuleWords c)
    exec (.mgmtWrite n) s = .next (decided (if r.2.2 then r.1 else complete r.1 n (statusOnly c s.seqr.next r.2.1)))) ∧
  (∀ (s : State) (path m role addr csn : Nat) (tag : Option (Nat × Nat)) (ws : List Word),
    (writeVerdict s path m role addr ws = none → writeRegs s path m role addr csn tag ws =
      (reviewSpace (applyWords m csn tag s addr ws), .ok, anyWaits s addr ws)) ∧
    (∀ a st, writeVerdict s path m role addr ws = some (a, st, false) → writeRegs s path m role addr csn tag ws =
      (bump (recordReject s path a st) (A.BW_REJ_COUNT + 20), st, false))) ∧
  (∀ (s : State) (n : Nat) (b : Berth) (m : Mooring) (c : Capsule), Admitted s n 0x52 b m c →
    let u := admittedState s n c true
    exec (.capability n) s = .next (decided (complete u n { statusOnly c s.seqr.next .ok with
      valueLen := 64
      value := capability u m.tp.maxPayload m.berths.length m.tp.recvWindow }))) ∧
  (∀ (s : State) (k : Nat), s.flash.chunk = some k →
    exec .csnChunkReserve s = .next (settle (if k * 2 ^ 24 + 2 ^ 23 ≤ s.seqr.next
      then { s with flash := { s.flash with chunk := some (k + 1), recChunk := some (s.space.nextRecord / 2 ^ 24 + 1) } }
      else s)))

/-- R372, R377, R378, R398, R399, R402, R403: reading and clearing the log, the quote, the unlock and requests for the OTP.
LB_READ answers whole records of one stream from a sequence on, with the next sequence and the first available, and changes
nothing. LB_CLEAR uses up the nonce; with one issued less than 60 s before, a key of an enabled root and a good signature,
it clears what the nonce covers and completes when its record is durable. QUOTE answers the signed quote with the
measurements. UNLOCK with the right verifier makes every slot live whose record unwraps; with the wrong one it is counted
and its back-off begins. OTP_REQUEST keeps a legal request for the next boot. The model's own choices here: log entries 87,
90, 95, 198. -/
def Obligations.LogAndIdentityCommands : Prop :=
  (∀ (s : State) (n : Nat) (b : Berth) (m : Mooring) (c : Capsule), Admitted s n 0x53 b m c →
    exec (.lbRead n) s = .next (decided (let u := admittedState s n c true
      complete u n (logAnswer u c s.seqr.next)))) ∧
  (∀ (s : State) (n k : Nat) (ok : Bool) (b : Berth) (m : Mooring) (c : Capsule), Admitted s n 0x54 b m c →
    let a := admittedState s n c true
    let u := { a with log := { a.log with nonce := none } }
    ((∀ x, s.log.nonce = some x → x.issuedAt + 60000000 ≤ s.sessionUs) →
      exec (.lbClear n k ok) s = .next (decided (complete u n (statusOnly c s.seqr.next .state)))) ∧
    (∀ x, s.log.nonce = some x → s.sessionUs < x.issuedAt + 60000000 →
      ((∀ r ∈ enabledRoots s, r.2 ≠ k) ∨ ok = false) →
      exec (.lbClear n k ok) s = .next (decided (complete u n (statusOnly c s.seqr.next .auth)))) ∧
    (∀ x slot h, s.log.nonce = some x → s.sessionUs < x.issuedAt + 60000000 → s.log.media ≠ 3 →
      (enabledRoots s).find? (fun r => r.2 == k) = some (slot, h) → ok = true →
      exec (.lbClear n k ok) s = .next (decided (let r := clearLog u slot k
        if r.1.log.media = 3 then clearDone r.1 (n, c.tag, s.seqr.next, r.2.1, r.2.2)
        else { r.1 with log := { r.1.log with clearWait := r.1.log.clearWait ++ [(n, c.tag, s.seqr.next, r.2.1, r.2.2)] } })))) ∧
  (∀ (s : State) (n : Nat) (b : Berth) (m : Mooring) (c : Capsule), Admitted s n 0x55 b m c →
    let u := admittedState s n c true
    (keysPresent s = true → exec (.quote n) s = .next (decided (complete u n { statusOnly c s.seqr.next .ok with
      valueLen := 592
      value := quoteOf u c.value ++ mrBytes u }))) ∧
    (keysPresent s = false →
      exec (.quote n) s = .next (decided (complete u n (statusOnly c s.seqr.next .keyLost))))) ∧
  (∀ (s : State) (n : Nat) (ok : Bool) (ks : List Nat) (b : Berth) (m : Mooring) (c : Capsule), Admitted s n 0x56 b m c →
    let u := admittedState s n c true
    ((s.cipher.meshTripped = true ∨ s.cipher.locked = false) →
      exec (.unlock n ok ks) s = .next (decided (complete u n (statusOnly c s.seqr.next .state)))) ∧
    (s.cipher.meshTripped = false → s.cipher.locked = true → s.flash.verifier.isSome = true → ok = false →
      exec (.unlock n ok ks) s = .next (decided (complete { u with boot := { u.boot with
        unlockFails := u.boot.unlockFails + 1
        unlockFailAt := u.sessionUs
        unlockTotal := sat (u.boot.unlockTotal + 1) 16 } } n (statusOnly c s.seqr.next .auth)))) ∧
    (s.cipher.meshTripped = false → s.cipher.locked = true → (s.flash.verifier.isSome = true → ok = true) →
      s.cipher.alarm ≠ .settle →
      exec (.unlock n ok ks) s = .next (decided (let r := unlockSlots u b.mooring c.value ks
        complete r.1 n { statusOnly c s.seqr.next .ok with result := fit (beBytes r.2.1 4 ++ beBytes r.2.2 2) 16 })))) ∧
  (∀ (s : State) (m : Nat) (v : List Byte) (ks : List Nat),
    let t := (unlockSlots s m v ks).1
    let kek := hkdfExpand (hkdfExtract (s.cipher.wrapBase.getD []) v) (ascii "flitar kek") 32
    t.cipher.locked = false ∧ t.cipher.kek = some kek ∧ t.flash.verifier = s.flash.verifier.orElse (fun _ => some (verifierBytes kek)) ∧
    t.boot.unlockFails = 0 ∧
    t.flash.keyRecords = s.flash.keyRecords ∧ t.flash.items = s.flash.items ∧ t.flash.quays = s.flash.quays) ∧
  (∀ (s : State) (n : Nat) (b : Berth) (m : Mooring) (c : Capsule), Admitted s n 0x57 b m c →
    let u := admittedState s n c true
    (∀ st, otpStatus s c = some st →
      exec (.otpRequest n) s = .next (decided (complete u n (statusOnly c s.seqr.next st)))) ∧
    (otpStatus s c = none →
      exec (.otpRequest n) s = .next (decided (complete { u with flash := { u.flash with
        otpRoots := if c.param % 4 = 1 then
            u.flash.otpRoots.filter (fun r => r.1 != beAt c.value 0 1) ++ [(beAt c.value 0 1, beAt c.value 4 48)]
          else u.flash.otpRoots
        otpDebug := if c.param % 4 = 1 then u.flash.otpDebug else u.flash.otpDebug ||| beAt c.value 0 1 } } n
        (statusOnly c s.seqr.next .ok)))))

/-- R411 to R413, R417 to R419: the update capsules once admitted. UP_OPEN with a sound manifest claims the staging lock (a
committed set that it replaces is discarded first); UP_WRITE at the bytes already staged adds its bytes to the deltas kept;
UP_COMMIT of a whole set makes it STAGED and logs it; UP_ABANDON discards the set; UP_ARM arms a staged set that is not
cold, with its cohort, switch time and deadline; UP_DISARM lifts the arming; UP_TRIGGER fires the armed activation that it
names before its deadline. What a check refuses is answered with that check's status, and nothing changes. The model's own
choices here: log entries 73 to 79. -/
def Obligations.UpdateCommands : Prop :=
  (∀ (s : State) (n : Nat) (b : Berth) (m : Mooring) (c : Capsule), Admitted s n 0x58 b m c →
    let u := admittedState s n c true
    (∀ st, upOpenStatus s b.mooring c = some st →
      exec (.upOpen n) s = .next (decided (complete u n (statusOnly c s.seqr.next st)))) ∧
    (upOpenStatus s b.mooring c = none →
      exec (.upOpen n) s = .next (decided (complete (openStaging u b.mooring c.value) n (statusOnly c s.seqr.next .ok))))) ∧
  (∀ (s : State) (m : Nat) (v : List Byte),
    let t := openStaging s m v
    t.update.st = .staging ∧ t.update.owner = m ∧ t.update.manifest = some (manifestOf v) ∧ t.update.staged = 0 ∧
    t.update.lastAccepted = s.sessionUs ∧ t.flash.deltas = [] ∧ t.flash.banks = s.flash.banks ∧
    t.flash.items = s.flash.items) ∧
  (∀ (s : State) (n : Nat) (b : Berth) (m : Mooring) (c : Capsule), Admitted s n 0x59 b m c →
    let u := admittedState s n c true
    (∀ st, upWriteStatus s b.mooring c = some st →
      exec (.upWrite n) s = .next (decided (complete u n (statusOnly c s.seqr.next st)))) ∧
    (upWriteStatus s b.mooring c = none →
      exec (.upWrite n) s = .next (decided (complete { u with
          update := { u.update with
            staged := u.update.staged + c.valueLen
            lastAccepted := u.sessionUs }
          flash := { u.flash with deltas := u.flash.deltas ++ c.value } } n
        { statusOnly c s.seqr.next .ok with result := fit (beBytes (u.update.staged + c.valueLen) 4) 16 })))) ∧
  (∀ (s : State) (n : Nat) (b : Berth) (m : Mooring) (c : Capsule), Admitted s n 0x5A b m c →
    let u := admittedState s n c true
    (∀ st, upCommitStatus s b.mooring = some st →
      exec (.upCommit n) s = .next (decided (complete u n (statusOnly c s.seqr.next st)))) ∧
    (∀ x, upCommitStatus s b.mooring = none → s.update.manifest = some x →
      exec (.upCommit n) s = .next (decided (complete (commitStaging u x b.mooring) n
        { statusOnly c s.seqr.next .ok with result := (beBytes x.digest 48).take 16 })))) ∧
  (∀ (s : State) (x : Manifest) (m : Nat),
    let t := commitStaging s x m
    t.update = { s.update with st := .staged, owner := 0 } ∧ t.flash = { s.flash with update := some x }) ∧
  (∀ (s : State) (n : Nat) (b : Berth) (m : Mooring) (c : Capsule), Admitted s n 0x5B b m c →
    let u := admittedState s n c true
    (∀ st, upAbandonStatus s b.mooring = some st →
      exec (.upAbandon n) s = .next (decided (complete u n (statusOnly c s.seqr.next st)))) ∧
    (upAbandonStatus s b.mooring = none →
      exec (.upAbandon n) s = .next (decided (complete
        (if s.update.st = .staging then abandonStaging u 1 else discardCommitted u b.mooring 1) n
        (statusOnly c s.seqr.next .ok))))) ∧
  (∀ (s : State) (n : Nat) (b : Berth) (m : Mooring) (c : Capsule), Admitted s n 0x5C b m c →
    let u := admittedState s n c true
    (∀ st, upArmStatus s = some st →
      exec (.upArm n) s = .next (decided (complete u n (statusOnly c s.seqr.next st)))) ∧
    (upArmStatus s = none →
      exec (.upArm n) s = .next (decided (complete (armUpdate u b.mooring (c.param % 2 ^ 32) (natBits c.param 47 32) c.segOff) n
        (statusOnly c s.seqr.next .ok))))) ∧
  (∀ (s : State) (m cohort ms sec : Nat),
    (armUpdate s m cohort ms sec).update = { s.update with
      st := .armed
      cohort := cohort
      switchMs := ms
      deadline := s.sessionUs + 1000000 * sec }) ∧
  (∀ (s : State) (n : Nat) (b : Berth) (m : Mooring) (c : Capsule), Admitted s n 0x5D b m c →
    let u := admittedState s n c true
    (s.update.st = .armed →
      exec (.upDisarm n) s = .next (decided (complete (disarm u 2) n (statusOnly c s.seqr.next .ok)))) ∧
    (s.update.st ≠ .armed →
      exec (.upDisarm n) s = .next (decided (complete u n (statusOnly c s.seqr.next .state))))) ∧
  (∀ (s : State) (n : Nat) (b : Berth) (m : Mooring) (c : Capsule), Admitted s n 0x5E b m c →
    exec (.upTrigger n) s = .next (decided (let r := fireCohort (admittedState s n c true) (c.param % 2 ^ 32)
      complete r.1 n (statusOnly c s.seqr.next (if r.2 then .ok else .state))))) ∧
  (∀ (s : State) (k : Nat),
    (s.update.st = .armed → s.update.cohort = k → s.sessionUs < s.update.deadline → s.pstate.cur < 2 →
      fireCohort s k = ({ s with update := { s.update with
        st := .preparing
        switchAt := s.sessionUs + 1000 * s.update.switchMs } }, true)) ∧
    (s.update.st ≠ .armed → activating s = true → s.update.cohort = k → fireCohort s k = (s, true)) ∧
    (s.update.st ≠ .armed → activating s = false →
      fireCohort s k = ({ s with update := { s.update with trigIgnored := sat (s.update.trigIgnored + 1) 32 } }, false)))

/-- R413, R415, R416, R418 to R421, R424, R425, R428: an update by time and by stage. The staging lock lapses 10 minutes
after the last capsule accepted, and an arming at its deadline. Preparation that passes every check of R415 before the
switch time leaves the set prepared; one that fails, or is not done by the switch time, ends the activation. At the switch
time the barrier is raised and a drive-scope seal begins; when it and every admitted command have ended within the budget
the set is committed, its marker naming the new bank, and a raised rollback floor is programmed in die 0 and then in die
512 (R246); past the budget the barrier is lowered and the set kept. A restart whose listed units run ends the activation;
a part that fails to start is noted, and the revert names the old bank again. The check that programs the new set erases
the inactive bank and puts the images there, and leaves the active one's; a marker goes to the next page of the marker
block, or, when that is full, to page 0 of the other, in all four copies (R407). A restart that lists the channel
sequencers waits for the dies. The model's own choices here: log entries 73 to 80, 160, 173, 202 to 205, and 3 where an
event does not hold. -/
def Obligations.UpdateStages : Prop :=
  (∀ (s : State), s.update.st = .staging → s.update.lastAccepted + 600000000 ≤ s.sessionUs →
    exec .stagingLockTimeout s = .next (settle (abandonStaging s 2))) ∧
  (∀ (s : State), s.update.st = .armed → s.update.deadline ≤ s.sessionUs →
    exec .armingDeadline s = .next (settle (disarm s 1))) ∧
  (∀ (s : State), s.update.st = .armed → ∀ k, (disarm s k).update = { s.update with
    st := .staged
    cohort := 0
    switchMs := 0
    deadline := 0 }) ∧
  (∀ (s : State) (r : ApplyReport) (x : Manifest), s.update.st = .preparing → s.update.manifest = some x →
    s.sessionUs < s.update.switchAt →
    (applyStatus s x r true = none →
      exec (.prepare r) s = .next (settle (let u := overwriteBank s x r true
        { u with update := { u.update with st := .prepared } }))) ∧
    (∀ st part, applyStatus s x r true = some (st, part) →
      exec (.prepare r) s = .next (settle (failUpdate (overwriteBank s x r true) x (statusCode st) 2 part false)))) ∧
  (∀ (s : State) (x : Manifest) (r : ApplyReport) (p : Bool), let t := overwriteBank s x r p
    t.flash.banks = s.flash.banks ∧ t.flash.markers = s.flash.markers ∧ t.flash.items = s.flash.items ∧ t.flash.otp = s.flash.otp ∧
    t.flash.pages = s.flash.pages ∧ t.update = s.update ∧ t.boot = s.boot ∧
    (∀ k, k / 8 ≠ 1 - s.flash.banks.active → tabGet t.flash.images k = tabGet s.flash.images k) ∧
    (applyStatus s x { r with programOk := true } p = none → ∀ k, 1 ≤ k → k ≤ 5 →
      imageOf t (1 - s.flash.banks.active) k = newImage s x k)) ∧
  (∀ (s : State) (x : Manifest), s.update.manifest = some x → s.update.switchAt ≤ s.sessionUs →
    (s.update.st = .preparing →
      exec .switchTime s = .next (settle (failUpdate s x (statusCode .retry) 2 0 true))) ∧
    (s.update.st = .prepared →
      exec .switchTime s = .next (settle (beginSeal { s with
          update := { s.update with st := .switching, phase := .draining, sealed := false, barrierAt := s.sessionUs }
          seqr := { s.seqr with barrier := true } }
        { csn := s.seqr.next, scope := 2, quay := 0, berth := 16384, purpose := .activation })))) ∧
  (∀ (s : State) (x : Manifest) (ok : Bool), s.update.phase = .draining → s.update.manifest = some x → s.update.sealed = true →
    allComplete s = true → s.sessionUs ≤ s.update.barrierAt + 1000 * fieldOf s A.UP_BUDGET 9 0 →
    ∃ t, exec (.drain ok) s = .next t ∧ t.update.phase = .committed ∧ t.flash.banks = {
        active := 1 - s.flash.banks.active
        generation := s.flash.banks.generation + 1
        switchBoot := 0
        release := x.release
        setDigest := x.digest
        block := if 1365 ≤ s.flash.banks.page then 1 - s.flash.banks.block else s.flash.banks.block
        page := if 1365 ≤ s.flash.banks.page then 1 else s.flash.banks.page + 1 } ∧
      (∀ g ∈ markerBlocks t.flash.banks.block, ∃ m v, tabGet t.flash.markers (4096 * g + t.flash.banks.page - 1) = some v ∧
        v = Page.of m (markerBytes t.flash.banks)) ∧ t.flash.images = s.flash.images ∧
      t.flash.otp.secVersion = (if x.raiseFloor = true ∧ s.flash.otp.secVersion < x.secVersion then x.secVersion
        else s.flash.otp.secVersion) ∧
      (x.raiseFloor = true → s.flash.otp.secVersion < x.secVersion → t.flash.row0 = burn t.flash.otp s.flash.row0 ∧
        t.flash.row512 = if ok then burn t.flash.otp s.flash.row512 else s.flash.row512) ∧
      t.flash.items = s.flash.items ∧ t.seqr = s.seqr ∧ t.log = s.log ∧ t.berths = s.berths) ∧
  (∀ (s : State) (x : Manifest), s.update.phase = .draining → s.update.manifest = some x →
    s.update.barrierAt + 1000 * fieldOf s A.UP_BUDGET 9 0 ≤ s.sessionUs →
    exec .drainBudget s = .next (settle (failUpdate { s with
        seqr := { s.seqr with barrier := false }
        seals := s.seals.filter (fun q => q.purpose != .activation)
        update := { s.update with pauseUs := s.sessionUs - s.update.barrierAt } } x (statusCode .retry) 3 0 true))) ∧
  (∀ (s : State) (x : Manifest) (status phase part : Nat) (keep : Bool),
    let t := failUpdate s x status phase part keep
    t.update.st = (if keep then .staged else .empty) ∧ t.update.phase = .none ∧ t.update.cohort = 0 ∧
    t.update.failures = sat (s.update.failures + 1) 16 ∧ t.update.last = lastWord status phase part ∧
    t.flash.update = (if keep then s.flash.update else none) ∧ t.flash.banks = s.flash.banks ∧ t.seqr = s.seqr) ∧
  (∀ (s : State) (x : Manifest), s.update.phase = .committed → s.update.manifest = some x →
    (((∃ e ∈ x.parts, e.partId = 3) ∧ ∃ d ∈ s.dies, d.2.op ≠ 0) → ∀ p, exec (.restart p) s = .next (settle s)) ∧
    (¬ ((∃ e ∈ x.parts, e.partId = 3) ∧ ∃ d ∈ s.dies, d.2.op ≠ 0) →
      exec (.restart none) s = .next (settle (finishActivation s x)) ∧
      (∀ p, (∃ e ∈ x.parts, e.partId = p) → exec (.restart (some p)) s =
        .next (settle { s with update := { s.update with phase := .reverting, failedPart := p } })))) ∧
  (∀ (s : State) (x : Manifest), s.update.phase = .reverting → s.update.manifest = some x →
    ∃ t, exec .revert s = .next t ∧ t.update.st = .empty ∧ t.update.phase = .none ∧ t.seqr.barrier = false ∧
      t.flash.banks = {
        active := 1 - s.flash.banks.active
        generation := s.flash.banks.generation + 1
        switchBoot := 0
        release := s.update.prevRelease
        setDigest := s.update.prevDigest
        block := if 1365 ≤ s.flash.banks.page then 1 - s.flash.banks.block else s.flash.banks.block
        page := if 1365 ≤ s.flash.banks.page then 1 else s.flash.banks.page + 1 } ∧ t.flash.update = none ∧ t.flash.items = s.flash.items)

/-- R31, R225, R227 to R229, R231, R233, R240, R241, R272, R276, R277, R464: the landing of pages. A page that is full, 12
µs old, or followed by another closes once no lower page of its block is open and its die takes its program next: it is
transferred to its die, which begins the program, and its channel counts it. A confirmed page frees its die, stands on
flash with its metadata, and its pieces land one by one; a failed one, or one that fails the verify of the first program
after a careen, retires its block, counts a fault of its die, and has its pieces placed again. What waited for a die or a
page goes on. No program begins before hold-up ready. The metadata of a page read back as they were programmed; the parity
page of a row holds the XOR of its data pages, and every data page of a row is rebuilt from the others. The model's own
choices here: log entries 105 to 107, 132, 170, 176, 191, 192, and 3 where an event does not hold. -/
def Obligations.LandingCommands : Prop :=
  (∀ (s : State) (k : Nat) (p : LandingPage), tabGet s.space.pages k = some p → p.closed = false → live s = true →
    s.power.holdUpReady = true → pageCloses s k p = true → lowerOpen s p = false → dieTakes s p.die = true →
    dieNext s p.die = some 1 →
    ∃ t, exec (.landingPageClose k) s = .next t ∧
      tabGet t.space.pages k = some { p with closed := true } ∧ dieOf t p.die = { dieOf s p.die with
        op := 2, suspends := 0, plane := pageBlock s p / 1024 % 4, block := pageBlock s p % 1024, runSince := s.sessionUs } ∧
      (∀ j, j ≠ k → tabGet t.space.pages j = tabGet s.space.pages j) ∧
      (∀ d, d ≠ p.die → dieOf t d = dieOf s d) ∧
      regGet t (0x10088 + 0x1000 * chanOf p.die) = word (sat ((regGet s (0x10088 + 0x1000 * chanOf p.die)).toNat + 1) 32) ∧
      t.tide = (charge s (programWork s p.die)).tide ∧
      t.flash = s.flash ∧ t.berths = s.berths ∧ t.log = s.log ∧ t.seqr = s.seqr) ∧
  (∀ (s : State) (k : Nat), s.power.holdUpReady = false → exec (.landingPageClose k) s = .next (settle s)) ∧
  (∀ (s : State) (k : Nat) (p : LandingPage) (f : List Nat), tabGet s.space.pages k = some p → p.closed = true →
    live s = true → ((blockOf s (pageBlock s p)).firstCycle = false ∨ ∀ n ∈ f, n ≤ 32) →
    exec (.landingConfirmed ⟨k, f⟩) s = .next (settle (afterLanding (confirmPage s k p)))) ∧
  (∀ (s : State) (k : Nat) (p : LandingPage) (f : List Nat), tabGet s.space.pages k = some p → p.closed = true →
    live s = true → (blockOf s (pageBlock s p)).firstCycle = true → (∃ n ∈ f, 32 < n) →
    exec (.landingConfirmed ⟨k, f⟩) s = .next (settle (afterLanding (failPage s k p)))) ∧
  (∀ (s : State) (k : Nat) (p : LandingPage), tabGet s.space.pages k = some p → p.closed = true → live s = true →
    exec (.programFailed k) s = .next (settle (afterLanding (failPage s k p)))) ∧
  (∀ (s : State), afterLanding s = startErases (resumeAll (retryPieces (drainPosted (closeParity s))))) ∧
  (∀ (s : State), exec .postedDurable s = .next (settle (resumeAll (drainPosted (advanceDurable s))))) ∧
  (∀ (s : State) (x : Piece) (id page u : Nat), x.kind = .record → pieceLeft s .record x.csn x.entry = true →
    pieceLanded id page s (x, u) = { s with flash := { s.flash with items := s.flash.items.map (fun i =>
      if i.csn = x.csn ∧ i.entry = x.entry ∧ i.kind ≠ .lost then
        { i with setId := id, spans := sortBy Span.first (i.spans ++ [⟨page, u, x.first, x.units⟩]) } else i) } }) ∧
  (∀ (s : State) (x : Piece) (id page u : Nat), x.kind = .record → x.posted = true →
    pieceLeft s .record x.csn x.entry = false → (∀ i ∈ s.flash.items, i.csn = x.csn → i.marked = false) →
    pieceLanded id page s (x, u) = { s with flash := { s.flash with items := s.flash.items.map (fun i =>
      if i.csn = x.csn ∧ i.entry = x.entry ∧ i.kind ≠ .lost then
        { i with setId := id, spans := sortBy Span.first (i.spans ++ [⟨page, u, x.first, x.units⟩]), landed := true }
      else i) } }) ∧
  (∀ (s : State) (x : Piece) (id page u : Nat), x.kind = .commitMarker → x.posted = true →
    pieceLanded id page s (x, u) = { s with flash := { s.flash with items := s.flash.items.map (fun i =>
      if i.csn = x.csn ∧ i.pseq ≠ 0 then { i with commit := true } else i) } }) ∧
  (∀ (s : State) (p : LandingPage) (x : StripeSet), tabGet s.flash.sets p.setId = some x →
    ∃ y, tabGet (landPage s p).flash.pages (rowPage x p.row (pagePos p)) = some y ∧
      y.data = fit (p.pieces.flatMap (fun z => fit z.bytes (64 * z.units))) 16384 ∧
      pageType y = (if p.pieces.any (fun z => z.kind != .record) then 3 else 1) ∧
      pageCsn y = listMax (p.pieces.map Piece.csn) % 2 ^ 64) ∧
  (∀ (m : PageMeta) (d : List Byte), metaRead (Page.of m d) = some (metaBytes m) ∧ (metaBytes m).length = 64) ∧
  (∀ (s : State) (id : Nat) (x : StripeSet) (row : Nat),
    ∃ y, tabGet (putParity s id x row).flash.pages (rowPage x row (row % 16)) = some y ∧
      y.data = fit (xorPages ((rowPages s x row (row % 16)).map Page.data)) 16384 ∧ pageType y = 4) ∧
  (∀ (s : State) (x : StripeSet) (row pos : Nat) (y : Page), pos < 16 → pos ≠ row % 16 →
    (∀ p < 16, ∀ z, tabGet s.flash.pages (rowPage x row p) = some z → z.data.length = 16384) →
    (∀ z, tabGet s.flash.pages (rowPage x row (row % 16)) = some z → z.data = rowParity s x row) →
    tabGet s.flash.pages (rowPage x row pos) = some y → rebuiltData s x row pos = y.data)

/-- R277, R298: durability is a prefix. The posted writes that become durable together are landed, each with its commit
marker where it needs one, and no posted write with a lower CSN is left behind; they are taken in the order of their CSNs. -/
def Obligations.DurabilityIsAPrefix : Prop :=
  ∀ (s : State), let ready := durablePrefix (sortBy Item.csn (undurable s))
    (∀ i ∈ ready, i ∈ s.flash.items ∧ i.pseq ≠ 0 ∧ i.durable = false ∧ i.landed = true ∧ (i.marked = false ∨ i.commit = true)) ∧
    (∀ i ∈ ready, ∀ j ∈ s.flash.items, j.pseq ≠ 0 → j.durable = false → j.csn < i.csn → j ∈ ready) ∧
    ready.Pairwise (fun i j => i.csn ≤ j.csn) ∧
    (∀ j ∈ s.flash.items, j.pseq ≠ 0 → j.durable = false → (∀ k ∈ s.flash.items, k.pseq ≠ 0 → k.durable = false →
      k.csn ≤ j.csn → k.landed = true ∧ (k.marked = false ∨ k.commit = true)) → j ∈ ready)

/-- R229, R237, R239 to R243, R248, R263: the commands of a die. A read that meets a running erase or TLC program is
queued, and suspends it within FC_SUSPEND's limits; the operation resumes when no read is left, 16 were served, or 400 µs
passed; a read counts in its block, its row and its channel by the step at which it ended; an erase ends with its verify,
which at most 8 flipped bits of a codeword pass; calibration begins once granted and leaves the offsets; a diagnostic read
leaves its status and window, of the target and mode that its START found. The model's own choices here: log entries 108 to
110, 126, 132, 180, 184, 187, 205, and 3 where an event does not hold. -/
def Obligations.DieCommands : Prop :=
  (∀ (s : State) (d : Nat), live s = true →
    ((((dieOf s d).op = 6 ∨ (dieOf s d).op = 4) ∨ (((dieOf s d).op = 5 ∨ (dieOf s d).op = 3) ∧ maySuspend s d = false)) →
      exec (.eraseSuspend d) s = .next (settle (updDie s d (fun x => { x with queuedReads := x.queuedReads + 1 })))) ∧
    ((dieOf s d).op = 5 → (dieOf s d).suspends < fieldOf s (fcBase (chanOf d) + 0xA0) 4 0 →
      (dieOf s d).runSince + fieldOf s (fcBase (chanOf d) + 0xA0) 31 16 ≤ s.sessionUs →
      exec (.eraseSuspend d) s = .next (settle (updDie s d (fun x => { x with
        op := 6, suspends := x.suspends + 1, suspendedAt := s.sessionUs, readsServed := 0
        queuedReads := x.queuedReads + 1 })))) ∧
    ((dieOf s d).op = 3 → (dieOf s d).suspends < fieldOf s (fcBase (chanOf d) + 0xA0) 10 8 →
      exec (.eraseSuspend d) s = .next (settle (updDie s d (fun x => { x with
        op := 4, suspends := x.suspends + 1, suspendedAt := s.sessionUs, readsServed := 0
        queuedReads := x.queuedReads + 1 })))) ∧
    (((dieOf s d).op = 6 ∨ (dieOf s d).op = 4) →
      ((dieOf s d).queuedReads = 0 ∨ 16 ≤ (dieOf s d).readsServed ∨ (dieOf s d).suspendedAt + 400 ≤ s.sessionUs) →
      exec (.eraseResume d) s = .next (settle (updDie s d (fun x => { x with
        op := if x.op = 6 then 5 else 3, runSince := s.sessionUs }))))) ∧
  (∀ (s : State) (d b page step : Nat), live s = true → readServed s d b = true → readWaits s (4096 * d + b) step = false →
    let u := charge (charge s (workOn s 0 0 d 1 none)) (workOn s 0 1 d 4 none)
    let v := if dieUnavailable s d then u else noteRetry u d step
    exec (.arrayReadDone d b page step) s = .next (settle (serveQueued (readEnds v (4096 * d + b) page step) d))) ∧
  (∀ (s : State) (b page : Nat), (dieOf s (dieOfBlock b)).st = 0 → 1 < readLimit s b → (blockOf s b).reads = 0 →
    readEnds s b page 0 = updBlock (bumpBy s (fcBase (chanOf (dieOfBlock b)) + 0x84) 1) b (fun x => { x with reads := 1 })) ∧
  (∀ (s : State) (b : Nat) (f : List Nat), live s = true → (dieOf s (dieOfBlock b)).op = 5 →
    (dieOf s (dieOfBlock b)).plane = b / 1024 % 4 → (dieOf s (dieOfBlock b)).block = b % 1024 →
    exec (.eraseDone b f) s = .next (settle (
      let u := updDie s (dieOfBlock b) (fun x => { x with op := 0, suspends := 0, plane := 0, block := 0 })
      let v := if f.all (fun n => decide (n ≤ 8)) then blockErased u b else eraseFailed u b
      reviewCampaigns (startErases (resumeAll (retryPieces (drainPosted v))))))) ∧
  (∀ (s : State) (b : Nat), (blockOf (blockErased s b) b).erases = (blockOf s b).erases + 1 ∧
    (blockOf (blockErased s b) b).wear = (blockOf s b).wear + (if (blockOf s b).tlc then 10 else 1) ∧
    (blockOf (blockErased s b) b).reads = 0 ∧ (blockOf (blockErased s b) b).unfinished = false ∧
    (blockErased s b).flash.items = s.flash.items) ∧
  (∀ (s : State) (d : Nat), live s = true → calibrationDue s d = true →
    let u := updDie s d (fun x => { x with calDue := true })
    (calGrant u d = false → exec (.calibrationDue (d / 16) (d / 8 % 2) (d % 8)) s = .next (settle u)) ∧
    (calGrant u d = true → exec (.calibrationDue (d / 16) (d / 8 % 2) (d % 8)) s = .next (settle
      (updDie (fieldSet u (fcBase (chanOf d) + 0xA8) 27 24 (d % 16)) d
        (fun x => { x with
          st := 2, op := 7, runSince := s.sessionUs, calDue := false, readSec := 0, reads1 := 0, retried1 := 0 }))))) ∧
  (∀ (s : State) (d : Nat) (o : Tab Word), live s = true → (dieOf s d).st = 2 →
    exec (.calibrationDone (d / 16) (d % 16) o) s = .next (settle (startErases (resumeAll (retryPieces (closeParity (raise
      (updDie (storeOffsets s d o) d (fun x => { x with
        st := 0, op := 0, calAt := s.poweredUs, calTemp := (packageTemp s d).getD x.calTemp }))
      (0x10 + chanOf d) 1))))))) ∧
  (∀ (s : State) (ch step flips : Nat) (er ok : Bool) (bytes : List Byte), live s = true →
    bit (regGet s (fcBase ch + 0xC4)) 31 = true →
    let b := diagBlock s ch
    let mode := (diagAsked s ch).2
    (activating s = true → 64 + ch ∉ s.update.held) → readServed s (dieOfBlock b) (b % 4096) = true → readWaits s b step = false →
    let away := dieUnavailable s (dieOfBlock b)
    let failed := mode = 0 ∧ ok = false ∧ er = false
    let u := regSet s (fcBase ch + 0xC4) (pack [(if mode = 0 ∧ (away = true ∨ step = 8 ∧ ok = true) then 1 else 0, 30, 1),
      (if er then 1 else 0, 29, 1), (if mode = 0 then min (if away then max step 8 else step) 8 else 0, 24, 4),
      (if failed then 0x0401 else 0, 0, 16)])
    let v := if mode = 2 then regSet u (fcBase ch + 0xCC) (word flips) else u
    let r := serveQueued (if mode = 0 ∧ er = false then ladderRuns v b (if ok then step else 9)
      else countReads v b (if away then 0 else if mode = 2 then 2 else 1)) (dieOfBlock b)
    exec (.diagReadDone ch step er ok flips bytes) s =
      .next (settle (raise (diagWindow { r with space := { r.space with diag := tabErase r.space.diag ch } } ch
        (diagBytes s mode b (bits (diagAsked s ch).1 11 0) ok bytes)) (0x10 + ch) 2))) ∧
  (∀ (s : State) (ch step flips : Nat) (er ok : Bool) (bytes : List Byte), activating s = true → 64 + ch ∈ s.update.held →
    exec (.diagReadDone ch step er ok flips bytes) s = .next (settle s))

/-- R250 to R253, R255, R256, R261, R309: careening. A due stripe plane starts draining where the limits allow; a die whose
dry dock is granted is charged its energy and leaves service; the heater check ends after 2 ms, the ramp at the anneal
temperature, the pulse train after 12 ms a pulse, the cool at 100 °C and the release after 4 ms; a ramp or a cool that
lasts too long counts one fault; an abort puts the heater off and sets the retry 10 s later. A failed heater goes straight
to release. The model's own choices here: log entries 112 to 117, 171, 193, 195, and 3 where an event does not hold. -/
def Obligations.DryDockPhases : Prop :=
  (∀ (s : State), live s = true → serviceOpen s = true → activating s = false →
    (∀ id w, firstDue s = some (id, w) → s.careen.campaigns.length < fieldOf s A.CA_CTRL 22 16 → s.space.state = 0 →
      paused s = false → exec .campaignStart s = .next (settle (reviewCampaigns (beginCampaign s id)))) ∧
    ((firstDue s = none ∨ fieldOf s A.CA_CTRL 22 16 ≤ s.careen.campaigns.length ∨ s.space.state ≠ 0 ∨ paused s = true) →
      exec .campaignStart s = .next (settle (reviewCampaigns s)))) ∧
  (∀ (s : State) (d : Nat), live s = true → activating s = false →
    (dockGrant (reviewCampaigns s) d = true →
      exec (.dryDockGrant d) s = .next (settle (enterDock (reviewCampaigns s) d))) ∧
    (dockGrant (reviewCampaigns s) d = false → exec (.dryDockGrant d) s = .next (settle (reviewCampaigns s)))) ∧
  (∀ (s : State) (d : Nat), (dieOf (enterDock s d) d).st = 1 ∧ (dieOf (enterDock s d) d).op = 8 ∧ (dockOf (enterDock s d) d).phase = 2 ∧
    (dockOf (enterDock s d) d).plane = (dockOf s d).plane ∧ (enterDock s d).flash = s.flash ∧
    (enterDock s d).tide = (charge s (dockEnergy s d)).tide) ∧
  (∀ (s : State) (d raw : Nat), live s = true → (dockOf s d).phase = 2 → (dockOf s d).since + 2000 ≤ s.sessionUs →
    let p := 4 * d + (dockOf s d).plane
    let ppm := driftOf s p raw
    let u := updPlane s p (fun x => { x with drift := ppm, measured := true })
    exec (.heaterCheck d raw) s = .next (settle (if fieldOf s A.CA_HEATER_LIMIT 23 0 ≤ ppm
      then updDock (heaterOut u p) d (fun x => { x with phase := 6, since := s.sessionUs, overran := false })
      else recomputeLife (updDock u d (fun x => { x with heated := true, phase := 3, since := s.sessionUs, overran := false }))))) ∧
  (∀ (s : State) (d raw : Nat), s.sessionUs < (dockOf s d).since + 2000 → exec (.heaterCheck d raw) s = .next (settle s)) ∧
  (∀ (s : State) (d : Nat), live s = true →
    ((dockOf s d).phase = 3 → heaterAtLeast s (dockPlane s d) (fieldOf s A.CA_ANNEAL 27 16) = true →
      exec (.ramp d false) s = .next (settle (dockPhase s d 4))) ∧
    ((dockOf s d).phase = 3 → heaterAtLeast s (dockPlane s d) (fieldOf s A.CA_ANNEAL 27 16) = false →
      exec (.ramp d false) s = .next (settle s)) ∧
    ((dockOf s d).phase = 3 → (dockOf s d).since + 50000 < s.sessionUs → (dockOf s d).overran = false →
      exec (.ramp d true) s = .next (settle (let u := heaterFault (updDock s d (fun x => { x with overran := true })) (dockPlane s d)
        if u.flash.failedHeaters.contains (dockPlane s d) then dockPhase u d 5 else u))) ∧
    ((dockOf s d).phase = 4 → (dockOf s d).since + 12000 * fieldOf s A.CA_ANNEAL 15 8 ≤ s.sessionUs →
      exec (.pulseTrain d) s = .next (settle (updDock s d (fun x =>
        { x with pulses := fieldOf s A.CA_ANNEAL 15 8, phase := 5, since := s.sessionUs, overran := false })))) ∧
    ((dockOf s d).phase = 5 → heaterAtMost s (dockPlane s d) 1000 = true →
      exec (.cool d false) s = .next (settle (dockPhase s d 6))) ∧
    ((dockOf s d).phase = 5 → heaterAtMost s (dockPlane s d) 1000 = false → sensorDown s (sensorKey 3 (dockPlane s d)) = false →
      exec (.cool d false) s = .next (settle s)) ∧
    ((dockOf s d).phase = 5 → (dockOf s d).since + 80000 < s.sessionUs → (dockOf s d).overran = false →
      exec (.cool d true) s = .next (settle (heaterFault (updDock s d (fun x => { x with overran := true })) (dockPlane s d)))) ∧
    ((dockOf s d).phase = 6 → (dockOf s d).since + 4000 ≤ s.sessionUs → exec (.release d) s = .next (settle (reviewCampaigns (startErases (resumeAll (retryPieces
      (closeParity (leaveDock (sampleHeaters (updDie s d (fun x => { x with st := 0, op := 0 })) d false) d))))))))) ∧
  (∀ (s : State) (d : Nat) (c : AbortCause), live s = true → 2 ≤ (dockOf s d).phase → (dockOf s d).phase ≤ 4 →
    abortHolds s d c = true → exec (.careenAbort d c) s = .next (settle (abortCareen s d c))) ∧
  (∀ (s : State) (d : Nat) (c : AbortCause), c ≠ .overTemp →
    (dockOf (abortCareen s d c) d).phase = 5 ∧ (dockOf (abortCareen s d c) d).aborted = true ∧
    (dockOf (abortCareen s d c) d).retryAt = s.sessionUs + 10000000 ∧ (abortCareen s d c).flash = s.flash) ∧
  (∀ (s : State) (d : Nat), live s = true → activating s = false → paused s = false → (dockOf s d).aborted = true →
    (dockOf s d).phase = 0 → (dockOf s d).retryAt ≤ s.sessionUs → emergency s = false →
    sensorDown s (sensorKey 3 (dockPlane s d)) = false →
    exec (.careenRetry d) s = .next (settle (requestDock s d (dockOf s d).plane)))

/-- R252, R258, R259, R262 to R266, R420: verify, life, refresh, the patrol and the survey. A block that passes has its
wear at 0 and its residue replaced, one that fails is retired, and after the last the plane returns; a refresh closes its
set and is counted by its cause; the patrol reads two pages of every block of its next set, and a failure makes it due, or
of a block of the mirrored regions, which a failure has rewritten; the survey counts by class, escalates above 2 %, and
ends with its record. Under the barrier of an activation none of these begins, and the survey stands from its firing
(R420). The model's own choices here: log entries 112 to 117, 197, 205, and 3 where an event does not hold. -/
def Obligations.VerifyAndSurvey : Prop :=
  (∀ (s : State) (d : Nat) (r : VerifyReport), live s = true → s.seqr.barrier = false → (dockOf s d).phase = 7 →
    (∀ n, nextVerify s d = some n → exec (.blockVerify d r) s = .next (settle (
      let u := updDock (verifyBlock s d (1024 * dockPlane s d + n) r) d (fun x => { x with next := n + 1 })
      if nextVerify u d = none then verifyEnds u d else u))) ∧
    (nextVerify s d = none → exec (.blockVerify d r) s = .next (settle (verifyEnds s d)))) ∧
  (∀ (t t0 : Nat), t0 < 576 → t ≤ 576 →
    (t ≤ t0 → residueOf t t0 = 0) ∧ (t0 < t → t < 576 → residueOf t t0 = 65536 * (t - t0) / (576 - t0)) ∧
    (t0 < t → t = 576 → residueOf t t0 = 65535)) ∧
  (∀ (s : State) (d b : Nat) (r : VerifyReport), let x := blockOf (verifyPasses s d b r) b
    x.wear = 0 ∧ x.erases = (blockOf s b).erases + 1 ∧ x.careens = (blockOf s b).careens + 1 ∧ x.reads = 0 ∧
    x.residue = residueOf (listSum (patternFlips r)) (blockOf s b).s0 ∧
    (verifyPasses s d b r).flash.items = s.flash.items) ∧
  (∀ (s : State), live s = true → s.boot.readySpace = true → s.careen.lifeAt + 60000000 ≤ s.sessionUs →
    exec .lifeRecompute s = .next (settle (recomputeLife s))) ∧
  (∀ (s : State) (id k : Nat) (x : StripeSet), tabGet s.flash.sets id = some x → x.refreshDue = some k → live s = true →
    serviceOpen s = true → s.seqr.barrier = false → k < 16 → exec (.refresh id) s = .next (settle (beginRefresh s id k))) ∧
  (∀ (s : State), s.seqr.barrier = true → (∀ d r, exec (.blockVerify d r) s = .next (settle s)) ∧
    (∀ id, exec (.refresh id) s = .next (settle s)) ∧ ∀ id f, exec (.patrolRead id f) s = .next (settle s)) ∧
  (∀ (s : State) (id : Nat) (flips : List Nat), live s = true → serviceOpen s = true → s.seqr.barrier = false →
    (patrolNext s = some id → exec (.patrolRead id flips) s = .next (settle (patrolAct s id flips))) ∧
    (patrolNext s ≠ some id → exec (.patrolRead id flips) s = .next (settle s))) ∧
  (∀ (s : State) (id : Nat) (flips : List Nat),
    (∀ x, id < patrolMirror → tabGet s.flash.sets id = some x → patrolAct s id flips =
      (let u := x.blocks.foldl (fun v b => countReads v b 4) (patrolMoves s id)
      if retentionOk flips then u else markDue u id 2)) ∧
    (∀ b, id = patrolMirror + b → patrolAct s id flips =
      (let u := countReads (patrolMoves s id) b 4
      if retentionOk flips then u else eraseMirrored u b)) ∧
    (patrolMoves s id).flash.patrolAt = id) ∧
  (∀ (s : State) (id : Nat), patrolNext s = some id → 0 < s.careen.patrolCount → id ≤ s.flash.patrolAt →
    s.careen.patrolStart + 86400000000 * fieldOf s A.CA_PATROL 23 16 ≤ s.poweredUs) ∧
  (∀ (flips : List Nat), (flips.all (fun n => decide (n ≤ 96)) = true ↔ retentionOk flips = true)) ∧
  (∀ (s : State) (cls b : Nat) (flips : List Nat), live s = true → serviceOpen s = true → s.careen.survey.active = true →
    (activating s = true → exec (.retentionSurvey cls b flips) s = .next (settle s)) ∧
    (activating s = false → (cls, b) ∈ s.careen.survey.work → exec (.retentionSurvey cls b flips) s = .next (settle (surveyBlock s cls b (retentionOk flips)))) ∧
    ((cls, b) ∉ s.careen.survey.work → exec (.retentionSurvey cls b flips) s = .next (settle s))) ∧
  (∀ (s : State) (b : Nat) (ok : Bool), surveyReads s 8 b ok =
    if ok then countReads s b 4 else eraseMirrored (countReads s b 4) b) ∧
  (∀ (s : State) (cls : Nat) (ok : Bool), let y := s.careen.survey
    surveyCount s cls ok = { s with careen := { s.careen with survey := { y with
      sampled := y.sampled.set cls (y.sampled.getD cls 0 + 1)
      failing := if ok then y.failing else y.failing.set cls (y.failing.getD cls 0 + 1) } } }) ∧
  (∀ (s : State), live s = true → 600000000 ≤ s.sessionUs → exec .surveyDeadlineEnd s =
    .next (settle { s with careen := { s.careen with survey := { s.careen.survey with deadline := false } } }))

/-- R188 to R190, R194, R196, R197, R208, R219, R220, R240, R274, R332: the index's commands. A chain that arrives takes
free ways of its set, or those of the frames used longest ago once they are clean and not pinned; a leaf takes 4,096 bytes,
an entry 40, and an entry for which every leaf is full begins a new one; a chain that is due is written back, and its copy,
its word of the directory, CLEAN_CSN and generation follow, or, where a program fails, the chain stays dirty and its set
closes; the scrub rewrites and counts an entry of the die that differs from the table; a bank that is due migrates to its
spare and becomes class 5, and its test returns it or counts a fault; an engine's test reports and counts likewise, and one
accepted while an activation has fired waits (R331, R420). The model's own choices here: log entries 118, 123, 124, 147,
179, 181, 191, 205, and 3 where an event does not hold. -/
def Obligations.IndexCommands : Prop :=
  (∀ (s : State) (b : Nat) (c : Chain), fetched s b = some c → live s = true → s.boot.readySpace = true →
    (∀ u, makeRoom 5 s (b % cacheSets) (waysOf c) = some u → exec (.leafFetch b) s = .next (settle (resumeAll (placeLeaf u b c)))) ∧
    (makeRoom 5 s (b % cacheSets) (waysOf c) = none → exec (.leafFetch b) s = .next (settle s))) ∧
  (∀ (s : State) (fuel set n : Nat),
    (waysIn s set + n ≤ 4 → makeRoom (fuel + 1) s set n = some s) ∧
    (∀ j c, 4 < waysIn s set + n → evictable s set = some (j, c) →
      (c.dirtySince = none → makeRoom (fuel + 1) s set n =
        makeRoom fuel { s with index := { s.index with chains := tabErase s.index.chains j } } set n) ∧
      (∀ t, c.dirtySince = some t → makeRoom (fuel + 1) s set n = none))) ∧
  (∀ (s : State) (set j : Nat) (c : Chain), evictable s set = some (j, c) →
    (j, c) ∈ framesIn s set ∧ c.pending = [] ∧ c.readers = [] ∧
    ∀ k d, (k, d) ∈ framesIn s set → d.pending = [] → d.readers = [] → c.usedAt ≤ d.usedAt) ∧
  (∀ (s : State) (b : Nat) (c : Chain), ∃ x, tabGet (placeLeaf s b c).index.chains b = some x ∧ x.fetching = false ∧
    x.usedAt = s.sessionUs ∧ x.pending = c.pending ∧ x.readers = c.readers ∧
    ((∀ l ∈ c.leaves, ∀ e ∈ l.entries, quayErasing s e.quay = false) → x.leaves = c.leaves) ∧
    ∀ j, j ≠ b → tabGet (placeLeaf s b c).index.chains j = tabGet s.index.chains j) ∧
  (∀ (s u : State) (b id : Nat) (c : Chain), tabGet s.index.chains b = some c → live s = true → s.power.holdUpReady = true →
    c.fetching = false → writebackDue s b c = true → roomIn s .index (64 * c.leaves.length) = some (u, id) →
    exec (.chainWriteback ⟨b, true⟩) s = .next (settle (writeBack u b c id)) ∧
    exec (.chainWriteback ⟨b, false⟩) s = .next (settle (copyFailed u id))) ∧
  (∀ (s : State) (b id : Nat) (c : Chain), let t := writeBack s b c id
    (∃ x, tabGet t.index.chains b = some x ∧ x.dirtySince = none ∧ x.generation = c.generation + 1 ∧
      (∀ q ∈ c.pending, x.cleanCsn ≤ q) ∧ x.cleanCsn ≤ s.seqr.next ∧ x.pending = c.pending ∧
      x.leaves.map Leaf.entries = c.leaves.map Leaf.entries ∧ ∀ l ∈ x.leaves, l.dirty = false) ∧
    (∃ l, tabGet t.flash.leaves b = some (tabGetD s.flash.leaves b [] ++ [l]) ∧ l.setId = id ∧ l.generation = c.generation + 1 ∧
      l.leaves = c.leaves.map Leaf.entries ∧ (∀ q ∈ c.pending, l.cleanCsn ≤ q) ∧ l.cleanCsn ≤ s.seqr.next ∧
      tabGet t.index.dir b = some (l.locs.headD 0)) ∧
    t.flash.items = s.flash.items ∧ t.flash.quays = s.flash.quays) ∧
  (∀ (e : LeafEntry), (leafEntryBytes e).length = 40 ∧
    leAt (leafEntryBytes e) 0 16 = e.digest % 2 ^ 128 ∧ leAt (leafEntryBytes e) 16 8 = e.loc % 2 ^ 64 ∧
    leAt (leafEntryBytes e) 24 8 = e.version % 2 ^ 64) ∧
  (∀ (b depth g clean : Nat) (next : Option Nat) (es : List LeafEntry), (leafBytes b depth g clean next es).length = 4096 ∧
    (leafBytes b depth g clean next es).take 96 = leafHead b depth es.length g clean next ++
      leBytes (crc32c (leafHead b depth es.length g clean next ++ fit (es.flatMap leafEntryBytes) 4000)) 4) ∧
  (∀ (e : LeafEntry) (ls : List Leaf),
    ((∃ l ∈ ls, l.entries.length < 100) → (chainAdd e ls).length = ls.length) ∧
    ((∀ l ∈ ls, 100 ≤ l.entries.length) → chainAdd e ls = (ls.zipIdx.map (fun p =>
      { p.1 with dirty := p.1.dirty || p.2 + 1 == ls.length })) ++ [{ entries := [e], dirty := true }]) ∧
    listSum ((chainAdd e ls).map (fun l => l.entries.length)) = listSum (ls.map (fun l => l.entries.length)) + 1) ∧
  (∀ (s : State) (bank off : Nat) (flips : BitVec 160), live s = true → s.boot.readyUnits = true →
    1 ≤ s.index.banks.getD bank 0 → entryAt s bank off = true →
    let addr := 131072 * bank + off
    let u := strikeCell s addr flips
    let v := { u with index := { u.index with scrubAt := s.sessionUs, scrubbed := tabPut u.index.scrubbed addr s.poweredUs } }
    ((scrubDue s bank addr = false ∨ s.seqr.barrier = true) → exec (.indexScrub bank off flips) s = .next (settle u)) ∧
    (scrubDue s bank addr = true → s.seqr.barrier = false → cellAt u addr = tableCell s addr → exec (.indexScrub bank off flips) s = .next (settle v)) ∧
    (scrubDue s bank addr = true → s.seqr.barrier = false → cellAt u addr ≠ tableCell s addr →
      exec (.indexScrub bank off flips) s = .next (settle (softError v addr (softCounter s bank))))) ∧
  (∀ (s : State) (addr : Nat) (flips : BitVec 160), cellAt (rewriteCell s addr) addr = tableCell s addr ∧
    cellAt (strikeCell s addr flips) addr = cellAt s addr ^^^ flips) ∧
  (∀ (s : State) (t : BankTest), live s = true → s.boot.readyUnits = true → s.index.powered = true → activating s = false →
    s.index.test = some t → s.index.banks.getD t.bank 0 ≠ 5 → exec .bankTest s = .next (settle (migrateBank s t))) ∧
  (∀ (s : State) (t : BankTest), live s = true → s.boot.readyUnits = true → s.index.powered = true → activating s = false →
    s.index.test = none → testDue s = true → (startBankTest s).index.test = some t →
    (startBankTest s).index.banks.getD t.bank 0 ≠ 5 →
    exec .bankTest s = .next (settle (migrateBank (startBankTest s) t))) ∧
  (∀ (s : State) (t : BankTest), live s = true → s.index.test = some t → s.index.banks.getD t.bank 0 = 5 →
    let u := raise { s with index := { s.index with
      test := none
      lastTested := t.bank
      testedAt := tabPut s.index.testedAt t.bank s.poweredUs } } 7 2
    exec (.bankTestEnd true) s = .next (settle (setBankClass u t.bank 4)) ∧
    exec (.bankTestEnd false) s = .next (settle (if (faultAct u 6 t.bank 0).index.banks.getD t.bank 0 = 5
      then setBankClass (faultAct u 6 t.bank 0) t.bank 4 else faultAct u 6 t.bank 0))) ∧
  (∀ (s : State) (n : Nat) (ok : Bool), activating s = true → n ∈ s.update.held → exec (.engineTestEnd n ok) s = .next (settle s)) ∧
  (∀ (s : State) (n : Nat), live s = true → (engineOf s n).testing = true → engineCmds s n = [] →
    (activating s = true → n ∉ s.update.held) →
    let u := raise (updEngine s n (fun e => { e with testing := false })) (0x50 + n) 0
    exec (.engineTestEnd n true) s = .next (settle (fieldSet u (0x50064 + 0x1000 * n) 1 0 1)) ∧
    exec (.engineTestEnd n false) s = .next (settle (faultAct (fieldSet u (0x50064 + 0x1000 * n) 1 0 2) 0 n 0)))

/-- R278 to R284, R292 to R294: the moving of data and checkpoints. The landing set that closed first is folded once all on
it is applied; dredging picks its victim; a copy goes to the warehouse, and a failed one is placed again; a set is
dissolved once nothing valid is left on it; a sweep marks what was lost; a checkpoint that is due begins with the next CSN
and the horizon as they stand, and is the newest once it is on both copies. Under the barrier of an activation none of
these begins (R420). The model's own choices here: log entries 119 to 122, 171, 172, 196, 205, and 3 where an event does
not hold. -/
def Obligations.SpaceCommands : Prop :=
  (∀ (s : State) (id : Nat) (x : StripeSet), foldNext s = some (id, x) → live s = true → serviceOpen s = true → s.seqr.barrier = false →
    allApplied s id = true → exec .warehousing s = .next (settle (updSet s id (fun x => { x with moving := true })))) ∧
  (∀ (s : State), s.seqr.barrier = true → exec .warehousing s = .next (settle s) ∧ exec .dredging s = .next (settle s) ∧
    (∀ c e id ok, exec (.recordCopy c e id ok) s = .next (settle s)) ∧ (∀ id, exec (.lostPageSweep id) s = .next (settle s)) ∧
    exec .checkpointBegin s = .next (settle s)) ∧
  (∀ (s : State), live s = true → serviceOpen s = true → s.seqr.barrier = false →
    let u := freeQuays (walkErasing (reviewDredging s))
    ((u.space.dredging = false ∨ dredgeBusy u = true ∨ dredgeVictim u = none) → exec .dredging s = .next (settle u)) ∧
    (∀ id, u.space.dredging = true → dredgeBusy u = false → dredgeVictim u = some id →
      exec .dredging s = .next (settle (updSet { u with space := { u.space with victim := id } } id
        (fun x => { x with moving := true }))))) ∧
  (∀ (s : State) (q : Nat) (y : Quay), (q, y) ∈ (freeQuays s).flash.quays ↔
    (q, y) ∈ s.flash.quays ∧ (y.erasing = false ∨ (∃ i ∈ s.flash.items, i.quay = q) ∨ quayInLeaves s q = true)) ∧
  (∀ (s : State) (csn entry id : Nat) (ok : Bool) (i : Item),
    (validOn s id).find? (fun i => i.csn == csn && i.entry == entry && !itemUnread i) = some i → live s = true →
    s.power.holdUpReady = true → s.seqr.barrier = false → (setMoves s id = true ∨ sweepEpoch s i ≠ none) → leafCached s i = true →
    exec (.recordCopy csn entry id ok) s = .next (settle (copyItem s i id ok))) ∧
  (∀ (s u : State) (i : Item) (src id : Nat), roomIn s .warehouse (itemUnits i) = some (u, id) →
    let c := copyOf u i
    let p := packUnits c.1 id i.csn i.recordId (recordBytes (itemKey c.1 c.2) c.2)
    copyItem s i src true = moveItem p.1 i { c.2 with setId := id, spans := p.2 } src ∧ copyItem s i src false = copyFailed u id) ∧
  (∀ (s : State) (i : Item), sweepEpoch s i = none → copyOf s i =
    (s, { i with pseq := 0, batch := false, marked := false, commit := false, badPages := [] })) ∧
  (∀ (s : State) (i c : Item) (src : Nat), (moveItem s i c src).flash.items = s.flash.items.map (fun x => if x = i then c else x) ∧
    ∀ x, tabGet s.flash.sets src = some x → ∃ y, tabGet (moveItem s i c src).flash.sets src = some y ∧
      bucketOf i.digest ∈ y.moved) ∧
  (∀ (s : State) (id : Nat) (x : StripeSet), tabGet s.flash.sets id = some x → live s = true → mayDissolve s id x = true →
    exec (.setDissolve id) s = .next (settle (dissolve s id x))) ∧
  (∀ (s : State) (id : Nat) (x : StripeSet), mayDissolve s id x = true ↔
    x.isOpen = false ∧ setMoves s id = true ∧ validOn s id = [] ∧ leavesOn s id = [] ∧ allApplied s id = true ∧
    pinnedSet s id = false ∧ x.moved = [] ∧ x.ckptNeeded ≤ s.space.ckptSeq ∧ x.sweepPending = false) ∧
  (∀ (s : State) (id : Nat) (x : StripeSet), tabGet s.flash.sets id = some x → live s = true → s.seqr.barrier = false → x.sweepPending = true →
    exec (.lostPageSweep id) s = .next (settle (resumeAll (raise (updSet
      (((validOn s id).filter itemUnread).foldl markLost s) id (fun x => { x with sweepPending := false })) 8 5)))) ∧
  (∀ (s : State), live s = true → s.power.holdUpReady = true → s.boot.readySpace = true → s.space.ckpt = none →
    ckptOver s = false → ckptDue s = true → s.seqr.barrier = false →
    let u := if cleanBegin s then persistPowered s else s
    exec .checkpointBegin s = .next (settle ({ u with space := { u.space with
        ckpt := some { begunAt := s.sessionUs, csn := s.seqr.next, horizon := horizon s, durablePseq := s.space.durablePseq,
                       clean := cleanBegin s, mount := false, preUsed := s.space.preUsed
                       tables := tablesNow s }
        ckptQueued := false
        ckptAt := s.sessionUs
        landedBytes := 0 } }))) ∧
  (∀ (s : State) (k : Ckpt), live s = true → s.space.ckpt = some k →
    exec .checkpointDone s = .next (settle { s with
      flash := { s.flash with
        saved := some { seq := s.space.ckptSeq + 1, csn := k.csn, horizon := k.horizon, durablePseq := k.durablePseq,
                        clean := k.clean, lowWater := s.flash.lowWater, usable := true
                        tables := k.tables } }
      space := { s.space with
        ckpt := none
        ckptSeq := s.space.ckptSeq + 1
        preUsed := s.space.preUsed.filter (fun x => !k.preUsed.contains x) } }))

/-- R63, R303, R305: sensors. A sample of a powered sensor, taken at the interval of its class, joins the last two; three
give their median, which is used when it lies in its class's window and otherwise counted as rejected; 50 ms without a
plausible one declare the sensor failed, with its event and a fault; 1 s of plausible medians take it back, unless the
fault is lasting. The model's own choices here: log entries 126, 149, and 3 where an event does not hold. -/
def Obligations.SensorCommands : Prop :=
  (∀ (s : State) (cls num : Nat) (raw : Int), live s = true → num < sensorCount cls → cls < 8 →
    (sensorOf s cls num).sampling = true →
    (∀ t, (sensorOf s cls num).sampledAt = some t → t + sampleInterval cls num ≤ s.sessionUs) →
    exec (.sensorSample cls num raw) s = .next (settle (reviewTide (takeSample s cls num raw)))) ∧
  (∀ (s : State) (cls num : Nat) (x a b : Int), (sensorOf s cls num).samples = [x, a, b] → ∀ c : Int,
    let u := updSensor s cls num (fun y => { y with samples := [a, b, c], sampledAt := some s.sessionUs })
    (plausible s cls (median3 a b c) = true → takeSample s cls num c = updSensor u cls num (fun y => { y with
      median := some (median3 a b c)
      lastGood := s.sessionUs
      goodSince := some (goodRun y s.sessionUs) })) ∧
    (plausible s cls (median3 a b c) = false → takeSample s cls num c =
      bump (updSensor u cls num (fun y => { y with goodSince := none })) (A.BW_REJ_COUNT + 4 * 3))) ∧
  (∀ (cls num : Nat), cls < 8 → sampleInterval cls num = [100, 100, if num < 136 then 1000 else 10000, 1000, 100, 10000, 10000, 100].getD cls 0) ∧
  (∀ (s : State) (cls num t : Nat) (raw : Int), (sensorOf s cls num).sampledAt = some t → s.sessionUs < t + sampleInterval cls num →
    exec (.sensorSample cls num raw) s = .next (settle s)) ∧
  (∀ (x : Sensor) (now : Nat), (x.goodSince = none → goodRun x now = now) ∧
    (∀ t, x.goodSince = some t → goodRun x now = if x.lastGood + 50000 < now then now else t)) ∧
  (∀ (a b c : Int), (median3 a b c = a ∨ median3 a b c = b ∨ median3 a b c = c) ∧
    (a ≤ b → b ≤ c → median3 a b c = b) ∧ median3 a b c = median3 b a c ∧ median3 a b c = median3 a c b) ∧
  (∀ (s : State) (cls num : Nat), live s = true → num < sensorCount cls → cls < 8 → (sensorOf s cls num).sampling = true →
    (sensorOf s cls num).failed = false → (sensorOf s cls num).lastGood + 50000 < s.sessionUs →
    exec (.sensorFailed cls num) s = .next (settle (reviewTide (faultAct (raise
      (updSensor s cls num (fun x => { x with failed := true, goodSince := none })) 2 0) 13 (sensorKey cls num) 0)))) ∧
  (∀ (s : State) (cls num t : Nat), live s = true → (sensorOf s cls num).failed = true →
    (sensorOf s cls num).goodSince = some t → t + 1000000 ≤ s.sessionUs → s.sessionUs ≤ (sensorOf s cls num).lastGood + 50000 →
    (faultCount s 13 (sensorKey cls num)).lasting = false →
    exec (.sensorReadmitted cls num) s = .next (settle (reviewTide (raise
      (updSensor s cls num (fun x => { x with failed := false })) 2 1))))

/-- R25, R306 to R309, R313, R315 to R317: the rail and the tide. The largest of the 48 ring delays, measured every 100 µs,
is the FSI, which moves the rail by 10 mV; 1 s at its maximum with the FSI above target raises the event once; at the end
of a window its energy settles the credit, held within 600 mJ, and the next budget and pool are set. A freed die takes the
oldest hard deadline if the pool holds its cost, and nothing else then; without one, the head of a class that fits. A hard
deadline never draws on the floors of classes 0 and 1. The model's own choices here: log entries 127 to 132, 134, 161, 176,
and 3 where an event does not hold. -/
def Obligations.RailAndTide : Prop :=
  (∀ (s : State) (rings : List Nat) (mv : Nat), ringsDue s = false → exec (.ringMeasurement rings mv) s = .next (settle s)) ∧
  (∀ (s : State) (rings : List Nat) (mv : Nat), live s = true → (∀ t, s.tide.fsiAt = some t → t + 100 ≤ s.sessionUs) →
    exec (.ringMeasurement rings mv) s = .next (settle (reviewAtMax (railStep { s with tide := { s.tide with
      fsi := (fastestRing rings).1
      fsiRing := (fastestRing rings).2
      fsiWorst := max s.tide.fsiWorst (fastestRing rings).1
      railMeasured := mv
      fsiAt := some s.sessionUs } })))) ∧
  (∀ (rings : List Nat), 48 ≤ rings.length → (∀ k < 48, rings.getD k 0 ≤ (fastestRing rings).1) ∧
    (fastestRing rings).2 < 48 ∧ rings.getD (fastestRing rings).2 0 = (fastestRing rings).1 ∧
    (∀ k < (fastestRing rings).2, rings.getD k 0 < (fastestRing rings).1)) ∧
  (∀ (s : State), s.pstate.cur < 2 → s.tide.step < 2 →
    (fieldOf s A.HM_FSI 31 16 < s.tide.fsi → s.tide.full = false →
      railStep s = setRail s (min (fieldOf s A.HM_RAIL_CTRL 25 16) (s.tide.rail + 10))) ∧
    (s.tide.fsi + 40 < fieldOf s A.HM_FSI 31 16 →
      railStep s = setRail s (max (fieldOf s A.HM_RAIL_CTRL 9 0) (s.tide.rail - 10)))) ∧
  (∀ (s : State) (t : Nat), live s = true → s.tide.atMaxSince = some (t, false) → t + 1000000 ≤ s.sessionUs →
    exec .railLimit s = .next (settle (raise { s with tide := { s.tide with atMaxSince := some (t, true) } } 1 5))) ∧
  (∀ (s : State) (r : WindowReport), live s = true → s.tide.windowAt + 1000 ≤ s.sessionUs →
    exec (.tideWindowEnd r) s = .next (settle (endWindow s r))) ∧
  (∀ (s : State) (r : WindowReport), inputDown s = false → let t := endWindow s r
    t.tide.credit = max (-600) (min 600 (s.tide.credit + (effectiveCeiling s : Int) - (r.spentMj : Int))) ∧
    t.tide.spent = r.spentMj ∧ t.tide.energyMj = s.tide.energyMj + r.spentMj ∧ t.tide.windowAt = s.sessionUs ∧
    t.tide.pool = t.tide.budget - r.standingMj ∧ t.tide.paced = 0 ∧
    t.flash = { s.flash with pages := t.flash.pages } ∧ t.berths = s.berths) ∧
  (∀ (s : State) (l : List Work),
    (∀ h, oldestDeadline l = some h → nextOp s l = if fits s h then some h else none) ∧
    (oldestDeadline l = none → ∀ o, nextOp s l = some o → fits s o = true ∧ o.cls < 8 ∧ l.find? (fun w => w.cls == o.cls) = some o) ∧
    (oldestDeadline l = none → nextOp s l = none → ∀ c < 8, ∀ o, l.find? (fun w => w.cls == c) = some o → fits s o = false)) ∧
  (∀ (l : List Work) (h : Work), oldestDeadline l = some h → h ∈ l ∧ h.due.isSome = true ∧
    ∀ w ∈ l, ∀ t, w.due = some t → h.due.getD 0 < t ∨ (h.due.getD 0 = t ∧ h.cls ≤ w.cls)) ∧
  (∀ (l : Ledger) (w : Work), w.due.isSome = true → (chargeTo l w).floors.take 2 = l.floors.take 2 ∧
    (w.cost ≤ l.shared → (chargeTo l w).shared = l.shared - w.cost ∧ (chargeTo l w).floors = l.floors)) ∧
  (∀ (s : State), dockWork s = (s.dies.filter (fun p => p.2.st == 1)).map (fun p =>
    ⟨4, costOf s (1 + chanOf p.1 / 4) 6, some s.tide.windowAt⟩))

/-- R77, R318 to R321: the step-down, the emergencies and the trip. While the trigger holds, a move every 10 ms, the first
at once; once it is gone, one step undone at a time; an emergency that is declared is recorded and withdraws the dry docks,
and one that clears is recorded; an emergency that persists moves the drive to LOW_TIDE, from which it returns 60 s after
it cleared; a region at its limit for 5 s trips the drive: it shuts down in service, and before service opens the power-on
ends. The model's own choices here: log entries 127 to 131, 194, and 3 where an event does not hold. -/
def Obligations.StepsAndEmergencies : Prop :=
  (∀ (s : State), live s = true → s.tide.trigger = true → (s.tide.step = 0 ∨ s.tide.steppedAt + 10000 ≤ s.sessionUs) →
    exec .stepDown s = .next (settle (reviewEmergency (stepMove
      { s with tide := { s.tide with steppedAt := s.sessionUs } })))) ∧
  (∀ (s : State), live s = true → s.tide.trigger = false → 1 ≤ s.tide.step → s.tide.undoAt ≤ s.sessionUs →
    exec .stepUp s = .next (settle (undoStep s))) ∧
  (∀ (s : State),
    (s.tide.step = 0 → (stepMove s).tide.step = 1) ∧
    (s.tide.step = 1 → (stepMove s).tide.step = if s.tide.stepCeil ≤ fieldOf s A.HM_TIDE_CEIL 19 10 then 2 else 1) ∧
    (s.tide.step = 2 → (stepMove s).tide.step = if s.tide.rail ≤ fieldOf s A.HM_RAIL_CTRL 9 0 then 3 else 2) ∧
    (s.tide.step = 3 → stepMove s = s) ∧
    (∀ k, s.tide.step = k + 2 → (undoStep s).tide.step = k + 1 ∧ (undoStep s).tide.undoAt = s.sessionUs + 100000)) ∧
  (∀ (s : State) (b : Bool), declare s b = withdrawDocks (raise (bumpHalf (logEmergency { s with tide := { s.tide with
      emThermal := s.tide.emThermal || b
      emSupply := s.tide.emSupply || !b
      emSince := if emergency s then s.tide.emSince else s.sessionUs
      emClearedAt := none } } (if b then 1 else 2) (if b then ((List.range 19).find? (regionEmerg s)).getD 255 else 255) true)
      A.HM_COUNTS 16) 1 1)) ∧
  (∀ (s : State), withdrawDocks s = ((s.careen.docks.filter (fun p => decide (2 ≤ p.2.phase ∧ p.2.phase ≤ 4))).map Prod.fst).foldl
    (fun v d => abortCareen v d .withdrawn) s) ∧
  (∀ (s : State), emergency s = true → let t := clearEmergency s
    emergency t = false ∧ t.tide.emClearedAt = some s.sessionUs ∧ t.tide.emPersisted = false) ∧
  (∀ (s : State), live s = true → emergency s = true → s.tide.emPersisted = false →
    s.tide.emSince + 1000 * fieldOf s A.HM_EMERG 15 0 ≤ s.sessionUs →
    exec .emergencyPersist s = .next (settle (autoMode { s with tide := { s.tide with emPersisted := true } } 1
      (if s.tide.emThermal then 5 else 6) [0, 4]))) ∧
  (∀ (s : State) (m t : Nat), live s = true → s.mode.autoLow = some m → s.tide.emClearedAt = some t → emergency s = false →
    s.mode.cur = 1 → t + 60000000 ≤ s.sessionUs →
    exec .lowTideReturn s = .next (settle (enterMode s (if m = 4 ∧ s.mode.rebuild = true then 4 else 0) 7 s.seqr.next))) ∧
  (∀ (s : State) (r t : Nat), live s = true → tabGet s.tide.hotSince r = some t → r ∉ s.tide.hotTripped →
    t + 5000000 ≤ s.sessionUs →
    (s.phase = 2 → exec (.thermalTrip r) s = .next (decided (beginShutdown (logTrip s r) s.seqr.next))) ∧
    (s.phase ≠ 2 → (s.boot.stage = .stageTwo ∨ s.boot.stage = .mounting) →
      exec (.thermalTrip r) s = .next (settle (tripBoot (logTrip s r)))))

/-- R322 to R326, R329: power states and powered time. An idle drive enters the next state after its time, where R323 lets
it; work that falls due takes it to P1, and when none is due or runs it returns; powered time is persisted and recorded
after 60 s. The model's own choices here: log entries 127 to 131, and 3 where an event does not hold. -/
def Obligations.PowerStates : Prop :=
  (∀ (s : State) (t : Nat), live s = true → serviceOpen s = true → s.pstate.excursion = none → s.pstate.idleSince = some t →
    mayEnter s (s.pstate.cur + 1) = true →
    t + 1000 * (regGet s (A.HM_IDLE_T + 4 * s.pstate.cur)).toNat ≤ s.sessionUs →
    exec .pstateEntry s = .next (settle (setPState s (s.pstate.cur + 1)))) ∧
  (∀ (s : State), s.pstate.idleSince = none → exec .pstateEntry s = .next (settle s)) ∧
  (∀ (s : State), live s = true → s.pstate.excursion = none → 2 ≤ s.pstate.cur → workDue s = true →
    let u := setPState s 1
    exec .maintenanceExcursion s =
      .next (settle { u with pstate := { u.pstate with excursion := some s.pstate.cur } })) ∧
  (∀ (s : State) (k : Nat), live s = true → activating s = false → s.pstate.excursion = some k → workDue s = false →
    workRuns s = false → exec .maintenanceExcursion s =
      .next (settle (setPState { s with pstate := { s.pstate with excursion := none } } k))) ∧
  (∀ (s : State), ckptDue s = true ∨ s.persistedAt + 60000000 ≤ s.poweredUs ∨ hardDeadline s = true ∨ testDue s = true ∨
    flushDue s = true ∨ patrolBehind s = true → workDue s = true) ∧
  (∀ (s : State), live s = true → s.persistedAt + 60000000 ≤ s.poweredUs →
    exec .poweredTime s = .next (settle (logRecord { s with
      persistedAt := s.poweredUs
      flash := { s.flash with poweredS := s.poweredUs / 1000000 } } 0x0002 (src 1 0) false
      (leBytes (s.poweredUs / 1000000) 8))))

/-- R342, R355 to R357: alarms. While the detectors are armed, an alarm stops every line and zeroises: the transport slots
are free, every slot wrapped in flash is SEALED, the KEK is gone and the drive locked; a mesh trip takes the wrapping base
and the attestation keys too. Once the operations that referenced slots have ended, the ALARM record is written. The
model's own choices here: log entries 95 to 99, 200, and 3 where an event does not hold. -/
def Obligations.AlarmsZeroise : Prop :=
  (∀ (s : State) (c : AlarmCause) (ns : Nat), live s = true → s.cipher.armed = true → detectorTrips s c = true →
    exec (.alarm c ns) s = .next (decided (alarmTrips s (causeCode c) ns))) ∧
  (∀ (s : State) (c : AlarmCause) (ns : Nat), s.cipher.armed = false → exec (.alarm c ns) s = .next (settle s)) ∧
  (∀ (s : State) (ns : Nat), (∀ n < 16, ∀ t, (sensorOf s 4 n).samples.getLast? = some t → -250 ≤ t ∧ t ≤ 1250) →
    exec (.alarm .temperature ns) s = .next (settle s)) ∧
  (∀ (s : State) (mesh : Bool), let t := zeroiseKeys s mesh
    (∀ p ∈ t.cipher.slots, p.2.st ≠ .live ∧ (p.2.kind = 1 ∨ p.2.kind = 4)) ∧
    (∀ p ∈ s.cipher.slots, (p.2.kind = 1 ∨ p.2.kind = 4) → ∃ q ∈ t.cipher.slots, q.1 = p.1 ∧ q.2.key = noKey ∧
      ∀ h ∈ q.2.shadows, h.key = noKey) ∧
    t.cipher.kek = none ∧ t.cipher.locked = true ∧ (mesh = true → t.cipher.wrapBase = none ∧ t.boot.keyStore = { dik := 0, ak := 0 } ∧
      t.cipher.meshTripped = true) ∧
    (mesh = false → t.cipher.wrapBase = s.cipher.wrapBase ∧ t.boot = s.boot) ∧ t.flash = s.flash ∧ t.log = s.log) ∧
  (∀ (s : State), s.cipher.alarm = .settle → (∀ c ∈ s.cmds, pastCipher s c = true) →
    exec .alarmSettle s = .next (settle (logRecord { s with cipher := { s.cipher with alarm := .none } } 0x60 (src 7 0) true
      (leBytes s.cipher.alarmCause 1 ++ [0] ++ leBytes s.cipher.zeroiseNs 2 ++ leBytes s.seqr.next 8)))) ∧
  (∀ (s : State), (s.cipher.alarm ≠ .settle ∨ ∃ c ∈ s.cmds, pastCipher s c = false) → exec .alarmSettle s = .next (settle s))

/-- R335 to R338, R344 to R346, R358, R359: entropy, keys and pipelines. The third health failure in a row is lasting; a
slot past 2^47 is rekeyed, a sweep that has left no old record releases the shadows no operation names, a chunk half used
is followed by the next; a message goes to the pipeline with the fewest queued blocks, ties to the lower number; a message
of higher priority suspends the running one, and a suspended one resumes; a round state enters in two shares, and the mask
generator is reseeded every 2^32 requests, but not while the entropy source has failed; a fault of a pipeline reissues its
message, and in lineage mode ends its command. The model's own choices here: log entries 95 to 99, 188, and 3 where an
event does not hold. -/
def Obligations.CipherCommands : Prop :=
  (∀ (s : State), live s = true → s.cipher.entropyFailed = false → s.cipher.entropyStreak < 2 →
    exec .entropyHealthFail s = .next (settle (let n := s.cipher.entropyStreak + 1
      let u := bumpHalf { s with cipher := { s.cipher with entropyStreak := n } } A.CP_ENTROPY 0
      let c := faultCount u 14 0
      logRecord (setFaultCount u 14 0 { times := c.times ++ [s.sessionUs], total := sat (c.total + 1) 16, lasting := false })
        0x10 (faultSource 14 0) false (faultPayload 14 0 n 0 false)))) ∧
  (∀ (s : State), live s = true → s.cipher.entropyFailed = false → 2 ≤ s.cipher.entropyStreak →
    ∃ t, exec .entropyHealthFail s = .next t ∧ t.cipher = { s.cipher with
      entropyStreak := s.cipher.entropyStreak + 1
      entropyFailed := true } ∧ t.flash = s.flash ∧ t.cmds = s.cmds ∧ t.berths = s.berths ∧ t.moorings = s.moorings) ∧
  (∀ (s : State) (k : Nat) (x : Slot), slotOf s k = some x →
    (x.kind = 1 → x.st = .live → 2 ^ 47 < x.ctr → rekeyFits s k x = true → s.cipher.entropyFailed = false →
      exec (.autoRekey k) s = .next (settle (rekeySlot s k))) ∧
    ((x.kind = 1 ∨ x.kind = 4) → x.chunk + 2 ^ 19 ≤ x.ctr →
      exec (.counterChunkReserve k) s = .next (settle
        (saveKey (updSlot s k (fun y => { y with chunk := y.chunk + 2 ^ 20 })) k)))) ∧
  (∀ (s : State) (q k : Nat) (x : Slot), s.cipher.rekey = some (q, k) → slotOf s k = some x →
    oldEpochItems s q x.epoch = [] → s.cipher.rekeyCkpt ≤ s.space.ckptSeq →
    let u := saveKey (updSlot s k (fun y => { y with shadows := x.shadows.filter (fun h => epochRefs s k h.epoch != 0) })) k
    exec .rekeySweepEnd s = .next (settle (raise { u with cipher := { u.cipher with rekey := nextSweep u, rekeyCkpt := 0 } } 6 2))) ∧
  (∀ (s : State) (k : Nat) (p : Pipe) (r w : Msg), pipeServes s k = true → s.cipher.pipes[k]? = some p →
    suspender p = some (r, w) → exec (.cipherSuspend k) s = .next (settle (bump (updPipe s k (fun p => { p with
      running := some w
      waiting := p.waiting.filter (fun x => x != w)
      saved := p.saved ++ [{ r with suspendedAt := s.sessionUs }] })) (regKey A.CP_PIPE_SUSPENDS k)))) ∧
  (∀ (p : Pipe) (r w : Msg), suspender p = some (r, w) ↔ p.running = some r ∧ bestMsg p.waiting = some w ∧
    w.prio < r.prio ∧ 256 < r.left ∧ p.saved.length < 64) ∧
  (∀ (s : State) (k : Nat) (p : Pipe) (m : Msg), pipeServes s k = true → s.cipher.pipes[k]? = some p →
    resumer s.sessionUs p = some m → exec (.cipherResume k) s = .next (settle (updPipe
      (bumpBy s (regKey A.CP_PIPE_BLOCKS k) (p.running.elim 0 Msg.left)) k
      (fun p => { p with running := some m, saved := p.saved.filter (fun x => x != m) })))) ∧
  (∀ (s : State) (j : Nat), freestPipe s = some j → j < 8 ∧ pipeServes s j = true ∧ ∃ p, s.cipher.pipes[j]? = some p ∧
    ∀ k < 8, ∀ q, pipeServes s k = true → s.cipher.pipes[k]? = some q →
      queuedBlocks p < queuedBlocks q ∨ (queuedBlocks p = queuedBlocks q ∧ j ≤ k)) ∧
  (∀ (mask : BitVec 256) (x : BitVec 128), (roundShares mask x).1 ^^^ (roundShares mask x).2 = x) ∧
  (∀ (mask key : BitVec 256), (keyShares mask key).1 ^^^ (keyShares mask key).2 = key) ∧
  (∀ (k domain : Nat) (p : Pipe) (m : Msg), p.running = some m →
    ∃ x, blockShares k domain p = some x ∧ x.1 ^^^ x.2 = counterBlock domain m) ∧
  (∀ (n : Nat) (g : MaskGen) (f : Bool), (g.requests + n < 2 ^ 32 → takeMasks f n g = { g with requests := g.requests + n }) ∧
    (2 ^ 32 ≤ g.requests + n → takeMasks false n g = { seeds := g.seeds + 1, requests := g.requests + n - 2 ^ 32 } ∧
      takeMasks true n g = { g with requests := g.requests + n })) ∧
  (∀ (s : State) (k : Nat), live s = true → pipeServes s k = true →
    (s.flash.otp.lineage = false → exec (.pipeUncorrectable k) s = .next (settle (countPipe (reissue s k) k))) ∧
    (∀ m, s.flash.otp.lineage = true → (s.cipher.pipes[k]?).bind Pipe.running = some m →
      exec (.pipeUncorrectable k) s = .next (decided (parityOutcome (raise (countPipe (reissue s k) k) 6 3) m.id))) ∧
    (s.flash.otp.lineage = true → (s.cipher.pipes[k]?).bind Pipe.running = none →
      exec (.pipeUncorrectable k) s = .next (decided (raise (countPipe (reissue s k) k) 6 3))) ∧
    (∀ csn, s.flash.otp.lineage = true →
      exec (.parityFault k csn) s = .next (decided (parityOutcome (raise (countPipe (reissue s k) k) 6 3) csn))) ∧
    (∀ csn, s.flash.otp.lineage = false → exec (.parityFault k csn) s = .next (settle s)))

/-- R26 to R28: the handshake watchdog, the path code and the scrub. An expiry counts once in BW_WDOG_COUNT, twice when the
second presentation expired too, and a fault against its unit; then the operation is reissued. The code corrects one symbol
of a word and detects two. A corrected error is counted against its location class; an uncorrectable word is counted, with
its fault, and acted on by where it lies: a clean leaf is dropped, a segment of a read not released, a posted write of
which something is left in the buffer reported, an engine's operation reissued. The model's own choices here: log entries
95 to 99, 154, 162, and 3 where an event does not hold. -/
def Obligations.WatchdogAndScrub : Prop :=
  (∀ (s : State) (u : WatchUnit), live s = true → watchUnitOk u = true →
    exec (.handshakeWatchdog u false) s = .next (decided (watchdogFault (bumpBy s A.BW_WDOG_COUNT 1) u)) ∧
    exec (.handshakeWatchdog u true) s = .next (decided (reissueOne (watchdogFault (bumpBy s A.BW_WDOG_COUNT 2) u) u))) ∧
  (∀ (s : State) (n : Nat), watchdogFault s (.engine n) =
      faultAct (bump s (A.EN_WDOG - 0x50000 + 0x1000 * (0x50 + n))) 0 n 0 ∧
    watchdogFault s (.channel n) = faultAct s 1 n 0 ∧ watchdogFault s (.indexDie n) = faultAct s 7 n 0 ∧
    watchdogFault s (.port .a) = faultAct s 2 0 0 ∧ watchdogFault s (.port .b) = faultAct s 2 1 0 ∧
    watchdogFault s .other = s) ∧
  (∀ (w : PathWord), (w.errors = [] → pathRead w = .clean ∧ pathReceived w = pathEncode w.data) ∧
    (∀ e, w.errors = [e] → pathRead w = .corrected ∧ pathData w = some w.data) ∧
    (∀ e f, w.errors = [e, f] → pathRead w = .uncorrectable ∧ pathData w = none)) ∧
  (∀ (d : BitVec 128) (a : Nat) (e : BitVec 4), a < 36 → e ≠ 0 → ∀ k, k < 36 →
    (pathSymbol (pathReceived ⟨d, [(a, e)]⟩) k = pathSymbol (pathEncode d) k ↔ k ≠ a)) ∧
  (∀ (s : State) (ch : Nat) (p : ScrubPlace) (w : PathWord), live s = true → ch < 8 →
    (pathRead w = .clean → exec (.dramScrub ch ⟨p, w⟩) s = .next (settle s)) ∧
    (pathRead w = .corrected → exec (.dramScrub ch ⟨p, w⟩) s = .next (settle (countPath s p false))) ∧
    (pathRead w = .uncorrectable → exec (.dramScrub ch ⟨p, w⟩) s =
      .next (decided (uncorrectable (pathFault (countPath s p true) ch p) p)))) ∧
  (∀ (s : State) (bad : Bool) (c : Nat), 
    let up := fun (k : Nat) =>
      { s with pathErrors := tabPut s.pathErrors (2 * k + flag bad) (tabGetD s.pathErrors (2 * k + flag bad) 0 + 1) }
    (countPath s (.posted c) bad = bump (up 0) (if bad then A.SY_DRAM_UNCORR else A.SY_DRAM_CORR)) ∧
    (c < 64 → countPath s (.engine c) bad = bump (up 1) (if bad then 0x5005C + 0x1000 * c else 0x50058 + 0x1000 * c)) ∧
    (∀ u again, countPath s (.link u again) bad = up 2) ∧ (∀ again, countPath s (.buffer c again) bad = up 3)) ∧
  (∀ (s : State) (b : Nat) (c : Chain), tabGet s.index.chains b = some c → c.dirtySince = none → c.pending = [] → c.readers = [] →
    uncorrectable s (.cleanLeaf b) = { s with index := { s.index with chains := tabErase s.index.chains b } }) ∧
  (∀ (s : State) (b n : Nat), n < 64 → uncorrectable s (.dirtyLeaf b) = s ∧ uncorrectable s .elsewhere = s ∧
    uncorrectable s (.engine n) = reissueOne s (.engine n))

/-- R365, R366, R371, R374: creating a record. It takes the next sequence number as it enters the staging ring, or the
holding ring while a freeze holds; where its ring has no room it takes no number and is counted: as lost during a freeze,
and otherwise in the counter of its TYPE and SOURCE, or as dropped when 256 such counters are in use. The model's own
choices here: log entries 83 to 89. -/
def Obligations.RecordsAreNumbered : Prop :=
  ∀ (s : State) (typ source : Nat) (crit ledger : Bool) (pay : List Byte),
    let r : LogRec := { seq := s.log.nextSeq, typ := typ, source := source, flags := if crit then 1 else 0, payload := pay,
                        ledger := ledger, createdAt := s.sessionUs, block := 0 }
    (s.log.frozen = none → s.log.media ≠ 3 → stagingRoom s.log (20 + max 4 pay.length) crit = true →
      logRecord s typ source crit pay ledger = { s with log := { s.log with
        nextSeq := s.log.nextSeq + 1
        staging := s.log.staging ++ [r]
        highWater := max s.log.highWater (s.log.staging.length + 1) } }) ∧
    (s.log.frozen ≠ none → holdingRoom s.log crit = true →
      logRecord s typ source crit pay ledger = { s with log := { s.log with
        nextSeq := s.log.nextSeq + 1
        holding := s.log.holding ++ [{ r with flags := if crit then 3 else 2 }] } }) ∧
    (s.log.frozen ≠ none → holdingRoom s.log crit = false →
      logRecord s typ source crit pay ledger = { s with log := { s.log with
        lostHeld := s.log.lostHeld + 1
        lostCritical := s.log.lostCritical + (if crit then 1 else 0)
        lostTotal := min (s.log.lostTotal + 1) 65535 } }) ∧
    (s.log.frozen = none → s.log.media ≠ 3 → stagingRoom s.log (20 + max 4 pay.length) crit = false →
      ((∃ c ∈ s.log.coalesce, c.typ = typ ∧ c.source = source) →
        logRecord s typ source crit pay ledger = bump { s with log := { s.log with
          coalesce := s.log.coalesce.map (fun c => if c.typ == typ && c.source == source then { c with count := c.count + 1 } else c) } }
          A.LB_COALESCED) ∧
      ((∀ c ∈ s.log.coalesce, c.typ = typ → c.source ≠ source) → s.log.coalesce.length < 256 →
        logRecord s typ source crit pay ledger = bump { s with log := { s.log with
          coalesce := s.log.coalesce ++ [⟨typ, source, 1⟩] } } A.LB_COALESCED) ∧
      ((∀ c ∈ s.log.coalesce, c.typ = typ → c.source ≠ source) → 256 ≤ s.log.coalesce.length →
        logRecord s typ source crit pay ledger = bump { s with log := { s.log with
          dropped := s.log.dropped + 1
          droppedCritical := s.log.droppedCritical + (if crit then 1 else 0) } } A.LB_DROPPED))

/-- R364: a word line. It takes records of one stream only, from the front of the ring and in their order, and none is
lost: those of the stream that it does not take, and all those of the other stream, stay staged as they were. The model's
own choices here: log entries 83 to 89. -/
def Obligations.WordLinesKeepOrder : Prop :=
  ∀ (ledger : Bool) (l line rest : List LogRec), packLine ledger l 0 0 = (line, rest) →
    (∀ r ∈ line, r.ledger = ledger) ∧ (line ++ rest).Perm l ∧
    l.filter (fun r => r.ledger == ledger) = line ++ rest.filter (fun r => r.ledger == ledger) ∧
    l.filter (fun r => r.ledger != ledger) = rest.filter (fun r => r.ledger != ledger)

/-- R364, R371, R373 to R375, R379, R380: the logbook's commands. A word line that is due is programmed, and its records
stand in their stream; counters are recorded once the ring is half empty; a stream whose region is full has its oldest
block erased and named; a program that fails is recorded ahead of its line, and writing goes on single, in the fallback
region, or in the SRAM ring; a freeze past its limit is ended. The model's own choices here: log entries 83 to 89, 199, and
3 where an event does not hold. -/
def Obligations.LogbookCommands : Prop :=
  (∀ (s : State) (r : LogRec) (rest : List LogRec), s.log.staging = r :: rest → flushDue s = true → s.power.holdUpReady = true →
    needsWrap s r.ledger = false → lineLost s r.ledger = false →
    exec .logFlush s = .next (settle (afterFlush (countLine (flushLine s r.ledger) r.ledger)))) ∧
  (∀ (s : State), s.power.holdUpReady = false → exec .logFlush s = .next (settle s)) ∧
  (∀ (s : State) (b : Bool), ∃ r, countLine s b = { s with regs := r }) ∧
  (∀ (s : State) (b : Bool), (flushLine s b).log = { s.log with staging := (packLine b s.log.staging 0 0).2 } ∧
    streamOf (flushLine s b) (!b) = streamOf s (!b)) ∧
  (∀ (s : State), s.log.staging.length < 3584 → stagedBytes s.log.staging < 1835008 →
    let u := s.log.coalesce.foldl
      (fun v c => logRecord v 3 (src 4 0) false (leBytes c.typ 2 ++ leBytes c.source 2 ++ leBytes c.count 4))
      { s with log := { s.log with coalesce := [], dropped := 0, droppedCritical := 0 } }
    exec .coalesced s = .next (settle (if s.log.dropped = 0 then u
      else logRecord u 4 (src 4 0) true (leBytes s.log.dropped 4 ++ leBytes s.log.droppedCritical 4)))) ∧
  (∀ (s : State) (b : Bool), s.log.media ≠ 3 → s.power.holdUpReady = true → (s.log.frozen = none ∨ s.log.freezeWait ≠ none) →
    needsWrap s b = true → (∃ r ∈ s.log.staging, r.ledger = b) →
    exec (.wrapped b) s = .next (settle (wrapStream s b))) ∧
  (∀ (s : State) (b : Bool) (old : LogBlock), oldestBlock s b = some old →
    (streamOf (wrapStream s b) b).recs = (streamOf s b).recs.filter (fun r => r.block != old.use) ∧
    (streamOf (wrapStream s b) b).wraps = (streamOf s b).wraps + 1) ∧
  (∀ (s : State) (r : LogRec) (rest : List LogRec), s.log.staging = r :: rest → flushDue s = true → s.power.holdUpReady = true →
    (∀ (block copy : Nat), s.log.media ≤ 1 → lineBlock s r.ledger = some block → copy < 2 →
      let k := block % 2 + 2 * copy
      copyRetired s k block = false → copyRetired s (block % 2 + 2 * (1 - copy)) block = false →
      exec (.logMediaFailed (.oneCopy (logDies.getD k 0) block)) s = .next (settle (
        let u := mediaRecord { s with flash := { s.flash with logRetired := s.flash.logRetired ++ [(k, block)] } } 1 copy block r.ledger
        { u with log := { u.log with media := if u.log.media = 0 then 1 else u.log.media } }))) ∧
    (∀ block, s.log.media ≤ 1 → lineBlock s r.ledger = some block →
      exec (.logMediaFailed (.bothCopies block)) s = .next (settle (
        let u := retireCopy (retireCopy s (block % 2) block) (block % 2 + 2) block
        raise (mediaRecord { u with log := { u.log with media := 2 } } 2 0 block r.ledger) 3 1))) ∧
    (∀ block, s.log.media = 2 → lineBlock s r.ledger = some block →
      exec (.logMediaFailed (.fallback block)) s = .next (settle (toVolatile s block r.ledger)))) ∧
  (∀ (s : State) (f : Freeze), s.log.frozen = some f → f.since + 1000000 * fieldOf s A.LB_FREEZE 15 0 ≤ s.sessionUs →
    exec .freezeTimeout s = .next (settle (endFreeze s f.owner 2))) ∧
  (∀ (s : State) (m cause : Nat), (endFreeze s m cause).log.frozen = none ∧ (endFreeze s m cause).log.holding = [])

/-- R54, R56, R66, R376, R475: the private transfers of the sideband, once the drive is addressed. A read returns at most
64 words from the address last written, none past the end of its page; a word outside SY, HM and LB, or not aligned, reads
as zeros and is recorded, a longer read once; a write is acknowledged whether or not it is accepted; a malformed or
timed-out transfer is counted, a write without its STOP only holds when its transfer began; reading LB_SB_NEWEST or
LB_SB_OLDER moves the ledger cursor. To a drive that is not addressed nothing happens. The model's own choices here: log
entries 92, 93, 150, 190. -/
def Obligations.SidebandTransfers : Prop :=
  (∀ (s : State) (n : Nat), addressed s = true →
    let r := sbRead (min n (min 64 ((0x1003 - s.sideband.address % 0x1000) / 4))) (endTransfer s) s.sideband.address
    exec (.i3cPrivateRead n) s = .next (settle { r.1 with out := r.1.out ++ [.i3cWords r.2] })) ∧
  (∀ (s : State) (k a : Nat), (sbRead k s a).2.length = k) ∧
  (∀ (s : State) (k a : Nat), 0 < k →
    (sbPage (a / 0x1000) = false → sbRead k s a = (recordRead s a .auth, List.replicate k 0)) ∧
    (sbPage (a / 0x1000) = true → a % 4 ≠ 0 → sbRead k s a = (recordRead s a .range, List.replicate k 0))) ∧
  (∀ (s : State) (a : Nat), sbPage (a / 0x1000) = false → sbReadWord s a = (recordRead s a .auth, 0)) ∧
  (∀ (s : State) (a : Nat), sbPage (a / 0x1000) = true → a % 4 ≠ 0 → sbReadWord s a = (recordRead s a .range, 0)) ∧
  (∀ (s : State) (a : Nat), sbPage (a / 0x1000) = true → a % 4 = 0 → a ≠ A.LB_SB_NEWEST → a ≠ A.LB_SB_OLDER →
    sbReadWord s a = readReg s true a) ∧
  (∀ (s : State), endTransfer s = { s with sideband := { s.sideband with openSince := none } }) ∧
  (∀ (s : State) (w : I3cWrite), addressed s = true → w.stop = false → exec (.i3cPrivateWrite w) s = .next (settle
    { s with sideband := { s.sideband with openSince := some (s.sessionUs - w.tookUs) } })) ∧
  (∀ (s : State) (w : I3cWrite), addressed s = true → w.stop = true → w.wellFormed = true →
    w.tookUs ≤ fieldOf s A.BW_I3C_TMO 15 0 →
    let u := { s with sideband := { s.sideband with address := w.address % 2 ^ 24, openSince := none } }
    (w.data = none → exec (.i3cPrivateWrite w) s = .next (decided { u with out := u.out ++ [.i3cAck true] })) ∧
    (∀ d, w.data = some d → let v := (writeRegs u 1 0 0 (w.address % 2 ^ 24) 0 none [d]).1
      exec (.i3cPrivateWrite w) s = .next (decided { v with out := v.out ++ [.i3cAck true] }))) ∧
  (∀ (s : State) (w : I3cWrite), addressed s = true →
    let u := bump s (A.BW_REJ_COUNT + 4 * 7)
    let v := { u with sideband := { u.sideband with protocolError := true, openSince := none } }
    (w.stop = true → (w.wellFormed = false ∨ fieldOf s A.BW_I3C_TMO 15 0 < w.tookUs) →
      exec (.i3cPrivateWrite w) s = .next (settle v)) ∧
    (∀ start, s.sideband.openSince = some start →
      (start + fieldOf s A.BW_I3C_TMO 15 0 < s.sessionUs → exec .i3cTransferTimeout s = .next (settle v)) ∧
      (s.sessionUs ≤ start + fieldOf s A.BW_I3C_TMO 15 0 → exec .i3cTransferTimeout s = .next (settle s))) ∧
    (s.sideband.openSince = none → exec .i3cTransferTimeout s = .next (settle s))) ∧
  (∀ (s : State), addressed s = true →
    exec .lbSbNewest s = .next (settle (sbReadOne s A.LB_SB_NEWEST)) ∧
    exec .lbSbOlder s = .next (settle (sbReadOne s A.LB_SB_OLDER))) ∧
  (∀ (s : State),
    (moveCursor s A.LB_SB_NEWEST).sideband.cursor = s.flash.ledger.recs.getLast?.map LogRec.seq ∧
    (∀ q, s.sideband.cursor = some q → (moveCursor s A.LB_SB_OLDER).sideband.cursor = olderSeq s q)) ∧
  (∀ (s : State) (n : Nat) (w : I3cWrite), addressed s = false →
    exec (.i3cPrivateRead n) s = .next (settle s) ∧ exec (.i3cPrivateWrite w) s = .next (settle s) ∧
    exec .i3cTransferTimeout s = .next (settle s) ∧ exec .lbSbNewest s = .next (settle s) ∧ exec .lbSbOlder s = .next (settle s))

/-- R400, R472 to R475: the common command codes and the sideband's quote. ENEC and DISEC are acknowledged; RSTDAA clears
the dynamic address, ENTDAA gives one to a drive whose straps are read or failed, SETNEWDA changes it; GETMWL, GETMRL,
GETPID, GETBCR, GETDCR and GETSTATUS answer their bytes; a quote is made once at a time from a 32-byte nonce. The model's
own choices here: log entries 92, 93. -/
def Obligations.SidebandCodes : Prop :=
  (∀ (s : State), sidebandUp s = true →
    exec .enec s = .next (settle { s with out := s.out ++ [.i3cAck true] }) ∧
    exec .disec s = .next (settle { s with out := s.out ++ [.i3cAck true] }) ∧
    exec .rstdaa s = .next (settle { s with sideband := { s.sideband with dynamicAddr := none } })) ∧
  (∀ (s : State) (a : Nat), sidebandUp s = true → s.sideband.dynamicAddr = none →
    (s.power.strapValid = true ∨ s.power.strapFailed = true) →
    exec (.entdaa a) s = .next (settle { s with
      sideband := { s.sideband with dynamicAddr := some a }
      out := s.out ++ [.i3cBytes (pidBytes s ++ [0, 0])] })) ∧
  (∀ (s : State) (a : Nat), addressed s = true →
    exec (.setnewda a) s = .next (settle { s with
      sideband := { s.sideband with dynamicAddr := some a }
      out := s.out ++ [.i3cAck true] }) ∧
    exec .getmwl s = .next (settle { s with out := s.out ++ [.i3cBytes [0x00, 0x08]] }) ∧
    exec .getmrl s = .next (settle { s with out := s.out ++ [.i3cBytes [0x01, 0x00]] }) ∧
    exec .getpid s = .next (settle { s with out := s.out ++ [.i3cBytes (pidBytes s)] }) ∧
    exec .getbcr s = .next (settle { s with out := s.out ++ [.i3cBytes [0x00]] }) ∧
    exec .getdcr s = .next (settle { s with out := s.out ++ [.i3cBytes [0x00]] }) ∧
    exec .getstatus s = .next (settle { s with
      out := s.out ++ [.i3cBytes (beBytes (4096 * flag s.boot.quoteReady + 256 * s.phase + 32 * flag s.sideband.protocolError) 2)]
      sideband := { s.sideband with protocolError := false } })) ∧
  (∀ (s : State) (x : List Byte), addressed s = true →
    (x.length = 32 → s.boot.quoteBusy = false → exec (.quoteReq x) s = .next (settle { s with boot := { s.boot with
      quoteBusy := true, quoteReady := false, quoteFailed := false, quoteNonce := x } })) ∧
    (x.length = 32 → s.boot.quoteBusy = true → exec (.quoteReq x) s = .next (settle { s with boot := { s.boot with
      quoteIgnored := min (s.boot.quoteIgnored + 1) 65535 } })) ∧
    (x.length ≠ 32 → exec (.quoteReq x) s = .next (settle (bump s (A.BW_REJ_COUNT + 4 * 7))))) ∧
  (∀ (s : State), s.boot.quoteBusy = true →
    (keysPresent s = true → exec .sidebandQuoteReady s = .next (settle { s with boot := { s.boot with
      quoteBusy := false, quoteReady := true, quoteFailed := false, quoteBytes := quoteOf s s.boot.quoteNonce } })) ∧
    (keysPresent s = false → exec .sidebandQuoteReady s = .next (settle { s with boot := { s.boot with
      quoteBusy := false, quoteReady := false, quoteFailed := true, quoteBytes := [] } })))

/-- R54, R66: the sideband's reads and codes leave the drive's data alone. Whatever the drive's state, each of them has a
next state in which all that lies in flash, the commands, berths, moorings, seals and sequencer, the log, the cipher's
keys, the index and the array, the tide, the update and the harbour are as they were. The model's own choices here: log
entries 92, 93, 190. -/
def Obligations.SidebandLeavesData : Prop :=
  ∀ (s : State) (n : Nat) (x : List Byte) (c : Instr),
    c ∈ [.i3cPrivateRead n, .i3cTransferTimeout, .lbSbNewest, .lbSbOlder, .enec, .disec, .rstdaa, .entdaa n, .setnewda n, .getmwl,
         .getmrl, .getpid, .getbcr, .getdcr, .getstatus, .quoteReq x, .sidebandQuoteReady] →
    ∃ t, exec c s = .next t ∧ t.pending = s.pending ∧ t.flash = s.flash ∧ t.cmds = s.cmds ∧ t.berths = s.berths ∧
      t.moorings = s.moorings ∧ t.seals = s.seals ∧ t.seqr = s.seqr ∧ t.log = s.log ∧ t.cipher = s.cipher ∧ t.index = s.index ∧
      t.dies = s.dies ∧ t.careen = s.careen ∧ t.sensors = s.sensors ∧ t.tide = s.tide ∧ t.engines = s.engines ∧
      t.update = s.update ∧ t.harbour = s.harbour ∧ t.mode = s.mode ∧ t.power = s.power ∧ t.phase = s.phase ∧
      t.boot.mr = s.boot.mr ∧ t.boot.stage = s.boot.stage

/-- R81, R82: the steps of a link's bring-up, each when its command finds the port at that step. Detect finds a usable
port; the highest mode that both ends advertise is trained, and with none bring-up begins again; training that fails a
third time drops its mode; lock brings the link up, with its event, and RATE_CHANGED when its lanes differ from the last;
without lock bring-up begins again. A link that is lost goes down, and a lost lane is counted as a fault. The model's own
choices here: log entries 52, and 3 where an event does not hold. -/
def Obligations.LinkBringUp : Prop :=
  (∀ (s : State) (p : Port), (linkOf s p).phase = .detect → portUsable s p = true →
    exec (.linkDetect p) s = .next (settle (setLink s p { linkOf s p with phase := .autoneg }))) ∧
  (∀ (s : State) (p : Port), (linkOf s p).phase = .autoneg →
    (∀ peer, (∀ k ∈ [4, 2, 1], k ∈ peer → modeUsable s p k = true → k ∈ (linkOf s p).dropped) →
      exec (.autonegotiation p peer) s = .next (settle (setLink s p { linkOf s p with phase := .detect }))) ∧
    (∀ peer k, k ∈ [4, 2, 1] → k ∈ peer → modeUsable s p k = true → k ∉ (linkOf s p).dropped →
      (∀ j ∈ [4, 2, 1], k < j → j ∈ peer → modeUsable s p j = true → j ∈ (linkOf s p).dropped) →
      exec (.autonegotiation p peer) s =
        .next (settle (setLink s p { linkOf s p with phase := .training, tryLanes := k, trainFails := 0 })))) ∧
  (∀ (s : State) (p : Port), (linkOf s p).phase = .training →
    exec (.training p true) s = .next (settle (setLink s p { linkOf s p with phase := .fecLock })) ∧
    ((linkOf s p).trainFails < 2 → exec (.training p false) s =
      .next (settle (setLink s p { linkOf s p with trainFails := (linkOf s p).trainFails + 1 }))) ∧
    (2 ≤ (linkOf s p).trainFails → exec (.training p false) s = .next (settle (setLink s p { linkOf s p with
      phase := .autoneg, trainFails := 0, dropped := (linkOf s p).tryLanes :: (linkOf s p).dropped })))) ∧
  (∀ (s : State) (p : Port), (linkOf s p).phase = .fecLock →
    exec (.fecLock p false) s = .next (settle (setLink s p { linkOf s p with phase := .detect })) ∧
    (let n := (linkOf s p).tryLanes
     let u := raise (setLink s p { linkOf s p with
       phase := .up, lanes := n, firstLane := (laneSet (linkOf s p) n).getD 0, lastLanes := n }) (portPage p) 0
     exec (.fecLock p true) s = .next (settle (if (linkOf s p).lastLanes = n then u else raise u (portPage p) 3)))) ∧
  (∀ (s : State) (p : Port), (linkOf s p).phase = .up →
    exec (.linkLost p none) s = .next (settle (linkDown s p)) ∧
    (∀ k, let r := faultOccur s 3 (4 * portNum p + k) 0
      (r.2 = false → exec (.linkLost p (some k)) s = .next (settle (linkDown r.1 p))) ∧
      (r.2 = true → exec (.linkLost p (some k)) s = .next (settle (linkDown (raise (setLink r.1 p
        { linkOf r.1 p with laneFailed := k :: (linkOf r.1 p).laneFailed }) (portPage p) 2) p))))) ∧
  (∀ (s : State) (p : Port) (k : Option Nat), (linkOf s p).phase ≠ .up → exec (.linkLost p k) s = .next (settle s))

/-- R66, R85, R86, R102: address resolution, echo and the capsule's frame gap. An ARP request or a neighbour solicitation
for an address the port holds is answered to its source; an echo request likewise, at most 100 in a second, with DF set and
a hop limit of 64; a frame that fails checks 1 to 4 of R93 is discarded and counted. A capsule whose next frame is late
ends, and its later frames are dropped. The model's own choices here: log entries 39 to 50, 156, 163, 164, 189. -/
def Obligations.AnswersAndFrameGap : Prop :=
  (∀ (s : State) (r : Rx) (a : Nat), let u := arrive s r
    r.fcsOk = true → r.size ≤ 9216 → vlanOk u r = true → r.ether = .arp → a ≠ 0 →
    a = ipv4Of u r.port → bit (regGet u (npAddr r.port A.NP_IP_CTRL)) 1 = true →
    exec (.arpRequest r a) s = .next (settle (emitOn (countAccepted u r.port) r.port
      { replyTo u r false 0 0 (arpReplyBytes (portMac u r.port) a r.ethSrc r.ipSrc) with proto := 0, ipSrc := a }
      (.arpReply r.port r.ethSrc r.ipSrc)))) ∧
  (∀ (s : State) (r : Rx) (a : Nat), (r.fcsOk = false ∨ 9216 < r.size) →
    exec (.arpRequest r a) s = .next (settle (discard (arrive s r) r.port 0))) ∧
  (∀ (s : State) (r : Rx) (a : Nat), let u := arrive s r
    r.fcsOk = true → r.size ≤ 9216 → vlanOk u r = true → r.ether = .ipv6 →
    r.ipHeaderOk = true → r.fragment = false → ownsIpv6 u r.port a = true →
    bit (regGet u (npAddr r.port A.NP_IP_CTRL)) 0 = true →
    exec (.neighbourSolicitation r a) s = .next (settle (emitOn (countAccepted u r.port) r.port
      { replyTo u r false 0 0 (neighbourBytes (portMac u r.port) a) with proto := 58, ipSrc := a }
      (.neighbourAdvert r.port r.ethSrc r.ipSrc)))) ∧
  (∀ (s : State) (r : Rx) (msg : List Byte), let w := arrive s r
    (∀ k, ipCheck w r (if r.ether = .ipv6 then [58] else [1]) = some k →
      exec (.echoRequest ⟨r, msg⟩) s = .next (settle (discard w r.port k))) ∧
    (let u := countAccepted w r.port
     let l := linkOf s r.port
     let now := s.sessionUs / 1000000
     let n := if l.echoSecond = now then l.echoCount else 0
     ipCheck w r (if r.ether = .ipv6 then [58] else [1]) = none →
      (n < 100 → linkUp s r.port = true → exec (.echoRequest ⟨r, msg⟩) s = .next (settle (
        let v := setLink u r.port { l with echoSecond := now, echoCount := n + 1 }
        emitOn v r.port { replyTo v r false 0 0 (echoBytes (r.ether == .ipv6) msg) with
          proto := if (r.ether == .ipv6) = true then 58 else 1 } (.echoReply r.port r.ethSrc r.ipSrc)))) ∧
      ((100 ≤ n ∨ linkUp s r.port = false) → exec (.echoRequest ⟨r, msg⟩) s = .next (settle u)))) ∧
  (∀ (s : State) (r : Rx), (∃ x, arrive s r = { s with regs := x }) ∧
    ∀ k, k ∉ [npAddr r.port A.NP_FEC_CORR, npAddr r.port A.NP_FEC_UNCORR, npAddr r.port A.NP_CE_RX] →
      regGet (arrive s r) k = regGet s k) ∧
  (∀ (s : State) (r : Rx) (a : Bool) (flow port : Nat) (bs : List Byte),
    (replyTo s r a flow port bs).df = true ∧ (replyTo s r a flow port bs).hops = 64 ∧
    (replyTo s r a flow port bs).ipDst = r.ipSrc ∧ (replyTo s r a flow port bs).ethDst = r.ethSrc ∧
    (replyTo s r a flow port bs).ethSrc = portMac s r.port) ∧
  (∀ (s : State) (p : Port) (e : Envelope) (o : Output),
    (linkUp s p = true → emitOn s p e o = bump { s with out := s.out ++ [.sent e (wireBytes e) o] } (npAddr p A.NP_TX_FRAMES)) ∧
    (linkUp s p = false → emitOn s p e o = s)) ∧
  (∀ (s : State) (n : Nat) (b : Berth) (a : Partial), berthOf s n = some b → b.asm = some a →
    a.lastFrameAt + 1000 * fieldOf s A.BW_CAPSULE_TMO 15 0 ≤ s.sessionUs →
    exec (.capsuleFrameGapTimeout n) s = .next (settle (updBerth (endPartial s n b) n (fun b => { b with rx := .dropping }))))

/-- R90, R93, R101 to R103, R108, R113: tagged frames. A frame that fails a check is discarded, once it is counted by the
check's class, one of another TYPE at check 6; a duplicate is acknowledged again, and a frame of no line may be answered
with STALE; a tag passes under the key of the frame's phase only; an accepted DATA or CLOSE is held and delivered in order,
and an ACK only acknowledges, at once with ACK_NOW. Acknowledgement, path moves and retransmission touch no record, command
or CSN. A CLOSING mooring with nothing left to finish is closed: the frame goes, its record is written, and its berths and
slots are free. The model's own choices here: log entries 39 to 50, 156, 163, 164. -/
def Obligations.FramesAreChecked : Prop :=
  (∀ (s : State) (f : Frame),
    (∀ u, receive s 0x10 true f = (u, none) → exec (.data f) s = .next (decided u)) ∧
    (∀ u, receive s 0x12 true f = (u, none) → exec (.close f) s = .next (decided u)) ∧
    (∀ u, receive s 0x11 false f = (u, none) → exec (.ack f) s = .next (decided u)) ∧
    (∀ u l, receive s 0x10 true f = (u, some l) → exec (.data f) s = .next (decided (acceptSequenced u l f false (deliverOn l)))) ∧
    (∀ u l, receive s 0x12 true f = (u, some l) → exec (.close f) s = .next (decided (acceptSequenced u l f true (deliverOn l)))) ∧
    (∀ u l, receive s 0x11 false f = (u, some l) →
      exec (.ack f) s = .next (decided (if f.head.flags.getLsbD 10 = true then sendAck u l else u)))) ∧
  (∀ (s : State) (q : Bool) (typ : Nat) (f : Frame) (k : Nat), let u := arrive s f.rx
    frameCheck u f.rx f.head typ f.payload.length = some k →
    receive s typ q f = (bump (bump u (npAddr f.rx.port A.NP_DISCARD + 4 * k)) A.BW_REJ_COUNT, none)) ∧
  (∀ (s : State) (r : Rx) (h : Head) (typ n : Nat), ipCheck s r [17] = none → udpOk r (servedPort s r) = true → h.typ ≠ typ →
    frameCheck s r h typ n = some 5) ∧
  (∀ (s : State) (q : Bool) (typ : Nat) (f : Frame), let u := arrive s f.rx
    frameCheck u f.rx f.head typ f.payload.length = none → lineServes u f = false → receive s typ q f = (unserved u f, none)) ∧
  (∀ (s : State) (f : Frame) (t : Transport) (a b : Nat), let u := arrive s f.rx
    frameCheck u f.rx f.head a f.payload.length = none → frameCheck u f.rx f.head b f.payload.length = none →
    lineServes u f = true → tpOf u (lineOf s f) = some t →
    (received t f.head.seq = true → receive s a true f = (sendAck (discard u f.rx.port 7) (lineOf s f), none)) ∧
    (received t f.head.seq = false → inWindow t f.head.seq = false → receive s a true f = (discard u f.rx.port 7, none)) ∧
    (received t f.head.seq = false → inWindow t f.head.seq = true → tagPasses t f = false →
      receive s a true f = (tagFailure u f.rx.port, none)) ∧
    (tagPasses t f = false → receive s b false f = (tagFailure u f.rx.port, none)) ∧
    (received t f.head.seq = false → inWindow t f.head.seq = true → tagPasses t f = true → f.tag ≠ .next →
      receive s a true f = (acceptFrame u (lineOf s f) f, some (lineOf s f)) ∧
      receive s b false f = (acceptFrame u (lineOf s f) f, some (lineOf s f)))) ∧
  (∀ (t : Transport) (f : Frame), (tagPasses t f = true ↔
    (f.tag = .current ∧ f.head.flags.getLsbD 15 = t.recvPhase) ∨
    (f.tag = .next ∧ f.head.flags.getLsbD 15 ≠ t.recvPhase) ∨
    (f.tag = .previous ∧ f.head.flags.getLsbD 15 ≠ t.recvPhase ∧ t.oldEpoch ≠ none))) ∧
  (∀ (s : State) (l : Line) (f : Frame) (ack window seq : Nat) (sack : BitVec 32) (ece cwr : Bool) (u : State),
    u ∈ [processAck s l ack sack window ece cwr, movePath s l f, resend s l seq, sendAck s l] →
    u.flash = s.flash ∧ u.cmds = s.cmds ∧ u.seqr = s.seqr ∧ u.seals = s.seals ∧ u.index = s.index ∧ u.space = s.space ∧
    u.cipher = s.cipher ∧ u.mode = s.mode) ∧
  (∀ (r : Rx) (port : Nat), udpOk r port = true ↔ r.srcUdpPort = port ∧ r.dstUdpPort = port ∧ r.udpLengthOk = true ∧
    (r.udpSum = .good ∨ r.udpSum = .zero ∧ r.ether = .ipv4)) ∧
  (∀ (s : State) (id : Nat) (m : Mooring), mooringOf s id = some m → closable s m = true →
    exec (.closed (.mooring id)) s = .next (decided (
      let u := logRecord (sendTagged s (.mooring id) 0x13 0 m.tp.sendSeq false false []) 0x0030 (src 12 0) false
        (leBytes id 2 ++ leBytes m.role 1 ++ [0] ++ leBytes m.subject 8)
      freeMooring (releaseOwned u id) id m))) ∧
  (∀ (s : State) (t : Nat) (x : Towline), tabGet s.harbour.towlines t = some x → towlineClosable s t x = true →
    exec (.closed (.towline t)) s = .next (settle (freeTowline
      (sendTagged s (.towline t) 0x13 0 x.tp.sendSeq false false []) t x)))

/-- R95, R97 to R100, R386, R437: handshakes. A HELLO with good fields is held and answered with WELCOME; repeated, it is
answered again, as it was; with 64 held it is discarded, and one that step 1 refuses gets REFUSE, which is kept. A
HOST_AUTH whose tag is good ends its handshake, its traffic secrets derived from th3: with a bad chain or signature it is
refused and takes nothing; else the mooring or the towline is opened. A handshake not finished in MO_HS_TMO is dropped. The
model's own choices here: log entries 39 to 50, 157, 165, 175. -/
def Obligations.Handshakes : Prop :=
  (∀ (w : State) (rx : Rx) (head : Head) (b : HelloBody), let s := arrive w rx
    frameCheck s rx head 1 136 = none → answersHello s rx.port = true →
    s.phase < 3 → s.cipher.meshTripped = false → s.cipher.entropyFailed = false → s.cipher.alarm ≠ .settle →
    (∀ h, handshakeOf s rx.ipSrc rx.srcUdpPort b.random = some h →
      exec (.hello rx head b) w = .next (settle (sendWelcome (countAccepted s rx.port) rx h))) ∧
    (∀ a, handshakeOf s rx.ipSrc rx.srcUdpPort b.random = none → answeredOf s rx.ipSrc rx.srcUdpPort b.random = some a →
      exec (.hello rx head b) w = .next (settle (emitOn (countAccepted s rx.port) rx.port (handshakeReply s rx 0 a.hello.2) a.hello.1))) ∧
    (handshakeOf s rx.ipSrc rx.srcUdpPort b.random = none → answeredOf s rx.ipSrc rx.srcUdpPort b.random = none →
      (64 ≤ s.handshakes.length → exec (.hello rx head b) w = .next (settle (discard s rx.port 9))) ∧
      (∀ st, s.handshakes.length < 64 → helloStatus s b (onTowPort s rx) = some st → exec (.hello rx head b) w =
        .next (settle (refuseHello s rx b.random st))) ∧
      (s.handshakes.length < 64 → helloStatus s b (onTowPort s rx) = none →
        ∃ h : Handshake, h.ipSrc = rx.ipSrc ∧ h.udpPort = rx.srcUdpPort ∧ h.random = b.random ∧ h.port = rx.port ∧
          h.helloAt = s.sessionUs ∧ h.berths = b.berths ∧ h.maxPayload = b.maxPayload ∧ h.towline = onTowPort s rx ∧
          h.hello = b ∧ h.cert = presentedCert s (onTowPort s rx) ∧ h.draw = s.draws ∧ h.sendCtr = 0 ∧
          exec (.hello rx head b) w = .next (settle (sendWelcome (countAccepted
            { s with handshakes := s.handshakes ++ [h], draws := s.draws + 1 } rx.port) rx h))))) ∧
  (∀ (s : State) (rx : Rx) (h : Handshake), ∃ r o, sendWelcome s rx h =
    { s with handshakes := s.handshakes.map (fun x => if x = h then { h with sendCtr := h.sendCtr + 1 } else x), regs := r, out := o }) ∧
  (∀ (w : State) (rx : Rx) (head : Head) (b : HelloBody) (k : Nat), frameCheck (arrive w rx) rx head 1 136 = some k →
    exec (.hello rx head b) w = .next (settle (discard (arrive w rx) rx.port k))) ∧
  (∀ (w : State) (f : Frame) (random : Nat) (b : AuthBody) (h : Handshake), let s := arrive w f.rx
    frameCheck s f.rx f.head 3 (100 + 324 * b.certs.length) = none → handshakeOf s f.rx.ipSrc f.rx.srcUdpPort random = some h →
    let p := f.rx.port
    let u := dropHandshake s h
    let g : Handshake := { h with port := p, ethSrc := f.rx.ethSrc, ipv6 := f.rx.ether == .ipv6, ipDst := f.rx.ipDst }
    (f.tag ≠ .current → exec (.hostAuth f random b) w = .next (settle (tagFailure s p))) ∧
    (f.tag = .current → (b.certCount ≠ b.certs.length ∨ b.reserved ≠ 0 ∨ chainOk u b.certs h.towline = false ∨ b.hostSigOk = false) →
      exec (.hostAuth f random b) w = .next (settle (refuseAuth u f.rx g .auth))) ∧
    (f.tag = .current → b.certCount = b.certs.length → b.reserved = 0 → chainOk u b.certs h.towline = true → b.hostSigOk = true →
      exec (.hostAuth f random b) w = .next (settle (if h.towline then authTowline u f.rx g f.head.window b
        else authMooring u f.rx g f.head.window b)))) ∧
  (∀ (s : State) (rx : Rx) (h : Handshake) (st : Status), let t := refuseAuth s rx h st
    t.moorings = s.moorings ∧ t.berths = s.berths ∧ t.cipher = s.cipher ∧ t.harbour = s.harbour) ∧
  (∀ (s : State) (rx : Rx) (random : Nat) (st : Status), let t := refuseHello s rx random st
    t.moorings = s.moorings ∧ t.berths = s.berths ∧ t.cipher = s.cipher ∧ t.harbour = s.harbour ∧ t.handshakes = s.handshakes ∧
    ∃ a ∈ t.answered, a.ipSrc = rx.ipSrc ∧ a.udpPort = rx.srcUdpPort ∧ a.random = random ∧
      a.auth = none ∧ a.hello = refuseOf rx random st (tableHint s st)) ∧
  (∀ (h : Handshake) (k : Nat) (b : AuthBody),
    h.th1 = thOne h.hello (welcomeClear h.draw) ∧
    h.driveSig k = identitySign k "FLT-D" (h.th1 ++ h.cert) ∧
    h.secrets k b = (trafficSecret h.hs (thThree h.th1 h.cert (h.driveSig k) (b.certs.flatMap Cert.bytes) b.hostSig) false,
      trafficSecret h.hs (thThree h.th1 h.cert (h.driveSig k) (b.certs.flatMap Cert.bytes) b.hostSig) true)) ∧
  (∀ (s : State) (ip port random : Nat) (h : Handshake), handshakeOf s ip port random = some h →
    h.helloAt + 1000 * fieldOf s A.MO_HS_TMO 15 0 ≤ s.sessionUs →
    exec (.handshakeTimeout ip port random) s =
      .next (settle { s with handshakes := s.handshakes.filter (fun x => x != h) }))

/-- R101, R103 to R106, R114: the timers of a line. An acknowledgement delayed 20 µs is sent, and another after 2.5 s of
silence; a frame not covered in time is sent again with the timeout doubled and the window at 2, and its 12th expiry ends
the line; MO_IDLE_TMO of silence ends it too; a mooring torn down goes once it has drained; an old epoch is released when
all under it has arrived or after 100 ms; a rekey refused for 100 ms ends the line; the drive rekeys after 2^30 frames. The
model's own choices here: log entries 43, 45, 50, 155, and 3 where an event does not hold. -/
def Obligations.LineTimers : Prop :=
  (∀ (s : State) (l : Line) (t : Transport), tpOf s l = some t → lineUp s l = true →
    (0 < t.ackPending → t.ackSince + 20 ≤ s.sessionUs → exec (.ackDelayExpiry l) s = .next (settle (sendAck s l))) ∧
    (t.lastTx + 2500000 ≤ s.sessionUs → exec (.idleAck l) s = .next (settle (sendAck s l)))) ∧
  (∀ (s : State) (l : Line) (t : Transport) (q : Nat) (f : TxFrame), tpOf s l = some t →
    t.unacked.find? (fun f => f.seq == q && !f.sacked && decide (f.sentAt + t.rtoUs ≤ s.sessionUs)) = some f →
    (f.expiries < 11 → exec (.retransmissionTimeout l q) s = .next (settle (resend (updTp s l (fun t => { t with
      rtoUs := min 100000 (2 * (((tpOf s l).map Transport.rtoUs).getD 0))
      cwnd := 2
      cwndAcked := 0
      unacked := t.unacked.map (fun g => if g.seq = q then { g with expiries := g.expiries + 1 } else g) })) l q))) ∧
    (11 ≤ f.expiries → exec (.retransmissionTimeout l q) s = .next (decided (teardownLine s l 2)))) ∧
  (∀ (s : State) (l : Line) (t : Transport), tpOf s l = some t →
    (t.lastRx + 1000000 * fieldOf s A.MO_IDLE_TMO 15 0 ≤ s.sessionUs →
      exec (.idleTimeout l) s = .next (decided (teardownLine s l 1))) ∧
    (∀ since first, t.oldEpoch = some (since, first) → (since + 100000 ≤ s.sessionUs ∨ seqLt t.recvAck first = false) →
      exec (.oldEpochRelease l) s = .next (settle (updTp (updSlot s (recvSlotOf s l) (fun x => { x with shadows := [] })) l
        (fun t => { t with oldEpoch := none })))) ∧
    (∀ since, t.rekeyRefusedSince = some since → since + 100000 ≤ s.sessionUs →
      exec (.rekeyRefusalTimeout l) s = .next (decided (teardownLine s l 8))) ∧
    (∀ u, 2 ^ 30 ≤ t.framesUnderKey → rekeySend s l (sendSlotOf s l) = some u →
      exec (.driveRekey l) s = .next (settle u)) ∧
    (2 ^ 30 ≤ t.framesUnderKey → rekeySend s l (sendSlotOf s l) = none →
      (∀ since, t.sendRefusedSince = some since → since + 100000 ≤ s.sessionUs →
        exec (.driveRekey l) s = .next (decided (teardownLine s l 8))) ∧
      (∀ since, t.sendRefusedSince = some since → s.sessionUs < since + 100000 → exec (.driveRekey l) s =
        .next (settle (updTp s l (fun t => { t with sendRefusedSince := some since })))) ∧
      (t.sendRefusedSince = none → exec (.driveRekey l) s =
        .next (settle (updTp s l (fun t => { t with sendRefusedSince := some s.sessionUs })))))) ∧
  (∀ (s : State) (id : Nat) (m : Mooring), mooringOf s id = some m → m.st = .tearingDown → mooringDrained s m = true →
    exec (.teardownComplete id) s = .next (settle (freeMooring (mooringLost s id m) id m))) ∧
  (∀ (s : State) (k : Nat) (x : Slot) (key : KeyMaterial) (n : Nat), slotOf s k = some x →
    (4 ≤ x.shadows.length → newEpoch s k key n = none) ∧
    (x.shadows.length < 4 → ∃ t, newEpoch s k key n = some t ∧ slotOf t k = some { x with
      key := key, epoch := (x.epoch + 1) % 65536, ctr := 0, chunk := 0, shadows := x.shadows ++ [⟨x.epoch, n, x.key⟩] }))

/-- R433 to R435: beacons and the membership table. A beacon goes out on both ports, with the next number, when the drive
has an ID and 100 ms and the delay drawn for it have passed; its 64 bytes give back its fields (R434). A beacon that
arrives with a bad form is only counted, the drive's own is ignored, and any other makes its entry PRESENT, refreshes it,
brings it into CONFLICT or is counted as old, as the entry stands; the entry of another ID never changes. With time an
entry becomes LOST, a LOST one is dropped, and a conflict ends. The model's own choices here: log entries 135 to 137, 189. -/
def Obligations.BeaconsAndMembers : Prop :=
  (∀ s : State, bit (regGet s A.HB_CTRL) 0 = true → (harbourId s).1 = true → s.power.running = true →
    s.harbour.beaconAt + 100000 + s.harbour.beaconDelay ≤ s.sessionUs → ∃ (u : State) (d : Nat), d ≤ 10000 ∧
      u = { (takeFree s).2 with harbour := { s.harbour with
        beaconSeq := seqAdd s.harbour.beaconSeq 1, beaconAt := s.sessionUs, beaconDelay := d } } ∧
      exec .beaconSend s = .next (settle (emitOn (emitOn u .a (harbourEnvelope u .a harbourGroupEth harbourGroup
        (fieldOf u A.HB_PORTS 15 0) false (beaconBytes (beaconBody u))) (.beacon .a (beaconBody u))) .b
        (harbourEnvelope u .b harbourGroupEth harbourGroup (fieldOf u A.HB_PORTS 15 0) false (beaconBytes (beaconBody u)))
        (.beacon .b (beaconBody u))))) ∧
  (∀ s : State, (bit (regGet s A.HB_CTRL) 0 = false ∨ (harbourId s).1 = false ∨
    s.sessionUs < s.harbour.beaconAt + 100000 + s.harbour.beaconDelay) → exec .beaconSend s = .next (settle s)) ∧
  (∀ (b : BeaconBody), b.bflags < 8 → b.harbourId < 4096 → b.serial < 2 ^ 64 → b.seq < 2 ^ 32 → b.bootNumber < 2 ^ 32 →
    b.fw < 2 ^ 32 → b.mode < 256 → b.space < 256 → b.life < 256 → b.towFree < 256 → b.members < 2 ^ 16 → b.pstate < 256 →
    b.towPort < 2 ^ 16 → beaconForm (beaconBytes b) = true ∧ beaconOf (beaconBytes b) = b) ∧
  (∀ (r : State) (rx : Rx) (y : List Byte), let s := arrive r rx
    let b := beaconOf y
    (∀ k, beaconCheck s rx = some k → exec (.beacon rx y) r = .next (settle (discard s rx.port k))) ∧
    (beaconCheck s rx = none → beaconForm y = false →
      exec (.beacon rx y) r = .next (settle (bump (countAccepted s rx.port) A.HB_BEACON_BAD))) ∧
    (beaconCheck s rx = none → beaconForm y = true → b.serial = s.flash.otp.serial →
      exec (.beacon rx y) r = .next (settle (countAccepted s rx.port))) ∧
    (beaconCheck s rx = none → beaconForm y = true → b.serial ≠ s.flash.otp.serial → ∃ t,
      exec (.beacon rx y) r = .next (settle t) ∧
      (∀ id, id ≠ b.harbourId → tabGet t.harbour.members id = tabGet s.harbour.members id) ∧
      t.harbour.selfConflictAt = (if (harbourId s).1 = true ∧ (harbourId s).2.2 = b.harbourId then some s.sessionUs
        else s.harbour.selfConflictAt) ∧
      (∀ m, tabGet s.harbour.members b.harbourId = some m →
        (m.st = .present → b.serial = m.serial → seqLt m.seq b.seq = true →
          tabGet t.harbour.members b.harbourId = some { memberOf s rx b with secondAt := m.secondAt }) ∧
        (m.st = .present → b.serial = m.serial → seqLt m.seq b.seq = false →
          tabGet t.harbour.members b.harbourId = some m) ∧
        (m.st = .present → b.serial ≠ m.serial → tabGet t.harbour.members b.harbourId =
          some { m with st := .conflict, secondAt := s.sessionUs, at_ := s.sessionUs }) ∧
        (m.st = .conflict → tabGet t.harbour.members b.harbourId = some { m with
          at_ := s.sessionUs, secondAt := if b.serial = m.serial then m.secondAt else s.sessionUs }) ∧
        (m.st = .lost → tabGet t.harbour.members b.harbourId = some (memberOf s rx b))) ∧
      (tabGet s.harbour.members b.harbourId = none → tabGet t.harbour.members b.harbourId = some (memberOf s rx b)))) ∧
  (∀ (s : State) (id : Nat), s.harbour.selfConflictAt = none → ∃ t, exec (.memberAge id) s = .next (settle t) ∧
    t.harbour.selfConflictAt = none ∧
    (∀ j, j ≠ id → tabGet t.harbour.members j = tabGet s.harbour.members j) ∧
    (∀ m, tabGet s.harbour.members id = some m →
      (m.st = .lost → m.lostAt + 60000000 ≤ s.sessionUs → tabGet t.harbour.members id = none) ∧
      (m.st = .lost → s.sessionUs < m.lostAt + 60000000 → tabGet t.harbour.members id = some m) ∧
      (m.st ≠ .lost → m.at_ + 1000000 ≤ s.sessionUs →
        t = raise (putMember s id { m with st := .lost, lostAt := s.sessionUs }) 0x0D 1) ∧
      (m.st = .present → s.sessionUs < m.at_ + 1000000 → t = s) ∧
      (m.st = .conflict → s.sessionUs < m.at_ + 1000000 → m.secondAt + 1000000 ≤ s.sessionUs →
        t = putMember s id { m with st := .present }))) ∧
  (∀ (s : State) (id q : Nat), s.harbour.selfConflictAt = some q → (harbourId s).2.2 = id → q + 1000000 ≤ s.sessionUs →
    ∃ t, exec (.memberAge id) s = .next (settle t) ∧ t.harbour.selfConflictAt = none)

/-- R419, R447: cohort triggers. A bad form is counted and nothing more; one that names no armed activation, or another
set, is ignored; the 101st of a second is ignored unchecked; one whose key no enabled root holds, or whose signature fails,
is counted with its event; any other fires the activation. While HB_CTRL.TRIGGERS is 0 none is looked at. The model's own
choices here: log entries 135 to 137. -/
def Obligations.CohortTriggers : Prop :=
  ∀ (r : State) (rx : Rx) (t : List Byte), let s := arrive r rx
    (∀ k, beaconCheck s rx = some k → exec (.cohortTrigger rx t) r = .next (settle (discard s rx.port k))) ∧
    (beaconCheck s rx = none → let u := countAccepted s rx.port
      (bit (regGet u A.HB_CTRL) 1 = false → exec (.cohortTrigger rx t) r = .next (settle u)) ∧
      (bit (regGet u A.HB_CTRL) 1 = true →
        (triggerForm t = false → exec (.cohortTrigger rx t) r = .next (settle (bump u A.HB_TRIG_BAD))) ∧
        (triggerForm t = true → triggerMatches u t = false →
          (activating u = true → u.update.cohort = triggerCohort t → exec (.cohortTrigger rx t) r = .next (settle u)) ∧
          (activating u = false ∨ u.update.cohort ≠ triggerCohort t → exec (.cohortTrigger rx t) r = .next (settle { u with update :=
            { u.update with trigIgnored := min (u.update.trigIgnored + 1) (2 ^ 32 - 1) } }))) ∧
        (triggerForm t = true → triggerMatches u t = true →
          let n := if u.update.trigSecond = u.sessionUs / 1000000 then u.update.trigChecked else 0
          (100 ≤ n → exec (.cohortTrigger rx t) r = .next (settle { u with update := { u.update with
            trigIgnored := min (u.update.trigIgnored + 1) (2 ^ 32 - 1) } })) ∧
          (n < 100 → let v : State := { u with update := { u.update with
              trigSecond := u.sessionUs / 1000000, trigChecked := n + 1 } }
            ((∃ k, (k, Config.sha384 (triggerKey t)) ∈ enabledRoots v) →
              Config.sigVerifies (triggerKey t) (t.take 140) (t.drop 140) = true →
              exec (.cohortTrigger rx t) r = .next (settle (fireCohort v (triggerCohort t)).1)) ∧
            ((∀ k, (k, Config.sha384 (triggerKey t)) ∉ enabledRoots v) ∨
                Config.sigVerifies (triggerKey t) (t.take 140) (t.drop 140) = false →
              exec (.cohortTrigger rx t) r = .next (settle (raise (bump v A.HB_TRIG_BAD) 0x0D 5)))))))

/-- R437, R439, R441: a towline at its source. A WELCOME with a good certificate is answered; a bad one, REFUSE, or
REFUSE_SEALED ends the handshake, frees its ID and its slots, and ends its TOWs; MOORED opens the towline under the peer's
ID with its event; unused for HB_TOW_IDLE.S it is closed, and CLOSED frees it; GONE tears it down. The model's own choices
here: log entries 138 to 141, 157, 163, 177. -/
def Obligations.TowlineLife : Prop :=
  (∀ (s : State) (t : Nat) (x : Towline), towlineOf s t = some x → x.source = true → x.st = .helloSent →
    (∀ b, peerCertOk s x.peerId b.cert = true →
      let cert := presentedCert s true
      let v := updTowline s t (fun x => { x with st := .authSent, secrets := towSecrets s.boot.keyStore.dik x b cert })
      ∃ bytes, exec (.welcome t b true) s = .next (settle (emitOn v x.tp.path.port (lineEnvelope v (.towline t) x.tp bytes)
        (.towHandshake 3 x.tp.path.port t x.peerId))) ∧
      towlineOf v t = some { x with st := .authSent, secrets := towSecrets s.boot.keyStore.dik x b cert }) ∧
    (∀ b ok, (peerCertOk s x.peerId b.cert = false ∨ ok = false) →
      exec (.welcome t b ok) s = .next (settle (failHandshake s t x 0x0601))) ∧
    (∀ st, exec (.refuse t st) s = .next (settle (failHandshake s t x st)))) ∧
  (∀ (s : State) (t : Nat) (x : Towline), towlineOf s t = some x → x.source = true → x.st = .authSent →
    (∀ st, exec (.refuseSealed t st) s = .next (settle (failHandshake s t x st))) ∧
    (∀ peer window,
      let v := updSlot (updSlot s x.sendSlot (fun k => { k with key := .secret x.secrets.1 })) x.recvSlot
        (fun k => { k with key := .secret x.secrets.2 })
      let u := raise (updTowline v t (fun x => { x with
        st := .open, peer := peer, lastUse := s.sessionUs, secrets := ([], [])
        tp := { x.tp with hostLimit := seqAdd 1 window, lastRx := s.sessionUs } })) 0x0D 3
      (∀ y ∈ s.harbour.tows, y.towline ≠ some t) →
      exec (.moored t peer window) s = .next (settle (resumeAll u)))) ∧
  (∀ (s : State) (t : Nat) (x : Towline), towlineOf s t = some x → towlineUp x = true →
    exec (.gone t 0) s = .next (settle (teardownLine s (.towline t) 7))) ∧
  (∀ (s : State) (t : Nat) (x : Towline) (status : Nat), (∀ y ∈ s.harbour.tows, y.towline ≠ some t) →
    let u := failHandshake s t x status
    towlineOf u t = none ∧ (∀ j, j ≠ t → towlineOf u j = towlineOf s j) ∧ u.moorings = s.moorings ∧ u.berths = s.berths ∧
    u.harbour.towLast = pack [(status, 16, 16), (x.peerId, 0, 12)] ∧ u.harbour.tows = s.harbour.tows) ∧
  (∀ (s : State) (t : Nat) (x : Towline), towlineOf s t = some x → x.st = .open →
    (∀ y ∈ s.harbour.tows, y.towline ≠ some t) → (∀ y ∈ s.harbour.towIns, y.towline ≠ t) →
    x.lastUse + 1000000 * fieldOf s A.HB_TOW_IDLE 15 0 ≤ s.sessionUs →
    exec (.towlineIdle t) s = .next (settle (pump (updTowline s t (fun x => { x with
      st := .closing
      tp := { x.tp with sendQueue := x.tp.sendQueue ++ [
        { typ := 0x12, seq := 0, berth := 0, first := false, last := false, payload := [], ticket := none, sentAt := 0,
          sends := 0, expiries := 0, sacked := false }] } })) (.towline t)))) ∧
  (∀ (s : State) (t : Nat) (x : Towline), towlineOf s t = some x → x.st = .closing →
    ∃ u, exec (.towlineClosed t) s = .next (settle u) ∧ towlineOf u t = none ∧
      (∀ j, j ≠ t → towlineOf u j = towlineOf s j) ∧ u.moorings = s.moorings) ∧
  (∀ (s : State) (t : Nat), towlineOf s t = none → exec (.towlineIdle t) s = .next (settle s) ∧
    exec (.towlineClosed t) s = .next (settle s) ∧ exec (.gone t 0) s = .next (settle s))

/-- R174, R440 to R443: windows of a TOW. A TOW_ACK of OK takes its capsule off the TOW's list; any other status ends the
TOW with E_RETRY at the start of its window, and HB_TOW_LAST holds the status and the peer. At the destination a TOW_DATA
that a check refuses is answered with the check's status and CSN 0 and nothing is admitted; one that passes takes the next
CSN and lands as one write of the towline's own berth; a quay out of nonces refuses it with E_KEY_WORN. The model's own
choices here: log entries 138 to 141, 185. -/
def Obligations.TowWindows : Prop :=
  (∀ (s : State) (t status q d n : Nat) (l : Towline) (x : Tow), towlineOf s t = some l → towlineUp l = true → l.source = true →
    s.harbour.tows.find? (fun x => x.towline == some t && x.outstanding.contains q) = some x →
    let u := updTowline s t (fun y => { y with lastUse := s.sessionUs })
    exec (.towAck t status q d n) s = .next (settle (resumeAll (
      if status = 0 then updTow u x.csn (fun y => { y with outstanding := y.outstanding.filter (fun k => k != q) })
      else endTow (towFailed u status x.dest) x .retry x.windowStart)))) ∧
  (∀ (s : State) (x : Tow) (cursor : Nat), ∃ v c, endTow s x .retry cursor = complete v x.berth c ∧
    v.harbour.tows = s.harbour.tows.filter (fun y => y.csn != x.csn) ∧ v.berths = s.berths ∧ v.moorings = s.moorings ∧
    v.cmds = s.cmds ∧ c.opcode = 0x09 ∧ c.tag = x.tag ∧ c.status = statusCode .retry ∧ c.csn = x.csn ∧ c.valueLen = 48 ∧
    c.value = beBytes x.keys 8 ++ beBytes x.granules 8 ++ beBytes x.firstCsn 8 ++ beBytes x.lastCsn 8 ++ beBytes cursor 16) ∧
  (∀ (s : State) (t : Nat) (d : TowData) (l : Towline), towlineOf s t = some l → towlineUp l = true → l.source = false →
    s.seqr.stopped = false →
    let u := updTowline s t (fun y => { y with lastUse := s.sessionUs })
    (∀ st, towRefusal u d = some st → exec (.towData t d) s = .next (settle (sendCapsule u (.towline t) 0 none
      ([0x72#8, 0#8] ++ beBytes (statusCode st) 2 ++ beBytes d.msgSeq 4 ++ beBytes 0 8 ++ beBytes 0 4)))) ∧
    (towRefusal u d = none → exec (.towData t d) s = .next (settle (admitTowData u t d)))) ∧
  (∀ (s : State) (t : Nat) (d : TowData),
    (d.entries.length ≠ d.declared → towRefusal s d = some .badLength) ∧
    (d.entries.length = d.declared → d.size ≤ 83886080 → (d.declared = 0 ∨ 256 < d.declared ∨ d.reservedZero = false ∨
      ¬(d.entries.map TowEntry.key).Nodup) → towRefusal s d = some .range) ∧
    (towForm d = none → s.seqr.barrier = false → (s.mode.cur = 2 ∨ s.mode.cur = 3 ∨ s.mode.cur = 5) →
      towRefusal s d = some .state) ∧
    (∃ csn, admitTowData s t d = (let c := towBatch d
      let w := (takeCsn (ensureCsn s)).2
      let u : State := { w with boot := { w.boot with lastAdmitted := some w.sessionUs } }
      let v : State := { u with
        harbour := { u.harbour with towIns := u.harbour.towIns ++ [
          { csn := csn, towline := t, msgSeq := d.msgSeq, segments := listSum ((opsOf u c).map opSegments),
            lostKeys := (d.entries.filter TowEntry.lost).map TowEntry.key }] } }
      match reserveCounter v (quaySlot u d.quay) (listSum ((opsOf u c).map opSegments)) with
      | none => answerTow (bumpHalf v A.CP_KEY_REFUSED 0) csn .keyWorn
      | some w => enterReserved w (nextInvocation v (quaySlot u d.quay)) (16384 + t) c csn (quaySlot u d.quay) (opsOf u c)
          false) ∧ csn = (ensureCsn s).seqr.next))
end

