-- ==== Sys2Proof/Laws/State.lean ====
section
/-! SUPPORT. What each shared operation leaves alone, one lemma per operation and field of State, so that no later proof
unfolds a record update: the register file and events, records and faults of the logbook, output, transport, slots, berths,
completions, seals, and what follows every command. -/

namespace Sys2Proof.Machine

/-! ### Which fields an operation may change -/

/-- `t` is `s` but for the register file. -/
def OnlyRegs (s t : State) : Prop := ∃ x0, t = { s with regs := x0 }

theorem OnlyRegs.refl (s : State) : OnlyRegs s s := ⟨_, rfl⟩

theorem OnlyRegs.trans {s t u : State} (h : OnlyRegs s t) (k : OnlyRegs t u) : OnlyRegs s u := by
  obtain ⟨_, rfl⟩ := h; obtain ⟨_, rfl⟩ := k; exact ⟨_, rfl⟩

theorem OnlyRegs.pending {s t : State} (h : OnlyRegs s t) : t.pending = s.pending := by obtain ⟨_, rfl⟩ := h; rfl
theorem OnlyRegs.boardUs {s t : State} (h : OnlyRegs s t) : t.boardUs = s.boardUs := by obtain ⟨_, rfl⟩ := h; rfl
theorem OnlyRegs.sessionUs {s t : State} (h : OnlyRegs s t) : t.sessionUs = s.sessionUs := by obtain ⟨_, rfl⟩ := h; rfl
theorem OnlyRegs.poweredUs {s t : State} (h : OnlyRegs s t) : t.poweredUs = s.poweredUs := by obtain ⟨_, rfl⟩ := h; rfl
theorem OnlyRegs.persistedAt {s t : State} (h : OnlyRegs s t) : t.persistedAt = s.persistedAt := by obtain ⟨_, rfl⟩ := h; rfl
theorem OnlyRegs.phase {s t : State} (h : OnlyRegs s t) : t.phase = s.phase := by obtain ⟨_, rfl⟩ := h; rfl
theorem OnlyRegs.power {s t : State} (h : OnlyRegs s t) : t.power = s.power := by obtain ⟨_, rfl⟩ := h; rfl
theorem OnlyRegs.boot {s t : State} (h : OnlyRegs s t) : t.boot = s.boot := by obtain ⟨_, rfl⟩ := h; rfl
theorem OnlyRegs.shadows {s t : State} (h : OnlyRegs s t) : t.shadows = s.shadows := by obtain ⟨_, rfl⟩ := h; rfl
theorem OnlyRegs.latches {s t : State} (h : OnlyRegs s t) : t.latches = s.latches := by obtain ⟨_, rfl⟩ := h; rfl
theorem OnlyRegs.mode {s t : State} (h : OnlyRegs s t) : t.mode = s.mode := by obtain ⟨_, rfl⟩ := h; rfl
theorem OnlyRegs.linkA {s t : State} (h : OnlyRegs s t) : t.linkA = s.linkA := by obtain ⟨_, rfl⟩ := h; rfl
theorem OnlyRegs.linkB {s t : State} (h : OnlyRegs s t) : t.linkB = s.linkB := by obtain ⟨_, rfl⟩ := h; rfl
theorem OnlyRegs.handshakes {s t : State} (h : OnlyRegs s t) : t.handshakes = s.handshakes := by obtain ⟨_, rfl⟩ := h; rfl
theorem OnlyRegs.answered {s t : State} (h : OnlyRegs s t) : t.answered = s.answered := by obtain ⟨_, rfl⟩ := h; rfl
theorem OnlyRegs.moorings {s t : State} (h : OnlyRegs s t) : t.moorings = s.moorings := by obtain ⟨_, rfl⟩ := h; rfl
theorem OnlyRegs.berths {s t : State} (h : OnlyRegs s t) : t.berths = s.berths := by obtain ⟨_, rfl⟩ := h; rfl
theorem OnlyRegs.withheld {s t : State} (h : OnlyRegs s t) : t.withheld = s.withheld := by obtain ⟨_, rfl⟩ := h; rfl
theorem OnlyRegs.seqr {s t : State} (h : OnlyRegs s t) : t.seqr = s.seqr := by obtain ⟨_, rfl⟩ := h; rfl
theorem OnlyRegs.seals {s t : State} (h : OnlyRegs s t) : t.seals = s.seals := by obtain ⟨_, rfl⟩ := h; rfl
theorem OnlyRegs.cmds {s t : State} (h : OnlyRegs s t) : t.cmds = s.cmds := by obtain ⟨_, rfl⟩ := h; rfl
theorem OnlyRegs.flash {s t : State} (h : OnlyRegs s t) : t.flash = s.flash := by obtain ⟨_, rfl⟩ := h; rfl
theorem OnlyRegs.space {s t : State} (h : OnlyRegs s t) : t.space = s.space := by obtain ⟨_, rfl⟩ := h; rfl
theorem OnlyRegs.index {s t : State} (h : OnlyRegs s t) : t.index = s.index := by obtain ⟨_, rfl⟩ := h; rfl
theorem OnlyRegs.dies {s t : State} (h : OnlyRegs s t) : t.dies = s.dies := by obtain ⟨_, rfl⟩ := h; rfl
theorem OnlyRegs.careen {s t : State} (h : OnlyRegs s t) : t.careen = s.careen := by obtain ⟨_, rfl⟩ := h; rfl
theorem OnlyRegs.sensors {s t : State} (h : OnlyRegs s t) : t.sensors = s.sensors := by obtain ⟨_, rfl⟩ := h; rfl
theorem OnlyRegs.tide {s t : State} (h : OnlyRegs s t) : t.tide = s.tide := by obtain ⟨_, rfl⟩ := h; rfl
theorem OnlyRegs.pstate {s t : State} (h : OnlyRegs s t) : t.pstate = s.pstate := by obtain ⟨_, rfl⟩ := h; rfl
theorem OnlyRegs.engines {s t : State} (h : OnlyRegs s t) : t.engines = s.engines := by obtain ⟨_, rfl⟩ := h; rfl
theorem OnlyRegs.cipher {s t : State} (h : OnlyRegs s t) : t.cipher = s.cipher := by obtain ⟨_, rfl⟩ := h; rfl
theorem OnlyRegs.log {s t : State} (h : OnlyRegs s t) : t.log = s.log := by obtain ⟨_, rfl⟩ := h; rfl
theorem OnlyRegs.update {s t : State} (h : OnlyRegs s t) : t.update = s.update := by obtain ⟨_, rfl⟩ := h; rfl
theorem OnlyRegs.harbour {s t : State} (h : OnlyRegs s t) : t.harbour = s.harbour := by obtain ⟨_, rfl⟩ := h; rfl
theorem OnlyRegs.sideband {s t : State} (h : OnlyRegs s t) : t.sideband = s.sideband := by obtain ⟨_, rfl⟩ := h; rfl
theorem OnlyRegs.lines {s t : State} (h : OnlyRegs s t) : t.lines = s.lines := by obtain ⟨_, rfl⟩ := h; rfl
theorem OnlyRegs.pathErrors {s t : State} (h : OnlyRegs s t) : t.pathErrors = s.pathErrors := by obtain ⟨_, rfl⟩ := h; rfl
theorem OnlyRegs.out {s t : State} (h : OnlyRegs s t) : t.out = s.out := by obtain ⟨_, rfl⟩ := h; rfl
theorem OnlyRegs.draws {s t : State} (h : OnlyRegs s t) : t.draws = s.draws := by obtain ⟨_, rfl⟩ := h; rfl
theorem OnlyRegs.freeN {s t : State} (h : OnlyRegs s t) : t.freeN = s.freeN := by obtain ⟨_, rfl⟩ := h; rfl

/-- `t` is `s` but for the logbook and the register file. -/
def OnlyLog (s t : State) : Prop := ∃ x0 x1, t = { s with log := x0, regs := x1 }

theorem OnlyLog.refl (s : State) : OnlyLog s s := ⟨_, _, rfl⟩

theorem OnlyLog.trans {s t u : State} (h : OnlyLog s t) (k : OnlyLog t u) : OnlyLog s u := by
  obtain ⟨_, _, rfl⟩ := h; obtain ⟨_, _, rfl⟩ := k; exact ⟨_, _, rfl⟩

theorem OnlyLog.pending {s t : State} (h : OnlyLog s t) : t.pending = s.pending := by obtain ⟨_, _, rfl⟩ := h; rfl
theorem OnlyLog.boardUs {s t : State} (h : OnlyLog s t) : t.boardUs = s.boardUs := by obtain ⟨_, _, rfl⟩ := h; rfl
theorem OnlyLog.sessionUs {s t : State} (h : OnlyLog s t) : t.sessionUs = s.sessionUs := by obtain ⟨_, _, rfl⟩ := h; rfl
theorem OnlyLog.poweredUs {s t : State} (h : OnlyLog s t) : t.poweredUs = s.poweredUs := by obtain ⟨_, _, rfl⟩ := h; rfl
theorem OnlyLog.persistedAt {s t : State} (h : OnlyLog s t) : t.persistedAt = s.persistedAt := by obtain ⟨_, _, rfl⟩ := h; rfl
theorem OnlyLog.phase {s t : State} (h : OnlyLog s t) : t.phase = s.phase := by obtain ⟨_, _, rfl⟩ := h; rfl
theorem OnlyLog.power {s t : State} (h : OnlyLog s t) : t.power = s.power := by obtain ⟨_, _, rfl⟩ := h; rfl
theorem OnlyLog.boot {s t : State} (h : OnlyLog s t) : t.boot = s.boot := by obtain ⟨_, _, rfl⟩ := h; rfl
theorem OnlyLog.shadows {s t : State} (h : OnlyLog s t) : t.shadows = s.shadows := by obtain ⟨_, _, rfl⟩ := h; rfl
theorem OnlyLog.latches {s t : State} (h : OnlyLog s t) : t.latches = s.latches := by obtain ⟨_, _, rfl⟩ := h; rfl
theorem OnlyLog.mode {s t : State} (h : OnlyLog s t) : t.mode = s.mode := by obtain ⟨_, _, rfl⟩ := h; rfl
theorem OnlyLog.linkA {s t : State} (h : OnlyLog s t) : t.linkA = s.linkA := by obtain ⟨_, _, rfl⟩ := h; rfl
theorem OnlyLog.linkB {s t : State} (h : OnlyLog s t) : t.linkB = s.linkB := by obtain ⟨_, _, rfl⟩ := h; rfl
theorem OnlyLog.handshakes {s t : State} (h : OnlyLog s t) : t.handshakes = s.handshakes := by obtain ⟨_, _, rfl⟩ := h; rfl
theorem OnlyLog.answered {s t : State} (h : OnlyLog s t) : t.answered = s.answered := by obtain ⟨_, _, rfl⟩ := h; rfl
theorem OnlyLog.moorings {s t : State} (h : OnlyLog s t) : t.moorings = s.moorings := by obtain ⟨_, _, rfl⟩ := h; rfl
theorem OnlyLog.berths {s t : State} (h : OnlyLog s t) : t.berths = s.berths := by obtain ⟨_, _, rfl⟩ := h; rfl
theorem OnlyLog.withheld {s t : State} (h : OnlyLog s t) : t.withheld = s.withheld := by obtain ⟨_, _, rfl⟩ := h; rfl
theorem OnlyLog.seqr {s t : State} (h : OnlyLog s t) : t.seqr = s.seqr := by obtain ⟨_, _, rfl⟩ := h; rfl
theorem OnlyLog.seals {s t : State} (h : OnlyLog s t) : t.seals = s.seals := by obtain ⟨_, _, rfl⟩ := h; rfl
theorem OnlyLog.cmds {s t : State} (h : OnlyLog s t) : t.cmds = s.cmds := by obtain ⟨_, _, rfl⟩ := h; rfl
theorem OnlyLog.flash {s t : State} (h : OnlyLog s t) : t.flash = s.flash := by obtain ⟨_, _, rfl⟩ := h; rfl
theorem OnlyLog.space {s t : State} (h : OnlyLog s t) : t.space = s.space := by obtain ⟨_, _, rfl⟩ := h; rfl
theorem OnlyLog.index {s t : State} (h : OnlyLog s t) : t.index = s.index := by obtain ⟨_, _, rfl⟩ := h; rfl
theorem OnlyLog.dies {s t : State} (h : OnlyLog s t) : t.dies = s.dies := by obtain ⟨_, _, rfl⟩ := h; rfl
theorem OnlyLog.careen {s t : State} (h : OnlyLog s t) : t.careen = s.careen := by obtain ⟨_, _, rfl⟩ := h; rfl
theorem OnlyLog.sensors {s t : State} (h : OnlyLog s t) : t.sensors = s.sensors := by obtain ⟨_, _, rfl⟩ := h; rfl
theorem OnlyLog.tide {s t : State} (h : OnlyLog s t) : t.tide = s.tide := by obtain ⟨_, _, rfl⟩ := h; rfl
theorem OnlyLog.pstate {s t : State} (h : OnlyLog s t) : t.pstate = s.pstate := by obtain ⟨_, _, rfl⟩ := h; rfl
theorem OnlyLog.engines {s t : State} (h : OnlyLog s t) : t.engines = s.engines := by obtain ⟨_, _, rfl⟩ := h; rfl
theorem OnlyLog.cipher {s t : State} (h : OnlyLog s t) : t.cipher = s.cipher := by obtain ⟨_, _, rfl⟩ := h; rfl
theorem OnlyLog.update {s t : State} (h : OnlyLog s t) : t.update = s.update := by obtain ⟨_, _, rfl⟩ := h; rfl
theorem OnlyLog.harbour {s t : State} (h : OnlyLog s t) : t.harbour = s.harbour := by obtain ⟨_, _, rfl⟩ := h; rfl
theorem OnlyLog.sideband {s t : State} (h : OnlyLog s t) : t.sideband = s.sideband := by obtain ⟨_, _, rfl⟩ := h; rfl
theorem OnlyLog.lines {s t : State} (h : OnlyLog s t) : t.lines = s.lines := by obtain ⟨_, _, rfl⟩ := h; rfl
theorem OnlyLog.pathErrors {s t : State} (h : OnlyLog s t) : t.pathErrors = s.pathErrors := by obtain ⟨_, _, rfl⟩ := h; rfl
theorem OnlyLog.out {s t : State} (h : OnlyLog s t) : t.out = s.out := by obtain ⟨_, _, rfl⟩ := h; rfl
theorem OnlyLog.draws {s t : State} (h : OnlyLog s t) : t.draws = s.draws := by obtain ⟨_, _, rfl⟩ := h; rfl
theorem OnlyLog.freeN {s t : State} (h : OnlyLog s t) : t.freeN = s.freeN := by obtain ⟨_, _, rfl⟩ := h; rfl

/-- `t` is `s` but for the transport of a line, what is sent and counters. -/
def OnlySent (s t : State) : Prop := ∃ x0 x1 x2 x3, t = { s with moorings := x0, harbour := x1, out := x2, regs := x3 }

theorem OnlySent.refl (s : State) : OnlySent s s := ⟨_, _, _, _, rfl⟩

theorem OnlySent.trans {s t u : State} (h : OnlySent s t) (k : OnlySent t u) : OnlySent s u := by
  obtain ⟨_, _, _, _, rfl⟩ := h; obtain ⟨_, _, _, _, rfl⟩ := k; exact ⟨_, _, _, _, rfl⟩

theorem OnlySent.pending {s t : State} (h : OnlySent s t) : t.pending = s.pending := by obtain ⟨_, _, _, _, rfl⟩ := h; rfl
theorem OnlySent.boardUs {s t : State} (h : OnlySent s t) : t.boardUs = s.boardUs := by obtain ⟨_, _, _, _, rfl⟩ := h; rfl
theorem OnlySent.sessionUs {s t : State} (h : OnlySent s t) : t.sessionUs = s.sessionUs := by obtain ⟨_, _, _, _, rfl⟩ := h; rfl
theorem OnlySent.poweredUs {s t : State} (h : OnlySent s t) : t.poweredUs = s.poweredUs := by obtain ⟨_, _, _, _, rfl⟩ := h; rfl
theorem OnlySent.persistedAt {s t : State} (h : OnlySent s t) : t.persistedAt = s.persistedAt := by obtain ⟨_, _, _, _, rfl⟩ := h; rfl
theorem OnlySent.phase {s t : State} (h : OnlySent s t) : t.phase = s.phase := by obtain ⟨_, _, _, _, rfl⟩ := h; rfl
theorem OnlySent.power {s t : State} (h : OnlySent s t) : t.power = s.power := by obtain ⟨_, _, _, _, rfl⟩ := h; rfl
theorem OnlySent.boot {s t : State} (h : OnlySent s t) : t.boot = s.boot := by obtain ⟨_, _, _, _, rfl⟩ := h; rfl
theorem OnlySent.shadows {s t : State} (h : OnlySent s t) : t.shadows = s.shadows := by obtain ⟨_, _, _, _, rfl⟩ := h; rfl
theorem OnlySent.latches {s t : State} (h : OnlySent s t) : t.latches = s.latches := by obtain ⟨_, _, _, _, rfl⟩ := h; rfl
theorem OnlySent.mode {s t : State} (h : OnlySent s t) : t.mode = s.mode := by obtain ⟨_, _, _, _, rfl⟩ := h; rfl
theorem OnlySent.linkA {s t : State} (h : OnlySent s t) : t.linkA = s.linkA := by obtain ⟨_, _, _, _, rfl⟩ := h; rfl
theorem OnlySent.linkB {s t : State} (h : OnlySent s t) : t.linkB = s.linkB := by obtain ⟨_, _, _, _, rfl⟩ := h; rfl
theorem OnlySent.handshakes {s t : State} (h : OnlySent s t) : t.handshakes = s.handshakes := by obtain ⟨_, _, _, _, rfl⟩ := h; rfl
theorem OnlySent.answered {s t : State} (h : OnlySent s t) : t.answered = s.answered := by obtain ⟨_, _, _, _, rfl⟩ := h; rfl
theorem OnlySent.berths {s t : State} (h : OnlySent s t) : t.berths = s.berths := by obtain ⟨_, _, _, _, rfl⟩ := h; rfl
theorem OnlySent.withheld {s t : State} (h : OnlySent s t) : t.withheld = s.withheld := by obtain ⟨_, _, _, _, rfl⟩ := h; rfl
theorem OnlySent.seqr {s t : State} (h : OnlySent s t) : t.seqr = s.seqr := by obtain ⟨_, _, _, _, rfl⟩ := h; rfl
theorem OnlySent.seals {s t : State} (h : OnlySent s t) : t.seals = s.seals := by obtain ⟨_, _, _, _, rfl⟩ := h; rfl
theorem OnlySent.cmds {s t : State} (h : OnlySent s t) : t.cmds = s.cmds := by obtain ⟨_, _, _, _, rfl⟩ := h; rfl
theorem OnlySent.flash {s t : State} (h : OnlySent s t) : t.flash = s.flash := by obtain ⟨_, _, _, _, rfl⟩ := h; rfl
theorem OnlySent.space {s t : State} (h : OnlySent s t) : t.space = s.space := by obtain ⟨_, _, _, _, rfl⟩ := h; rfl
theorem OnlySent.index {s t : State} (h : OnlySent s t) : t.index = s.index := by obtain ⟨_, _, _, _, rfl⟩ := h; rfl
theorem OnlySent.dies {s t : State} (h : OnlySent s t) : t.dies = s.dies := by obtain ⟨_, _, _, _, rfl⟩ := h; rfl
theorem OnlySent.careen {s t : State} (h : OnlySent s t) : t.careen = s.careen := by obtain ⟨_, _, _, _, rfl⟩ := h; rfl
theorem OnlySent.sensors {s t : State} (h : OnlySent s t) : t.sensors = s.sensors := by obtain ⟨_, _, _, _, rfl⟩ := h; rfl
theorem OnlySent.tide {s t : State} (h : OnlySent s t) : t.tide = s.tide := by obtain ⟨_, _, _, _, rfl⟩ := h; rfl
theorem OnlySent.pstate {s t : State} (h : OnlySent s t) : t.pstate = s.pstate := by obtain ⟨_, _, _, _, rfl⟩ := h; rfl
theorem OnlySent.engines {s t : State} (h : OnlySent s t) : t.engines = s.engines := by obtain ⟨_, _, _, _, rfl⟩ := h; rfl
theorem OnlySent.cipher {s t : State} (h : OnlySent s t) : t.cipher = s.cipher := by obtain ⟨_, _, _, _, rfl⟩ := h; rfl
theorem OnlySent.log {s t : State} (h : OnlySent s t) : t.log = s.log := by obtain ⟨_, _, _, _, rfl⟩ := h; rfl
theorem OnlySent.update {s t : State} (h : OnlySent s t) : t.update = s.update := by obtain ⟨_, _, _, _, rfl⟩ := h; rfl
theorem OnlySent.sideband {s t : State} (h : OnlySent s t) : t.sideband = s.sideband := by obtain ⟨_, _, _, _, rfl⟩ := h; rfl
theorem OnlySent.lines {s t : State} (h : OnlySent s t) : t.lines = s.lines := by obtain ⟨_, _, _, _, rfl⟩ := h; rfl
theorem OnlySent.pathErrors {s t : State} (h : OnlySent s t) : t.pathErrors = s.pathErrors := by obtain ⟨_, _, _, _, rfl⟩ := h; rfl
theorem OnlySent.draws {s t : State} (h : OnlySent s t) : t.draws = s.draws := by obtain ⟨_, _, _, _, rfl⟩ := h; rfl
theorem OnlySent.freeN {s t : State} (h : OnlySent s t) : t.freeN = s.freeN := by obtain ⟨_, _, _, _, rfl⟩ := h; rfl

/-- `t` is `s` but for berths, the transport of a line, what is sent and counters. -/
def OnlyCompleted (s t : State) : Prop := ∃ x0 x1 x2 x3 x4 x5, t = { s with moorings := x0, harbour := x1, out := x2, regs := x3, berths := x4, withheld := x5 }

theorem OnlyCompleted.refl (s : State) : OnlyCompleted s s := ⟨_, _, _, _, _, _, rfl⟩

theorem OnlyCompleted.trans {s t u : State} (h : OnlyCompleted s t) (k : OnlyCompleted t u) : OnlyCompleted s u := by
  obtain ⟨_, _, _, _, _, _, rfl⟩ := h; obtain ⟨_, _, _, _, _, _, rfl⟩ := k; exact ⟨_, _, _, _, _, _, rfl⟩

theorem OnlyCompleted.pending {s t : State} (h : OnlyCompleted s t) : t.pending = s.pending := by obtain ⟨_, _, _, _, _, _, rfl⟩ := h; rfl
theorem OnlyCompleted.boardUs {s t : State} (h : OnlyCompleted s t) : t.boardUs = s.boardUs := by obtain ⟨_, _, _, _, _, _, rfl⟩ := h; rfl
theorem OnlyCompleted.sessionUs {s t : State} (h : OnlyCompleted s t) : t.sessionUs = s.sessionUs := by obtain ⟨_, _, _, _, _, _, rfl⟩ := h; rfl
theorem OnlyCompleted.poweredUs {s t : State} (h : OnlyCompleted s t) : t.poweredUs = s.poweredUs := by obtain ⟨_, _, _, _, _, _, rfl⟩ := h; rfl
theorem OnlyCompleted.persistedAt {s t : State} (h : OnlyCompleted s t) : t.persistedAt = s.persistedAt := by obtain ⟨_, _, _, _, _, _, rfl⟩ := h; rfl
theorem OnlyCompleted.phase {s t : State} (h : OnlyCompleted s t) : t.phase = s.phase := by obtain ⟨_, _, _, _, _, _, rfl⟩ := h; rfl
theorem OnlyCompleted.power {s t : State} (h : OnlyCompleted s t) : t.power = s.power := by obtain ⟨_, _, _, _, _, _, rfl⟩ := h; rfl
theorem OnlyCompleted.boot {s t : State} (h : OnlyCompleted s t) : t.boot = s.boot := by obtain ⟨_, _, _, _, _, _, rfl⟩ := h; rfl
theorem OnlyCompleted.shadows {s t : State} (h : OnlyCompleted s t) : t.shadows = s.shadows := by obtain ⟨_, _, _, _, _, _, rfl⟩ := h; rfl
theorem OnlyCompleted.latches {s t : State} (h : OnlyCompleted s t) : t.latches = s.latches := by obtain ⟨_, _, _, _, _, _, rfl⟩ := h; rfl
theorem OnlyCompleted.mode {s t : State} (h : OnlyCompleted s t) : t.mode = s.mode := by obtain ⟨_, _, _, _, _, _, rfl⟩ := h; rfl
theorem OnlyCompleted.linkA {s t : State} (h : OnlyCompleted s t) : t.linkA = s.linkA := by obtain ⟨_, _, _, _, _, _, rfl⟩ := h; rfl
theorem OnlyCompleted.linkB {s t : State} (h : OnlyCompleted s t) : t.linkB = s.linkB := by obtain ⟨_, _, _, _, _, _, rfl⟩ := h; rfl
theorem OnlyCompleted.handshakes {s t : State} (h : OnlyCompleted s t) : t.handshakes = s.handshakes := by obtain ⟨_, _, _, _, _, _, rfl⟩ := h; rfl
theorem OnlyCompleted.answered {s t : State} (h : OnlyCompleted s t) : t.answered = s.answered := by obtain ⟨_, _, _, _, _, _, rfl⟩ := h; rfl
theorem OnlyCompleted.seqr {s t : State} (h : OnlyCompleted s t) : t.seqr = s.seqr := by obtain ⟨_, _, _, _, _, _, rfl⟩ := h; rfl
theorem OnlyCompleted.seals {s t : State} (h : OnlyCompleted s t) : t.seals = s.seals := by obtain ⟨_, _, _, _, _, _, rfl⟩ := h; rfl
theorem OnlyCompleted.cmds {s t : State} (h : OnlyCompleted s t) : t.cmds = s.cmds := by obtain ⟨_, _, _, _, _, _, rfl⟩ := h; rfl
theorem OnlyCompleted.flash {s t : State} (h : OnlyCompleted s t) : t.flash = s.flash := by obtain ⟨_, _, _, _, _, _, rfl⟩ := h; rfl
theorem OnlyCompleted.space {s t : State} (h : OnlyCompleted s t) : t.space = s.space := by obtain ⟨_, _, _, _, _, _, rfl⟩ := h; rfl
theorem OnlyCompleted.index {s t : State} (h : OnlyCompleted s t) : t.index = s.index := by obtain ⟨_, _, _, _, _, _, rfl⟩ := h; rfl
theorem OnlyCompleted.dies {s t : State} (h : OnlyCompleted s t) : t.dies = s.dies := by obtain ⟨_, _, _, _, _, _, rfl⟩ := h; rfl
theorem OnlyCompleted.careen {s t : State} (h : OnlyCompleted s t) : t.careen = s.careen := by obtain ⟨_, _, _, _, _, _, rfl⟩ := h; rfl
theorem OnlyCompleted.sensors {s t : State} (h : OnlyCompleted s t) : t.sensors = s.sensors := by obtain ⟨_, _, _, _, _, _, rfl⟩ := h; rfl
theorem OnlyCompleted.tide {s t : State} (h : OnlyCompleted s t) : t.tide = s.tide := by obtain ⟨_, _, _, _, _, _, rfl⟩ := h; rfl
theorem OnlyCompleted.pstate {s t : State} (h : OnlyCompleted s t) : t.pstate = s.pstate := by obtain ⟨_, _, _, _, _, _, rfl⟩ := h; rfl
theorem OnlyCompleted.engines {s t : State} (h : OnlyCompleted s t) : t.engines = s.engines := by obtain ⟨_, _, _, _, _, _, rfl⟩ := h; rfl
theorem OnlyCompleted.cipher {s t : State} (h : OnlyCompleted s t) : t.cipher = s.cipher := by obtain ⟨_, _, _, _, _, _, rfl⟩ := h; rfl
theorem OnlyCompleted.log {s t : State} (h : OnlyCompleted s t) : t.log = s.log := by obtain ⟨_, _, _, _, _, _, rfl⟩ := h; rfl
theorem OnlyCompleted.update {s t : State} (h : OnlyCompleted s t) : t.update = s.update := by obtain ⟨_, _, _, _, _, _, rfl⟩ := h; rfl
theorem OnlyCompleted.sideband {s t : State} (h : OnlyCompleted s t) : t.sideband = s.sideband := by obtain ⟨_, _, _, _, _, _, rfl⟩ := h; rfl
theorem OnlyCompleted.lines {s t : State} (h : OnlyCompleted s t) : t.lines = s.lines := by obtain ⟨_, _, _, _, _, _, rfl⟩ := h; rfl
theorem OnlyCompleted.pathErrors {s t : State} (h : OnlyCompleted s t) : t.pathErrors = s.pathErrors := by obtain ⟨_, _, _, _, _, _, rfl⟩ := h; rfl
theorem OnlyCompleted.draws {s t : State} (h : OnlyCompleted s t) : t.draws = s.draws := by obtain ⟨_, _, _, _, _, _, rfl⟩ := h; rfl
theorem OnlyCompleted.freeN {s t : State} (h : OnlyCompleted s t) : t.freeN = s.freeN := by obtain ⟨_, _, _, _, _, _, rfl⟩ := h; rfl

/-- `t` is `s` but for what follows every command. -/
def OnlySettled (s t : State) : Prop := ∃ x0 x1 x2 x3, t = { s with regs := x0, space := x1, pstate := x2, lines := x3 }

theorem OnlySettled.refl (s : State) : OnlySettled s s := ⟨_, _, _, _, rfl⟩

theorem OnlySettled.trans {s t u : State} (h : OnlySettled s t) (k : OnlySettled t u) : OnlySettled s u := by
  obtain ⟨_, _, _, _, rfl⟩ := h; obtain ⟨_, _, _, _, rfl⟩ := k; exact ⟨_, _, _, _, rfl⟩

theorem OnlySettled.pending {s t : State} (h : OnlySettled s t) : t.pending = s.pending := by obtain ⟨_, _, _, _, rfl⟩ := h; rfl
theorem OnlySettled.boardUs {s t : State} (h : OnlySettled s t) : t.boardUs = s.boardUs := by obtain ⟨_, _, _, _, rfl⟩ := h; rfl
theorem OnlySettled.sessionUs {s t : State} (h : OnlySettled s t) : t.sessionUs = s.sessionUs := by obtain ⟨_, _, _, _, rfl⟩ := h; rfl
theorem OnlySettled.poweredUs {s t : State} (h : OnlySettled s t) : t.poweredUs = s.poweredUs := by obtain ⟨_, _, _, _, rfl⟩ := h; rfl
theorem OnlySettled.persistedAt {s t : State} (h : OnlySettled s t) : t.persistedAt = s.persistedAt := by obtain ⟨_, _, _, _, rfl⟩ := h; rfl
theorem OnlySettled.phase {s t : State} (h : OnlySettled s t) : t.phase = s.phase := by obtain ⟨_, _, _, _, rfl⟩ := h; rfl
theorem OnlySettled.power {s t : State} (h : OnlySettled s t) : t.power = s.power := by obtain ⟨_, _, _, _, rfl⟩ := h; rfl
theorem OnlySettled.boot {s t : State} (h : OnlySettled s t) : t.boot = s.boot := by obtain ⟨_, _, _, _, rfl⟩ := h; rfl
theorem OnlySettled.shadows {s t : State} (h : OnlySettled s t) : t.shadows = s.shadows := by obtain ⟨_, _, _, _, rfl⟩ := h; rfl
theorem OnlySettled.latches {s t : State} (h : OnlySettled s t) : t.latches = s.latches := by obtain ⟨_, _, _, _, rfl⟩ := h; rfl
theorem OnlySettled.mode {s t : State} (h : OnlySettled s t) : t.mode = s.mode := by obtain ⟨_, _, _, _, rfl⟩ := h; rfl
theorem OnlySettled.linkA {s t : State} (h : OnlySettled s t) : t.linkA = s.linkA := by obtain ⟨_, _, _, _, rfl⟩ := h; rfl
theorem OnlySettled.linkB {s t : State} (h : OnlySettled s t) : t.linkB = s.linkB := by obtain ⟨_, _, _, _, rfl⟩ := h; rfl
theorem OnlySettled.handshakes {s t : State} (h : OnlySettled s t) : t.handshakes = s.handshakes := by obtain ⟨_, _, _, _, rfl⟩ := h; rfl
theorem OnlySettled.answered {s t : State} (h : OnlySettled s t) : t.answered = s.answered := by obtain ⟨_, _, _, _, rfl⟩ := h; rfl
theorem OnlySettled.moorings {s t : State} (h : OnlySettled s t) : t.moorings = s.moorings := by obtain ⟨_, _, _, _, rfl⟩ := h; rfl
theorem OnlySettled.berths {s t : State} (h : OnlySettled s t) : t.berths = s.berths := by obtain ⟨_, _, _, _, rfl⟩ := h; rfl
theorem OnlySettled.withheld {s t : State} (h : OnlySettled s t) : t.withheld = s.withheld := by obtain ⟨_, _, _, _, rfl⟩ := h; rfl
theorem OnlySettled.seqr {s t : State} (h : OnlySettled s t) : t.seqr = s.seqr := by obtain ⟨_, _, _, _, rfl⟩ := h; rfl
theorem OnlySettled.seals {s t : State} (h : OnlySettled s t) : t.seals = s.seals := by obtain ⟨_, _, _, _, rfl⟩ := h; rfl
theorem OnlySettled.cmds {s t : State} (h : OnlySettled s t) : t.cmds = s.cmds := by obtain ⟨_, _, _, _, rfl⟩ := h; rfl
theorem OnlySettled.flash {s t : State} (h : OnlySettled s t) : t.flash = s.flash := by obtain ⟨_, _, _, _, rfl⟩ := h; rfl
theorem OnlySettled.index {s t : State} (h : OnlySettled s t) : t.index = s.index := by obtain ⟨_, _, _, _, rfl⟩ := h; rfl
theorem OnlySettled.dies {s t : State} (h : OnlySettled s t) : t.dies = s.dies := by obtain ⟨_, _, _, _, rfl⟩ := h; rfl
theorem OnlySettled.careen {s t : State} (h : OnlySettled s t) : t.careen = s.careen := by obtain ⟨_, _, _, _, rfl⟩ := h; rfl
theorem OnlySettled.sensors {s t : State} (h : OnlySettled s t) : t.sensors = s.sensors := by obtain ⟨_, _, _, _, rfl⟩ := h; rfl
theorem OnlySettled.tide {s t : State} (h : OnlySettled s t) : t.tide = s.tide := by obtain ⟨_, _, _, _, rfl⟩ := h; rfl
theorem OnlySettled.engines {s t : State} (h : OnlySettled s t) : t.engines = s.engines := by obtain ⟨_, _, _, _, rfl⟩ := h; rfl
theorem OnlySettled.cipher {s t : State} (h : OnlySettled s t) : t.cipher = s.cipher := by obtain ⟨_, _, _, _, rfl⟩ := h; rfl
theorem OnlySettled.log {s t : State} (h : OnlySettled s t) : t.log = s.log := by obtain ⟨_, _, _, _, rfl⟩ := h; rfl
theorem OnlySettled.update {s t : State} (h : OnlySettled s t) : t.update = s.update := by obtain ⟨_, _, _, _, rfl⟩ := h; rfl
theorem OnlySettled.harbour {s t : State} (h : OnlySettled s t) : t.harbour = s.harbour := by obtain ⟨_, _, _, _, rfl⟩ := h; rfl
theorem OnlySettled.sideband {s t : State} (h : OnlySettled s t) : t.sideband = s.sideband := by obtain ⟨_, _, _, _, rfl⟩ := h; rfl
theorem OnlySettled.pathErrors {s t : State} (h : OnlySettled s t) : t.pathErrors = s.pathErrors := by obtain ⟨_, _, _, _, rfl⟩ := h; rfl
theorem OnlySettled.out {s t : State} (h : OnlySettled s t) : t.out = s.out := by obtain ⟨_, _, _, _, rfl⟩ := h; rfl
theorem OnlySettled.draws {s t : State} (h : OnlySettled s t) : t.draws = s.draws := by obtain ⟨_, _, _, _, rfl⟩ := h; rfl
theorem OnlySettled.freeN {s t : State} (h : OnlySettled s t) : t.freeN = s.freeN := by obtain ⟨_, _, _, _, rfl⟩ := h; rfl

/-- `t` is `s` but for what completions and refused capsules change, and the sequencer. -/
def OnlyDecided (s t : State) : Prop := ∃ x0 x1 x2 x3 x4 x5 x6 x7, t = { s with moorings := x0, harbour := x1, out := x2, regs := x3, berths := x4, withheld := x5, flash := x6, seqr := x7 }

theorem OnlyDecided.refl (s : State) : OnlyDecided s s := ⟨_, _, _, _, _, _, _, _, rfl⟩

theorem OnlyDecided.trans {s t u : State} (h : OnlyDecided s t) (k : OnlyDecided t u) : OnlyDecided s u := by
  obtain ⟨_, _, _, _, _, _, _, _, rfl⟩ := h; obtain ⟨_, _, _, _, _, _, _, _, rfl⟩ := k; exact ⟨_, _, _, _, _, _, _, _, rfl⟩

theorem OnlyDecided.pending {s t : State} (h : OnlyDecided s t) : t.pending = s.pending := by obtain ⟨_, _, _, _, _, _, _, _, rfl⟩ := h; rfl
theorem OnlyDecided.boardUs {s t : State} (h : OnlyDecided s t) : t.boardUs = s.boardUs := by obtain ⟨_, _, _, _, _, _, _, _, rfl⟩ := h; rfl
theorem OnlyDecided.sessionUs {s t : State} (h : OnlyDecided s t) : t.sessionUs = s.sessionUs := by obtain ⟨_, _, _, _, _, _, _, _, rfl⟩ := h; rfl
theorem OnlyDecided.poweredUs {s t : State} (h : OnlyDecided s t) : t.poweredUs = s.poweredUs := by obtain ⟨_, _, _, _, _, _, _, _, rfl⟩ := h; rfl
theorem OnlyDecided.persistedAt {s t : State} (h : OnlyDecided s t) : t.persistedAt = s.persistedAt := by obtain ⟨_, _, _, _, _, _, _, _, rfl⟩ := h; rfl
theorem OnlyDecided.phase {s t : State} (h : OnlyDecided s t) : t.phase = s.phase := by obtain ⟨_, _, _, _, _, _, _, _, rfl⟩ := h; rfl
theorem OnlyDecided.power {s t : State} (h : OnlyDecided s t) : t.power = s.power := by obtain ⟨_, _, _, _, _, _, _, _, rfl⟩ := h; rfl
theorem OnlyDecided.boot {s t : State} (h : OnlyDecided s t) : t.boot = s.boot := by obtain ⟨_, _, _, _, _, _, _, _, rfl⟩ := h; rfl
theorem OnlyDecided.shadows {s t : State} (h : OnlyDecided s t) : t.shadows = s.shadows := by obtain ⟨_, _, _, _, _, _, _, _, rfl⟩ := h; rfl
theorem OnlyDecided.latches {s t : State} (h : OnlyDecided s t) : t.latches = s.latches := by obtain ⟨_, _, _, _, _, _, _, _, rfl⟩ := h; rfl
theorem OnlyDecided.mode {s t : State} (h : OnlyDecided s t) : t.mode = s.mode := by obtain ⟨_, _, _, _, _, _, _, _, rfl⟩ := h; rfl
theorem OnlyDecided.linkA {s t : State} (h : OnlyDecided s t) : t.linkA = s.linkA := by obtain ⟨_, _, _, _, _, _, _, _, rfl⟩ := h; rfl
theorem OnlyDecided.linkB {s t : State} (h : OnlyDecided s t) : t.linkB = s.linkB := by obtain ⟨_, _, _, _, _, _, _, _, rfl⟩ := h; rfl
theorem OnlyDecided.handshakes {s t : State} (h : OnlyDecided s t) : t.handshakes = s.handshakes := by obtain ⟨_, _, _, _, _, _, _, _, rfl⟩ := h; rfl
theorem OnlyDecided.answered {s t : State} (h : OnlyDecided s t) : t.answered = s.answered := by obtain ⟨_, _, _, _, _, _, _, _, rfl⟩ := h; rfl
theorem OnlyDecided.seals {s t : State} (h : OnlyDecided s t) : t.seals = s.seals := by obtain ⟨_, _, _, _, _, _, _, _, rfl⟩ := h; rfl
theorem OnlyDecided.cmds {s t : State} (h : OnlyDecided s t) : t.cmds = s.cmds := by obtain ⟨_, _, _, _, _, _, _, _, rfl⟩ := h; rfl
theorem OnlyDecided.space {s t : State} (h : OnlyDecided s t) : t.space = s.space := by obtain ⟨_, _, _, _, _, _, _, _, rfl⟩ := h; rfl
theorem OnlyDecided.index {s t : State} (h : OnlyDecided s t) : t.index = s.index := by obtain ⟨_, _, _, _, _, _, _, _, rfl⟩ := h; rfl
theorem OnlyDecided.dies {s t : State} (h : OnlyDecided s t) : t.dies = s.dies := by obtain ⟨_, _, _, _, _, _, _, _, rfl⟩ := h; rfl
theorem OnlyDecided.careen {s t : State} (h : OnlyDecided s t) : t.careen = s.careen := by obtain ⟨_, _, _, _, _, _, _, _, rfl⟩ := h; rfl
theorem OnlyDecided.sensors {s t : State} (h : OnlyDecided s t) : t.sensors = s.sensors := by obtain ⟨_, _, _, _, _, _, _, _, rfl⟩ := h; rfl
theorem OnlyDecided.tide {s t : State} (h : OnlyDecided s t) : t.tide = s.tide := by obtain ⟨_, _, _, _, _, _, _, _, rfl⟩ := h; rfl
theorem OnlyDecided.pstate {s t : State} (h : OnlyDecided s t) : t.pstate = s.pstate := by obtain ⟨_, _, _, _, _, _, _, _, rfl⟩ := h; rfl
theorem OnlyDecided.engines {s t : State} (h : OnlyDecided s t) : t.engines = s.engines := by obtain ⟨_, _, _, _, _, _, _, _, rfl⟩ := h; rfl
theorem OnlyDecided.cipher {s t : State} (h : OnlyDecided s t) : t.cipher = s.cipher := by obtain ⟨_, _, _, _, _, _, _, _, rfl⟩ := h; rfl
theorem OnlyDecided.log {s t : State} (h : OnlyDecided s t) : t.log = s.log := by obtain ⟨_, _, _, _, _, _, _, _, rfl⟩ := h; rfl
theorem OnlyDecided.update {s t : State} (h : OnlyDecided s t) : t.update = s.update := by obtain ⟨_, _, _, _, _, _, _, _, rfl⟩ := h; rfl
theorem OnlyDecided.sideband {s t : State} (h : OnlyDecided s t) : t.sideband = s.sideband := by obtain ⟨_, _, _, _, _, _, _, _, rfl⟩ := h; rfl
theorem OnlyDecided.lines {s t : State} (h : OnlyDecided s t) : t.lines = s.lines := by obtain ⟨_, _, _, _, _, _, _, _, rfl⟩ := h; rfl
theorem OnlyDecided.pathErrors {s t : State} (h : OnlyDecided s t) : t.pathErrors = s.pathErrors := by obtain ⟨_, _, _, _, _, _, _, _, rfl⟩ := h; rfl
theorem OnlyDecided.draws {s t : State} (h : OnlyDecided s t) : t.draws = s.draws := by obtain ⟨_, _, _, _, _, _, _, _, rfl⟩ := h; rfl
theorem OnlyDecided.freeN {s t : State} (h : OnlyDecided s t) : t.freeN = s.freeN := by obtain ⟨_, _, _, _, _, _, _, _, rfl⟩ := h; rfl

/-! ### The register file -/

theorem regSet_frame (s : State) (key : Nat) (w : Word) : OnlyRegs s (regSet s key w) := by
  exact ⟨_, rfl⟩

@[simp] theorem regSet_pending (s : State) (key : Nat) (w : Word) : (regSet s key w).pending = s.pending := (regSet_frame s key w).pending
@[simp] theorem regSet_boardUs (s : State) (key : Nat) (w : Word) : (regSet s key w).boardUs = s.boardUs := (regSet_frame s key w).boardUs
@[simp] theorem regSet_sessionUs (s : State) (key : Nat) (w : Word) : (regSet s key w).sessionUs = s.sessionUs := (regSet_frame s key w).sessionUs
@[simp] theorem regSet_poweredUs (s : State) (key : Nat) (w : Word) : (regSet s key w).poweredUs = s.poweredUs := (regSet_frame s key w).poweredUs
@[simp] theorem regSet_persistedAt (s : State) (key : Nat) (w : Word) : (regSet s key w).persistedAt = s.persistedAt := (regSet_frame s key w).persistedAt
@[simp] theorem regSet_phase (s : State) (key : Nat) (w : Word) : (regSet s key w).phase = s.phase := (regSet_frame s key w).phase
@[simp] theorem regSet_power (s : State) (key : Nat) (w : Word) : (regSet s key w).power = s.power := (regSet_frame s key w).power
@[simp] theorem regSet_boot (s : State) (key : Nat) (w : Word) : (regSet s key w).boot = s.boot := (regSet_frame s key w).boot
@[simp] theorem regSet_shadows (s : State) (key : Nat) (w : Word) : (regSet s key w).shadows = s.shadows := (regSet_frame s key w).shadows
@[simp] theorem regSet_latches (s : State) (key : Nat) (w : Word) : (regSet s key w).latches = s.latches := (regSet_frame s key w).latches
@[simp] theorem regSet_mode (s : State) (key : Nat) (w : Word) : (regSet s key w).mode = s.mode := (regSet_frame s key w).mode
@[simp] theorem regSet_linkA (s : State) (key : Nat) (w : Word) : (regSet s key w).linkA = s.linkA := (regSet_frame s key w).linkA
@[simp] theorem regSet_linkB (s : State) (key : Nat) (w : Word) : (regSet s key w).linkB = s.linkB := (regSet_frame s key w).linkB
@[simp] theorem regSet_handshakes (s : State) (key : Nat) (w : Word) : (regSet s key w).handshakes = s.handshakes := (regSet_frame s key w).handshakes
@[simp] theorem regSet_answered (s : State) (key : Nat) (w : Word) : (regSet s key w).answered = s.answered := (regSet_frame s key w).answered
@[simp] theorem regSet_moorings (s : State) (key : Nat) (w : Word) : (regSet s key w).moorings = s.moorings := (regSet_frame s key w).moorings
@[simp] theorem regSet_berths (s : State) (key : Nat) (w : Word) : (regSet s key w).berths = s.berths := (regSet_frame s key w).berths
@[simp] theorem regSet_withheld (s : State) (key : Nat) (w : Word) : (regSet s key w).withheld = s.withheld := (regSet_frame s key w).withheld
@[simp] theorem regSet_seqr (s : State) (key : Nat) (w : Word) : (regSet s key w).seqr = s.seqr := (regSet_frame s key w).seqr
@[simp] theorem regSet_seals (s : State) (key : Nat) (w : Word) : (regSet s key w).seals = s.seals := (regSet_frame s key w).seals
@[simp] theorem regSet_cmds (s : State) (key : Nat) (w : Word) : (regSet s key w).cmds = s.cmds := (regSet_frame s key w).cmds
@[simp] theorem regSet_flash (s : State) (key : Nat) (w : Word) : (regSet s key w).flash = s.flash := (regSet_frame s key w).flash
@[simp] theorem regSet_space (s : State) (key : Nat) (w : Word) : (regSet s key w).space = s.space := (regSet_frame s key w).space
@[simp] theorem regSet_index (s : State) (key : Nat) (w : Word) : (regSet s key w).index = s.index := (regSet_frame s key w).index
@[simp] theorem regSet_dies (s : State) (key : Nat) (w : Word) : (regSet s key w).dies = s.dies := (regSet_frame s key w).dies
@[simp] theorem regSet_careen (s : State) (key : Nat) (w : Word) : (regSet s key w).careen = s.careen := (regSet_frame s key w).careen
@[simp] theorem regSet_sensors (s : State) (key : Nat) (w : Word) : (regSet s key w).sensors = s.sensors := (regSet_frame s key w).sensors
@[simp] theorem regSet_tide (s : State) (key : Nat) (w : Word) : (regSet s key w).tide = s.tide := (regSet_frame s key w).tide
@[simp] theorem regSet_pstate (s : State) (key : Nat) (w : Word) : (regSet s key w).pstate = s.pstate := (regSet_frame s key w).pstate
@[simp] theorem regSet_engines (s : State) (key : Nat) (w : Word) : (regSet s key w).engines = s.engines := (regSet_frame s key w).engines
@[simp] theorem regSet_cipher (s : State) (key : Nat) (w : Word) : (regSet s key w).cipher = s.cipher := (regSet_frame s key w).cipher
@[simp] theorem regSet_log (s : State) (key : Nat) (w : Word) : (regSet s key w).log = s.log := (regSet_frame s key w).log
@[simp] theorem regSet_update (s : State) (key : Nat) (w : Word) : (regSet s key w).update = s.update := (regSet_frame s key w).update
@[simp] theorem regSet_harbour (s : State) (key : Nat) (w : Word) : (regSet s key w).harbour = s.harbour := (regSet_frame s key w).harbour
@[simp] theorem regSet_sideband (s : State) (key : Nat) (w : Word) : (regSet s key w).sideband = s.sideband := (regSet_frame s key w).sideband
@[simp] theorem regSet_lines (s : State) (key : Nat) (w : Word) : (regSet s key w).lines = s.lines := (regSet_frame s key w).lines
@[simp] theorem regSet_pathErrors (s : State) (key : Nat) (w : Word) : (regSet s key w).pathErrors = s.pathErrors := (regSet_frame s key w).pathErrors
@[simp] theorem regSet_out (s : State) (key : Nat) (w : Word) : (regSet s key w).out = s.out := (regSet_frame s key w).out
@[simp] theorem regSet_draws (s : State) (key : Nat) (w : Word) : (regSet s key w).draws = s.draws := (regSet_frame s key w).draws
@[simp] theorem regSet_freeN (s : State) (key : Nat) (w : Word) : (regSet s key w).freeN = s.freeN := (regSet_frame s key w).freeN

theorem fieldSet_frame (s : State) (addr hi lo v : Nat) : OnlyRegs s (fieldSet s addr hi lo v) := by
  exact ⟨_, rfl⟩

@[simp] theorem fieldSet_pending (s : State) (addr hi lo v : Nat) : (fieldSet s addr hi lo v).pending = s.pending := (fieldSet_frame s addr hi lo v).pending
@[simp] theorem fieldSet_boardUs (s : State) (addr hi lo v : Nat) : (fieldSet s addr hi lo v).boardUs = s.boardUs := (fieldSet_frame s addr hi lo v).boardUs
@[simp] theorem fieldSet_sessionUs (s : State) (addr hi lo v : Nat) : (fieldSet s addr hi lo v).sessionUs = s.sessionUs := (fieldSet_frame s addr hi lo v).sessionUs
@[simp] theorem fieldSet_poweredUs (s : State) (addr hi lo v : Nat) : (fieldSet s addr hi lo v).poweredUs = s.poweredUs := (fieldSet_frame s addr hi lo v).poweredUs
@[simp] theorem fieldSet_persistedAt (s : State) (addr hi lo v : Nat) : (fieldSet s addr hi lo v).persistedAt = s.persistedAt := (fieldSet_frame s addr hi lo v).persistedAt
@[simp] theorem fieldSet_phase (s : State) (addr hi lo v : Nat) : (fieldSet s addr hi lo v).phase = s.phase := (fieldSet_frame s addr hi lo v).phase
@[simp] theorem fieldSet_power (s : State) (addr hi lo v : Nat) : (fieldSet s addr hi lo v).power = s.power := (fieldSet_frame s addr hi lo v).power
@[simp] theorem fieldSet_boot (s : State) (addr hi lo v : Nat) : (fieldSet s addr hi lo v).boot = s.boot := (fieldSet_frame s addr hi lo v).boot
@[simp] theorem fieldSet_shadows (s : State) (addr hi lo v : Nat) : (fieldSet s addr hi lo v).shadows = s.shadows := (fieldSet_frame s addr hi lo v).shadows
@[simp] theorem fieldSet_latches (s : State) (addr hi lo v : Nat) : (fieldSet s addr hi lo v).latches = s.latches := (fieldSet_frame s addr hi lo v).latches
@[simp] theorem fieldSet_mode (s : State) (addr hi lo v : Nat) : (fieldSet s addr hi lo v).mode = s.mode := (fieldSet_frame s addr hi lo v).mode
@[simp] theorem fieldSet_linkA (s : State) (addr hi lo v : Nat) : (fieldSet s addr hi lo v).linkA = s.linkA := (fieldSet_frame s addr hi lo v).linkA
@[simp] theorem fieldSet_linkB (s : State) (addr hi lo v : Nat) : (fieldSet s addr hi lo v).linkB = s.linkB := (fieldSet_frame s addr hi lo v).linkB
@[simp] theorem fieldSet_handshakes (s : State) (addr hi lo v : Nat) : (fieldSet s addr hi lo v).handshakes = s.handshakes := (fieldSet_frame s addr hi lo v).handshakes
@[simp] theorem fieldSet_answered (s : State) (addr hi lo v : Nat) : (fieldSet s addr hi lo v).answered = s.answered := (fieldSet_frame s addr hi lo v).answered
@[simp] theorem fieldSet_moorings (s : State) (addr hi lo v : Nat) : (fieldSet s addr hi lo v).moorings = s.moorings := (fieldSet_frame s addr hi lo v).moorings
@[simp] theorem fieldSet_berths (s : State) (addr hi lo v : Nat) : (fieldSet s addr hi lo v).berths = s.berths := (fieldSet_frame s addr hi lo v).berths
@[simp] theorem fieldSet_withheld (s : State) (addr hi lo v : Nat) : (fieldSet s addr hi lo v).withheld = s.withheld := (fieldSet_frame s addr hi lo v).withheld
@[simp] theorem fieldSet_seqr (s : State) (addr hi lo v : Nat) : (fieldSet s addr hi lo v).seqr = s.seqr := (fieldSet_frame s addr hi lo v).seqr
@[simp] theorem fieldSet_seals (s : State) (addr hi lo v : Nat) : (fieldSet s addr hi lo v).seals = s.seals := (fieldSet_frame s addr hi lo v).seals
@[simp] theorem fieldSet_cmds (s : State) (addr hi lo v : Nat) : (fieldSet s addr hi lo v).cmds = s.cmds := (fieldSet_frame s addr hi lo v).cmds
@[simp] theorem fieldSet_flash (s : State) (addr hi lo v : Nat) : (fieldSet s addr hi lo v).flash = s.flash := (fieldSet_frame s addr hi lo v).flash
@[simp] theorem fieldSet_space (s : State) (addr hi lo v : Nat) : (fieldSet s addr hi lo v).space = s.space := (fieldSet_frame s addr hi lo v).space
@[simp] theorem fieldSet_index (s : State) (addr hi lo v : Nat) : (fieldSet s addr hi lo v).index = s.index := (fieldSet_frame s addr hi lo v).index
@[simp] theorem fieldSet_dies (s : State) (addr hi lo v : Nat) : (fieldSet s addr hi lo v).dies = s.dies := (fieldSet_frame s addr hi lo v).dies
@[simp] theorem fieldSet_careen (s : State) (addr hi lo v : Nat) : (fieldSet s addr hi lo v).careen = s.careen := (fieldSet_frame s addr hi lo v).careen
@[simp] theorem fieldSet_sensors (s : State) (addr hi lo v : Nat) : (fieldSet s addr hi lo v).sensors = s.sensors := (fieldSet_frame s addr hi lo v).sensors
@[simp] theorem fieldSet_tide (s : State) (addr hi lo v : Nat) : (fieldSet s addr hi lo v).tide = s.tide := (fieldSet_frame s addr hi lo v).tide
@[simp] theorem fieldSet_pstate (s : State) (addr hi lo v : Nat) : (fieldSet s addr hi lo v).pstate = s.pstate := (fieldSet_frame s addr hi lo v).pstate
@[simp] theorem fieldSet_engines (s : State) (addr hi lo v : Nat) : (fieldSet s addr hi lo v).engines = s.engines := (fieldSet_frame s addr hi lo v).engines
@[simp] theorem fieldSet_cipher (s : State) (addr hi lo v : Nat) : (fieldSet s addr hi lo v).cipher = s.cipher := (fieldSet_frame s addr hi lo v).cipher
@[simp] theorem fieldSet_log (s : State) (addr hi lo v : Nat) : (fieldSet s addr hi lo v).log = s.log := (fieldSet_frame s addr hi lo v).log
@[simp] theorem fieldSet_update (s : State) (addr hi lo v : Nat) : (fieldSet s addr hi lo v).update = s.update := (fieldSet_frame s addr hi lo v).update
@[simp] theorem fieldSet_harbour (s : State) (addr hi lo v : Nat) : (fieldSet s addr hi lo v).harbour = s.harbour := (fieldSet_frame s addr hi lo v).harbour
@[simp] theorem fieldSet_sideband (s : State) (addr hi lo v : Nat) : (fieldSet s addr hi lo v).sideband = s.sideband := (fieldSet_frame s addr hi lo v).sideband
@[simp] theorem fieldSet_lines (s : State) (addr hi lo v : Nat) : (fieldSet s addr hi lo v).lines = s.lines := (fieldSet_frame s addr hi lo v).lines
@[simp] theorem fieldSet_pathErrors (s : State) (addr hi lo v : Nat) : (fieldSet s addr hi lo v).pathErrors = s.pathErrors := (fieldSet_frame s addr hi lo v).pathErrors
@[simp] theorem fieldSet_out (s : State) (addr hi lo v : Nat) : (fieldSet s addr hi lo v).out = s.out := (fieldSet_frame s addr hi lo v).out
@[simp] theorem fieldSet_draws (s : State) (addr hi lo v : Nat) : (fieldSet s addr hi lo v).draws = s.draws := (fieldSet_frame s addr hi lo v).draws
@[simp] theorem fieldSet_freeN (s : State) (addr hi lo v : Nat) : (fieldSet s addr hi lo v).freeN = s.freeN := (fieldSet_frame s addr hi lo v).freeN

theorem bump_frame (s : State) (addr : Nat) : OnlyRegs s (bump s addr) := by
  exact ⟨_, rfl⟩

@[simp] theorem bump_pending (s : State) (addr : Nat) : (bump s addr).pending = s.pending := (bump_frame s addr).pending
@[simp] theorem bump_boardUs (s : State) (addr : Nat) : (bump s addr).boardUs = s.boardUs := (bump_frame s addr).boardUs
@[simp] theorem bump_sessionUs (s : State) (addr : Nat) : (bump s addr).sessionUs = s.sessionUs := (bump_frame s addr).sessionUs
@[simp] theorem bump_poweredUs (s : State) (addr : Nat) : (bump s addr).poweredUs = s.poweredUs := (bump_frame s addr).poweredUs
@[simp] theorem bump_persistedAt (s : State) (addr : Nat) : (bump s addr).persistedAt = s.persistedAt := (bump_frame s addr).persistedAt
@[simp] theorem bump_phase (s : State) (addr : Nat) : (bump s addr).phase = s.phase := (bump_frame s addr).phase
@[simp] theorem bump_power (s : State) (addr : Nat) : (bump s addr).power = s.power := (bump_frame s addr).power
@[simp] theorem bump_boot (s : State) (addr : Nat) : (bump s addr).boot = s.boot := (bump_frame s addr).boot
@[simp] theorem bump_shadows (s : State) (addr : Nat) : (bump s addr).shadows = s.shadows := (bump_frame s addr).shadows
@[simp] theorem bump_latches (s : State) (addr : Nat) : (bump s addr).latches = s.latches := (bump_frame s addr).latches
@[simp] theorem bump_mode (s : State) (addr : Nat) : (bump s addr).mode = s.mode := (bump_frame s addr).mode
@[simp] theorem bump_linkA (s : State) (addr : Nat) : (bump s addr).linkA = s.linkA := (bump_frame s addr).linkA
@[simp] theorem bump_linkB (s : State) (addr : Nat) : (bump s addr).linkB = s.linkB := (bump_frame s addr).linkB
@[simp] theorem bump_handshakes (s : State) (addr : Nat) : (bump s addr).handshakes = s.handshakes := (bump_frame s addr).handshakes
@[simp] theorem bump_answered (s : State) (addr : Nat) : (bump s addr).answered = s.answered := (bump_frame s addr).answered
@[simp] theorem bump_moorings (s : State) (addr : Nat) : (bump s addr).moorings = s.moorings := (bump_frame s addr).moorings
@[simp] theorem bump_berths (s : State) (addr : Nat) : (bump s addr).berths = s.berths := (bump_frame s addr).berths
@[simp] theorem bump_withheld (s : State) (addr : Nat) : (bump s addr).withheld = s.withheld := (bump_frame s addr).withheld
@[simp] theorem bump_seqr (s : State) (addr : Nat) : (bump s addr).seqr = s.seqr := (bump_frame s addr).seqr
@[simp] theorem bump_seals (s : State) (addr : Nat) : (bump s addr).seals = s.seals := (bump_frame s addr).seals
@[simp] theorem bump_cmds (s : State) (addr : Nat) : (bump s addr).cmds = s.cmds := (bump_frame s addr).cmds
@[simp] theorem bump_flash (s : State) (addr : Nat) : (bump s addr).flash = s.flash := (bump_frame s addr).flash
@[simp] theorem bump_space (s : State) (addr : Nat) : (bump s addr).space = s.space := (bump_frame s addr).space
@[simp] theorem bump_index (s : State) (addr : Nat) : (bump s addr).index = s.index := (bump_frame s addr).index
@[simp] theorem bump_dies (s : State) (addr : Nat) : (bump s addr).dies = s.dies := (bump_frame s addr).dies
@[simp] theorem bump_careen (s : State) (addr : Nat) : (bump s addr).careen = s.careen := (bump_frame s addr).careen
@[simp] theorem bump_sensors (s : State) (addr : Nat) : (bump s addr).sensors = s.sensors := (bump_frame s addr).sensors
@[simp] theorem bump_tide (s : State) (addr : Nat) : (bump s addr).tide = s.tide := (bump_frame s addr).tide
@[simp] theorem bump_pstate (s : State) (addr : Nat) : (bump s addr).pstate = s.pstate := (bump_frame s addr).pstate
@[simp] theorem bump_engines (s : State) (addr : Nat) : (bump s addr).engines = s.engines := (bump_frame s addr).engines
@[simp] theorem bump_cipher (s : State) (addr : Nat) : (bump s addr).cipher = s.cipher := (bump_frame s addr).cipher
@[simp] theorem bump_log (s : State) (addr : Nat) : (bump s addr).log = s.log := (bump_frame s addr).log
@[simp] theorem bump_update (s : State) (addr : Nat) : (bump s addr).update = s.update := (bump_frame s addr).update
@[simp] theorem bump_harbour (s : State) (addr : Nat) : (bump s addr).harbour = s.harbour := (bump_frame s addr).harbour
@[simp] theorem bump_sideband (s : State) (addr : Nat) : (bump s addr).sideband = s.sideband := (bump_frame s addr).sideband
@[simp] theorem bump_lines (s : State) (addr : Nat) : (bump s addr).lines = s.lines := (bump_frame s addr).lines
@[simp] theorem bump_pathErrors (s : State) (addr : Nat) : (bump s addr).pathErrors = s.pathErrors := (bump_frame s addr).pathErrors
@[simp] theorem bump_out (s : State) (addr : Nat) : (bump s addr).out = s.out := (bump_frame s addr).out
@[simp] theorem bump_draws (s : State) (addr : Nat) : (bump s addr).draws = s.draws := (bump_frame s addr).draws
@[simp] theorem bump_freeN (s : State) (addr : Nat) : (bump s addr).freeN = s.freeN := (bump_frame s addr).freeN

theorem bumpBy_frame (s : State) (addr k : Nat) : OnlyRegs s (bumpBy s addr k) := by
  exact ⟨_, rfl⟩

@[simp] theorem bumpBy_pending (s : State) (addr k : Nat) : (bumpBy s addr k).pending = s.pending := (bumpBy_frame s addr k).pending
@[simp] theorem bumpBy_boardUs (s : State) (addr k : Nat) : (bumpBy s addr k).boardUs = s.boardUs := (bumpBy_frame s addr k).boardUs
@[simp] theorem bumpBy_sessionUs (s : State) (addr k : Nat) : (bumpBy s addr k).sessionUs = s.sessionUs := (bumpBy_frame s addr k).sessionUs
@[simp] theorem bumpBy_poweredUs (s : State) (addr k : Nat) : (bumpBy s addr k).poweredUs = s.poweredUs := (bumpBy_frame s addr k).poweredUs
@[simp] theorem bumpBy_persistedAt (s : State) (addr k : Nat) : (bumpBy s addr k).persistedAt = s.persistedAt := (bumpBy_frame s addr k).persistedAt
@[simp] theorem bumpBy_phase (s : State) (addr k : Nat) : (bumpBy s addr k).phase = s.phase := (bumpBy_frame s addr k).phase
@[simp] theorem bumpBy_power (s : State) (addr k : Nat) : (bumpBy s addr k).power = s.power := (bumpBy_frame s addr k).power
@[simp] theorem bumpBy_boot (s : State) (addr k : Nat) : (bumpBy s addr k).boot = s.boot := (bumpBy_frame s addr k).boot
@[simp] theorem bumpBy_shadows (s : State) (addr k : Nat) : (bumpBy s addr k).shadows = s.shadows := (bumpBy_frame s addr k).shadows
@[simp] theorem bumpBy_latches (s : State) (addr k : Nat) : (bumpBy s addr k).latches = s.latches := (bumpBy_frame s addr k).latches
@[simp] theorem bumpBy_mode (s : State) (addr k : Nat) : (bumpBy s addr k).mode = s.mode := (bumpBy_frame s addr k).mode
@[simp] theorem bumpBy_linkA (s : State) (addr k : Nat) : (bumpBy s addr k).linkA = s.linkA := (bumpBy_frame s addr k).linkA
@[simp] theorem bumpBy_linkB (s : State) (addr k : Nat) : (bumpBy s addr k).linkB = s.linkB := (bumpBy_frame s addr k).linkB
@[simp] theorem bumpBy_handshakes (s : State) (addr k : Nat) : (bumpBy s addr k).handshakes = s.handshakes := (bumpBy_frame s addr k).handshakes
@[simp] theorem bumpBy_answered (s : State) (addr k : Nat) : (bumpBy s addr k).answered = s.answered := (bumpBy_frame s addr k).answered
@[simp] theorem bumpBy_moorings (s : State) (addr k : Nat) : (bumpBy s addr k).moorings = s.moorings := (bumpBy_frame s addr k).moorings
@[simp] theorem bumpBy_berths (s : State) (addr k : Nat) : (bumpBy s addr k).berths = s.berths := (bumpBy_frame s addr k).berths
@[simp] theorem bumpBy_withheld (s : State) (addr k : Nat) : (bumpBy s addr k).withheld = s.withheld := (bumpBy_frame s addr k).withheld
@[simp] theorem bumpBy_seqr (s : State) (addr k : Nat) : (bumpBy s addr k).seqr = s.seqr := (bumpBy_frame s addr k).seqr
@[simp] theorem bumpBy_seals (s : State) (addr k : Nat) : (bumpBy s addr k).seals = s.seals := (bumpBy_frame s addr k).seals
@[simp] theorem bumpBy_cmds (s : State) (addr k : Nat) : (bumpBy s addr k).cmds = s.cmds := (bumpBy_frame s addr k).cmds
@[simp] theorem bumpBy_flash (s : State) (addr k : Nat) : (bumpBy s addr k).flash = s.flash := (bumpBy_frame s addr k).flash
@[simp] theorem bumpBy_space (s : State) (addr k : Nat) : (bumpBy s addr k).space = s.space := (bumpBy_frame s addr k).space
@[simp] theorem bumpBy_index (s : State) (addr k : Nat) : (bumpBy s addr k).index = s.index := (bumpBy_frame s addr k).index
@[simp] theorem bumpBy_dies (s : State) (addr k : Nat) : (bumpBy s addr k).dies = s.dies := (bumpBy_frame s addr k).dies
@[simp] theorem bumpBy_careen (s : State) (addr k : Nat) : (bumpBy s addr k).careen = s.careen := (bumpBy_frame s addr k).careen
@[simp] theorem bumpBy_sensors (s : State) (addr k : Nat) : (bumpBy s addr k).sensors = s.sensors := (bumpBy_frame s addr k).sensors
@[simp] theorem bumpBy_tide (s : State) (addr k : Nat) : (bumpBy s addr k).tide = s.tide := (bumpBy_frame s addr k).tide
@[simp] theorem bumpBy_pstate (s : State) (addr k : Nat) : (bumpBy s addr k).pstate = s.pstate := (bumpBy_frame s addr k).pstate
@[simp] theorem bumpBy_engines (s : State) (addr k : Nat) : (bumpBy s addr k).engines = s.engines := (bumpBy_frame s addr k).engines
@[simp] theorem bumpBy_cipher (s : State) (addr k : Nat) : (bumpBy s addr k).cipher = s.cipher := (bumpBy_frame s addr k).cipher
@[simp] theorem bumpBy_log (s : State) (addr k : Nat) : (bumpBy s addr k).log = s.log := (bumpBy_frame s addr k).log
@[simp] theorem bumpBy_update (s : State) (addr k : Nat) : (bumpBy s addr k).update = s.update := (bumpBy_frame s addr k).update
@[simp] theorem bumpBy_harbour (s : State) (addr k : Nat) : (bumpBy s addr k).harbour = s.harbour := (bumpBy_frame s addr k).harbour
@[simp] theorem bumpBy_sideband (s : State) (addr k : Nat) : (bumpBy s addr k).sideband = s.sideband := (bumpBy_frame s addr k).sideband
@[simp] theorem bumpBy_lines (s : State) (addr k : Nat) : (bumpBy s addr k).lines = s.lines := (bumpBy_frame s addr k).lines
@[simp] theorem bumpBy_pathErrors (s : State) (addr k : Nat) : (bumpBy s addr k).pathErrors = s.pathErrors := (bumpBy_frame s addr k).pathErrors
@[simp] theorem bumpBy_out (s : State) (addr k : Nat) : (bumpBy s addr k).out = s.out := (bumpBy_frame s addr k).out
@[simp] theorem bumpBy_draws (s : State) (addr k : Nat) : (bumpBy s addr k).draws = s.draws := (bumpBy_frame s addr k).draws
@[simp] theorem bumpBy_freeN (s : State) (addr k : Nat) : (bumpBy s addr k).freeN = s.freeN := (bumpBy_frame s addr k).freeN

theorem bumpHalf_frame (s : State) (addr lo : Nat) : OnlyRegs s (bumpHalf s addr lo) := by
  exact ⟨_, rfl⟩

@[simp] theorem bumpHalf_pending (s : State) (addr lo : Nat) : (bumpHalf s addr lo).pending = s.pending := (bumpHalf_frame s addr lo).pending
@[simp] theorem bumpHalf_boardUs (s : State) (addr lo : Nat) : (bumpHalf s addr lo).boardUs = s.boardUs := (bumpHalf_frame s addr lo).boardUs
@[simp] theorem bumpHalf_sessionUs (s : State) (addr lo : Nat) : (bumpHalf s addr lo).sessionUs = s.sessionUs := (bumpHalf_frame s addr lo).sessionUs
@[simp] theorem bumpHalf_poweredUs (s : State) (addr lo : Nat) : (bumpHalf s addr lo).poweredUs = s.poweredUs := (bumpHalf_frame s addr lo).poweredUs
@[simp] theorem bumpHalf_persistedAt (s : State) (addr lo : Nat) : (bumpHalf s addr lo).persistedAt = s.persistedAt := (bumpHalf_frame s addr lo).persistedAt
@[simp] theorem bumpHalf_phase (s : State) (addr lo : Nat) : (bumpHalf s addr lo).phase = s.phase := (bumpHalf_frame s addr lo).phase
@[simp] theorem bumpHalf_power (s : State) (addr lo : Nat) : (bumpHalf s addr lo).power = s.power := (bumpHalf_frame s addr lo).power
@[simp] theorem bumpHalf_boot (s : State) (addr lo : Nat) : (bumpHalf s addr lo).boot = s.boot := (bumpHalf_frame s addr lo).boot
@[simp] theorem bumpHalf_shadows (s : State) (addr lo : Nat) : (bumpHalf s addr lo).shadows = s.shadows := (bumpHalf_frame s addr lo).shadows
@[simp] theorem bumpHalf_latches (s : State) (addr lo : Nat) : (bumpHalf s addr lo).latches = s.latches := (bumpHalf_frame s addr lo).latches
@[simp] theorem bumpHalf_mode (s : State) (addr lo : Nat) : (bumpHalf s addr lo).mode = s.mode := (bumpHalf_frame s addr lo).mode
@[simp] theorem bumpHalf_linkA (s : State) (addr lo : Nat) : (bumpHalf s addr lo).linkA = s.linkA := (bumpHalf_frame s addr lo).linkA
@[simp] theorem bumpHalf_linkB (s : State) (addr lo : Nat) : (bumpHalf s addr lo).linkB = s.linkB := (bumpHalf_frame s addr lo).linkB
@[simp] theorem bumpHalf_handshakes (s : State) (addr lo : Nat) : (bumpHalf s addr lo).handshakes = s.handshakes := (bumpHalf_frame s addr lo).handshakes
@[simp] theorem bumpHalf_answered (s : State) (addr lo : Nat) : (bumpHalf s addr lo).answered = s.answered := (bumpHalf_frame s addr lo).answered
@[simp] theorem bumpHalf_moorings (s : State) (addr lo : Nat) : (bumpHalf s addr lo).moorings = s.moorings := (bumpHalf_frame s addr lo).moorings
@[simp] theorem bumpHalf_berths (s : State) (addr lo : Nat) : (bumpHalf s addr lo).berths = s.berths := (bumpHalf_frame s addr lo).berths
@[simp] theorem bumpHalf_withheld (s : State) (addr lo : Nat) : (bumpHalf s addr lo).withheld = s.withheld := (bumpHalf_frame s addr lo).withheld
@[simp] theorem bumpHalf_seqr (s : State) (addr lo : Nat) : (bumpHalf s addr lo).seqr = s.seqr := (bumpHalf_frame s addr lo).seqr
@[simp] theorem bumpHalf_seals (s : State) (addr lo : Nat) : (bumpHalf s addr lo).seals = s.seals := (bumpHalf_frame s addr lo).seals
@[simp] theorem bumpHalf_cmds (s : State) (addr lo : Nat) : (bumpHalf s addr lo).cmds = s.cmds := (bumpHalf_frame s addr lo).cmds
@[simp] theorem bumpHalf_flash (s : State) (addr lo : Nat) : (bumpHalf s addr lo).flash = s.flash := (bumpHalf_frame s addr lo).flash
@[simp] theorem bumpHalf_space (s : State) (addr lo : Nat) : (bumpHalf s addr lo).space = s.space := (bumpHalf_frame s addr lo).space
@[simp] theorem bumpHalf_index (s : State) (addr lo : Nat) : (bumpHalf s addr lo).index = s.index := (bumpHalf_frame s addr lo).index
@[simp] theorem bumpHalf_dies (s : State) (addr lo : Nat) : (bumpHalf s addr lo).dies = s.dies := (bumpHalf_frame s addr lo).dies
@[simp] theorem bumpHalf_careen (s : State) (addr lo : Nat) : (bumpHalf s addr lo).careen = s.careen := (bumpHalf_frame s addr lo).careen
@[simp] theorem bumpHalf_sensors (s : State) (addr lo : Nat) : (bumpHalf s addr lo).sensors = s.sensors := (bumpHalf_frame s addr lo).sensors
@[simp] theorem bumpHalf_tide (s : State) (addr lo : Nat) : (bumpHalf s addr lo).tide = s.tide := (bumpHalf_frame s addr lo).tide
@[simp] theorem bumpHalf_pstate (s : State) (addr lo : Nat) : (bumpHalf s addr lo).pstate = s.pstate := (bumpHalf_frame s addr lo).pstate
@[simp] theorem bumpHalf_engines (s : State) (addr lo : Nat) : (bumpHalf s addr lo).engines = s.engines := (bumpHalf_frame s addr lo).engines
@[simp] theorem bumpHalf_cipher (s : State) (addr lo : Nat) : (bumpHalf s addr lo).cipher = s.cipher := (bumpHalf_frame s addr lo).cipher
@[simp] theorem bumpHalf_log (s : State) (addr lo : Nat) : (bumpHalf s addr lo).log = s.log := (bumpHalf_frame s addr lo).log
@[simp] theorem bumpHalf_update (s : State) (addr lo : Nat) : (bumpHalf s addr lo).update = s.update := (bumpHalf_frame s addr lo).update
@[simp] theorem bumpHalf_harbour (s : State) (addr lo : Nat) : (bumpHalf s addr lo).harbour = s.harbour := (bumpHalf_frame s addr lo).harbour
@[simp] theorem bumpHalf_sideband (s : State) (addr lo : Nat) : (bumpHalf s addr lo).sideband = s.sideband := (bumpHalf_frame s addr lo).sideband
@[simp] theorem bumpHalf_lines (s : State) (addr lo : Nat) : (bumpHalf s addr lo).lines = s.lines := (bumpHalf_frame s addr lo).lines
@[simp] theorem bumpHalf_pathErrors (s : State) (addr lo : Nat) : (bumpHalf s addr lo).pathErrors = s.pathErrors := (bumpHalf_frame s addr lo).pathErrors
@[simp] theorem bumpHalf_out (s : State) (addr lo : Nat) : (bumpHalf s addr lo).out = s.out := (bumpHalf_frame s addr lo).out
@[simp] theorem bumpHalf_draws (s : State) (addr lo : Nat) : (bumpHalf s addr lo).draws = s.draws := (bumpHalf_frame s addr lo).draws
@[simp] theorem bumpHalf_freeN (s : State) (addr lo : Nat) : (bumpHalf s addr lo).freeN = s.freeN := (bumpHalf_frame s addr lo).freeN

theorem raise_frame (s : State) (page b : Nat) : OnlyRegs s (raise s page b) := by
  exact (regSet_frame _ _ _).trans (bump_frame _ _)

@[simp] theorem raise_pending (s : State) (page b : Nat) : (raise s page b).pending = s.pending := (raise_frame s page b).pending
@[simp] theorem raise_boardUs (s : State) (page b : Nat) : (raise s page b).boardUs = s.boardUs := (raise_frame s page b).boardUs
@[simp] theorem raise_sessionUs (s : State) (page b : Nat) : (raise s page b).sessionUs = s.sessionUs := (raise_frame s page b).sessionUs
@[simp] theorem raise_poweredUs (s : State) (page b : Nat) : (raise s page b).poweredUs = s.poweredUs := (raise_frame s page b).poweredUs
@[simp] theorem raise_persistedAt (s : State) (page b : Nat) : (raise s page b).persistedAt = s.persistedAt := (raise_frame s page b).persistedAt
@[simp] theorem raise_phase (s : State) (page b : Nat) : (raise s page b).phase = s.phase := (raise_frame s page b).phase
@[simp] theorem raise_power (s : State) (page b : Nat) : (raise s page b).power = s.power := (raise_frame s page b).power
@[simp] theorem raise_boot (s : State) (page b : Nat) : (raise s page b).boot = s.boot := (raise_frame s page b).boot
@[simp] theorem raise_shadows (s : State) (page b : Nat) : (raise s page b).shadows = s.shadows := (raise_frame s page b).shadows
@[simp] theorem raise_latches (s : State) (page b : Nat) : (raise s page b).latches = s.latches := (raise_frame s page b).latches
@[simp] theorem raise_mode (s : State) (page b : Nat) : (raise s page b).mode = s.mode := (raise_frame s page b).mode
@[simp] theorem raise_linkA (s : State) (page b : Nat) : (raise s page b).linkA = s.linkA := (raise_frame s page b).linkA
@[simp] theorem raise_linkB (s : State) (page b : Nat) : (raise s page b).linkB = s.linkB := (raise_frame s page b).linkB
@[simp] theorem raise_handshakes (s : State) (page b : Nat) : (raise s page b).handshakes = s.handshakes := (raise_frame s page b).handshakes
@[simp] theorem raise_answered (s : State) (page b : Nat) : (raise s page b).answered = s.answered := (raise_frame s page b).answered
@[simp] theorem raise_moorings (s : State) (page b : Nat) : (raise s page b).moorings = s.moorings := (raise_frame s page b).moorings
@[simp] theorem raise_berths (s : State) (page b : Nat) : (raise s page b).berths = s.berths := (raise_frame s page b).berths
@[simp] theorem raise_withheld (s : State) (page b : Nat) : (raise s page b).withheld = s.withheld := (raise_frame s page b).withheld
@[simp] theorem raise_seqr (s : State) (page b : Nat) : (raise s page b).seqr = s.seqr := (raise_frame s page b).seqr
@[simp] theorem raise_seals (s : State) (page b : Nat) : (raise s page b).seals = s.seals := (raise_frame s page b).seals
@[simp] theorem raise_cmds (s : State) (page b : Nat) : (raise s page b).cmds = s.cmds := (raise_frame s page b).cmds
@[simp] theorem raise_flash (s : State) (page b : Nat) : (raise s page b).flash = s.flash := (raise_frame s page b).flash
@[simp] theorem raise_space (s : State) (page b : Nat) : (raise s page b).space = s.space := (raise_frame s page b).space
@[simp] theorem raise_index (s : State) (page b : Nat) : (raise s page b).index = s.index := (raise_frame s page b).index
@[simp] theorem raise_dies (s : State) (page b : Nat) : (raise s page b).dies = s.dies := (raise_frame s page b).dies
@[simp] theorem raise_careen (s : State) (page b : Nat) : (raise s page b).careen = s.careen := (raise_frame s page b).careen
@[simp] theorem raise_sensors (s : State) (page b : Nat) : (raise s page b).sensors = s.sensors := (raise_frame s page b).sensors
@[simp] theorem raise_tide (s : State) (page b : Nat) : (raise s page b).tide = s.tide := (raise_frame s page b).tide
@[simp] theorem raise_pstate (s : State) (page b : Nat) : (raise s page b).pstate = s.pstate := (raise_frame s page b).pstate
@[simp] theorem raise_engines (s : State) (page b : Nat) : (raise s page b).engines = s.engines := (raise_frame s page b).engines
@[simp] theorem raise_cipher (s : State) (page b : Nat) : (raise s page b).cipher = s.cipher := (raise_frame s page b).cipher
@[simp] theorem raise_log (s : State) (page b : Nat) : (raise s page b).log = s.log := (raise_frame s page b).log
@[simp] theorem raise_update (s : State) (page b : Nat) : (raise s page b).update = s.update := (raise_frame s page b).update
@[simp] theorem raise_harbour (s : State) (page b : Nat) : (raise s page b).harbour = s.harbour := (raise_frame s page b).harbour
@[simp] theorem raise_sideband (s : State) (page b : Nat) : (raise s page b).sideband = s.sideband := (raise_frame s page b).sideband
@[simp] theorem raise_lines (s : State) (page b : Nat) : (raise s page b).lines = s.lines := (raise_frame s page b).lines
@[simp] theorem raise_pathErrors (s : State) (page b : Nat) : (raise s page b).pathErrors = s.pathErrors := (raise_frame s page b).pathErrors
@[simp] theorem raise_out (s : State) (page b : Nat) : (raise s page b).out = s.out := (raise_frame s page b).out
@[simp] theorem raise_draws (s : State) (page b : Nat) : (raise s page b).draws = s.draws := (raise_frame s page b).draws
@[simp] theorem raise_freeN (s : State) (page b : Nat) : (raise s page b).freeN = s.freeN := (raise_frame s page b).freeN

/-! ### The logbook -/

theorem bump_logged (s : State) (a : Nat) : OnlyLog s (bump s a) := ⟨_, _, rfl⟩

theorem bumpBy_logged (s : State) (a k : Nat) : OnlyLog s (bumpBy s a k) := ⟨_, _, rfl⟩

theorem coalesceOrDrop_frame (s : State) (typ source : Nat) (critical : Bool) : OnlyLog s (coalesceOrDrop s typ source critical) := by
  unfold coalesceOrDrop; dsimp only; (repeat' split) <;> exact OnlyLog.trans ⟨_, _, rfl⟩ (bump_logged _ _)

@[simp] theorem coalesceOrDrop_pending (s : State) (typ source : Nat) (critical : Bool) : (coalesceOrDrop s typ source critical).pending = s.pending := (coalesceOrDrop_frame s typ source critical).pending
@[simp] theorem coalesceOrDrop_boardUs (s : State) (typ source : Nat) (critical : Bool) : (coalesceOrDrop s typ source critical).boardUs = s.boardUs := (coalesceOrDrop_frame s typ source critical).boardUs
@[simp] theorem coalesceOrDrop_sessionUs (s : State) (typ source : Nat) (critical : Bool) : (coalesceOrDrop s typ source critical).sessionUs = s.sessionUs := (coalesceOrDrop_frame s typ source critical).sessionUs
@[simp] theorem coalesceOrDrop_poweredUs (s : State) (typ source : Nat) (critical : Bool) : (coalesceOrDrop s typ source critical).poweredUs = s.poweredUs := (coalesceOrDrop_frame s typ source critical).poweredUs
@[simp] theorem coalesceOrDrop_persistedAt (s : State) (typ source : Nat) (critical : Bool) : (coalesceOrDrop s typ source critical).persistedAt = s.persistedAt := (coalesceOrDrop_frame s typ source critical).persistedAt
@[simp] theorem coalesceOrDrop_phase (s : State) (typ source : Nat) (critical : Bool) : (coalesceOrDrop s typ source critical).phase = s.phase := (coalesceOrDrop_frame s typ source critical).phase
@[simp] theorem coalesceOrDrop_power (s : State) (typ source : Nat) (critical : Bool) : (coalesceOrDrop s typ source critical).power = s.power := (coalesceOrDrop_frame s typ source critical).power
@[simp] theorem coalesceOrDrop_boot (s : State) (typ source : Nat) (critical : Bool) : (coalesceOrDrop s typ source critical).boot = s.boot := (coalesceOrDrop_frame s typ source critical).boot
@[simp] theorem coalesceOrDrop_shadows (s : State) (typ source : Nat) (critical : Bool) : (coalesceOrDrop s typ source critical).shadows = s.shadows := (coalesceOrDrop_frame s typ source critical).shadows
@[simp] theorem coalesceOrDrop_latches (s : State) (typ source : Nat) (critical : Bool) : (coalesceOrDrop s typ source critical).latches = s.latches := (coalesceOrDrop_frame s typ source critical).latches
@[simp] theorem coalesceOrDrop_mode (s : State) (typ source : Nat) (critical : Bool) : (coalesceOrDrop s typ source critical).mode = s.mode := (coalesceOrDrop_frame s typ source critical).mode
@[simp] theorem coalesceOrDrop_linkA (s : State) (typ source : Nat) (critical : Bool) : (coalesceOrDrop s typ source critical).linkA = s.linkA := (coalesceOrDrop_frame s typ source critical).linkA
@[simp] theorem coalesceOrDrop_linkB (s : State) (typ source : Nat) (critical : Bool) : (coalesceOrDrop s typ source critical).linkB = s.linkB := (coalesceOrDrop_frame s typ source critical).linkB
@[simp] theorem coalesceOrDrop_handshakes (s : State) (typ source : Nat) (critical : Bool) : (coalesceOrDrop s typ source critical).handshakes = s.handshakes := (coalesceOrDrop_frame s typ source critical).handshakes
@[simp] theorem coalesceOrDrop_answered (s : State) (typ source : Nat) (critical : Bool) : (coalesceOrDrop s typ source critical).answered = s.answered := (coalesceOrDrop_frame s typ source critical).answered
@[simp] theorem coalesceOrDrop_moorings (s : State) (typ source : Nat) (critical : Bool) : (coalesceOrDrop s typ source critical).moorings = s.moorings := (coalesceOrDrop_frame s typ source critical).moorings
@[simp] theorem coalesceOrDrop_berths (s : State) (typ source : Nat) (critical : Bool) : (coalesceOrDrop s typ source critical).berths = s.berths := (coalesceOrDrop_frame s typ source critical).berths
@[simp] theorem coalesceOrDrop_withheld (s : State) (typ source : Nat) (critical : Bool) : (coalesceOrDrop s typ source critical).withheld = s.withheld := (coalesceOrDrop_frame s typ source critical).withheld
@[simp] theorem coalesceOrDrop_seqr (s : State) (typ source : Nat) (critical : Bool) : (coalesceOrDrop s typ source critical).seqr = s.seqr := (coalesceOrDrop_frame s typ source critical).seqr
@[simp] theorem coalesceOrDrop_seals (s : State) (typ source : Nat) (critical : Bool) : (coalesceOrDrop s typ source critical).seals = s.seals := (coalesceOrDrop_frame s typ source critical).seals
@[simp] theorem coalesceOrDrop_cmds (s : State) (typ source : Nat) (critical : Bool) : (coalesceOrDrop s typ source critical).cmds = s.cmds := (coalesceOrDrop_frame s typ source critical).cmds
@[simp] theorem coalesceOrDrop_flash (s : State) (typ source : Nat) (critical : Bool) : (coalesceOrDrop s typ source critical).flash = s.flash := (coalesceOrDrop_frame s typ source critical).flash
@[simp] theorem coalesceOrDrop_space (s : State) (typ source : Nat) (critical : Bool) : (coalesceOrDrop s typ source critical).space = s.space := (coalesceOrDrop_frame s typ source critical).space
@[simp] theorem coalesceOrDrop_index (s : State) (typ source : Nat) (critical : Bool) : (coalesceOrDrop s typ source critical).index = s.index := (coalesceOrDrop_frame s typ source critical).index
@[simp] theorem coalesceOrDrop_dies (s : State) (typ source : Nat) (critical : Bool) : (coalesceOrDrop s typ source critical).dies = s.dies := (coalesceOrDrop_frame s typ source critical).dies
@[simp] theorem coalesceOrDrop_careen (s : State) (typ source : Nat) (critical : Bool) : (coalesceOrDrop s typ source critical).careen = s.careen := (coalesceOrDrop_frame s typ source critical).careen
@[simp] theorem coalesceOrDrop_sensors (s : State) (typ source : Nat) (critical : Bool) : (coalesceOrDrop s typ source critical).sensors = s.sensors := (coalesceOrDrop_frame s typ source critical).sensors
@[simp] theorem coalesceOrDrop_tide (s : State) (typ source : Nat) (critical : Bool) : (coalesceOrDrop s typ source critical).tide = s.tide := (coalesceOrDrop_frame s typ source critical).tide
@[simp] theorem coalesceOrDrop_pstate (s : State) (typ source : Nat) (critical : Bool) : (coalesceOrDrop s typ source critical).pstate = s.pstate := (coalesceOrDrop_frame s typ source critical).pstate
@[simp] theorem coalesceOrDrop_engines (s : State) (typ source : Nat) (critical : Bool) : (coalesceOrDrop s typ source critical).engines = s.engines := (coalesceOrDrop_frame s typ source critical).engines
@[simp] theorem coalesceOrDrop_cipher (s : State) (typ source : Nat) (critical : Bool) : (coalesceOrDrop s typ source critical).cipher = s.cipher := (coalesceOrDrop_frame s typ source critical).cipher
@[simp] theorem coalesceOrDrop_update (s : State) (typ source : Nat) (critical : Bool) : (coalesceOrDrop s typ source critical).update = s.update := (coalesceOrDrop_frame s typ source critical).update
@[simp] theorem coalesceOrDrop_harbour (s : State) (typ source : Nat) (critical : Bool) : (coalesceOrDrop s typ source critical).harbour = s.harbour := (coalesceOrDrop_frame s typ source critical).harbour
@[simp] theorem coalesceOrDrop_sideband (s : State) (typ source : Nat) (critical : Bool) : (coalesceOrDrop s typ source critical).sideband = s.sideband := (coalesceOrDrop_frame s typ source critical).sideband
@[simp] theorem coalesceOrDrop_lines (s : State) (typ source : Nat) (critical : Bool) : (coalesceOrDrop s typ source critical).lines = s.lines := (coalesceOrDrop_frame s typ source critical).lines
@[simp] theorem coalesceOrDrop_pathErrors (s : State) (typ source : Nat) (critical : Bool) : (coalesceOrDrop s typ source critical).pathErrors = s.pathErrors := (coalesceOrDrop_frame s typ source critical).pathErrors
@[simp] theorem coalesceOrDrop_out (s : State) (typ source : Nat) (critical : Bool) : (coalesceOrDrop s typ source critical).out = s.out := (coalesceOrDrop_frame s typ source critical).out
@[simp] theorem coalesceOrDrop_draws (s : State) (typ source : Nat) (critical : Bool) : (coalesceOrDrop s typ source critical).draws = s.draws := (coalesceOrDrop_frame s typ source critical).draws
@[simp] theorem coalesceOrDrop_freeN (s : State) (typ source : Nat) (critical : Bool) : (coalesceOrDrop s typ source critical).freeN = s.freeN := (coalesceOrDrop_frame s typ source critical).freeN

theorem volatileAppend_frame (s : State) (r : LogRec) : OnlyLog s (volatileAppend s r) := by
  unfold volatileAppend; dsimp only; (repeat' split) <;> first
    | exact OnlyLog.trans ⟨_, _, rfl⟩ (bump_logged _ _)
    | exact OnlyLog.trans ⟨_, _, rfl⟩ (bumpBy_logged _ _ _)
    | exact ⟨_, _, rfl⟩

@[simp] theorem volatileAppend_pending (s : State) (r : LogRec) : (volatileAppend s r).pending = s.pending := (volatileAppend_frame s r).pending
@[simp] theorem volatileAppend_boardUs (s : State) (r : LogRec) : (volatileAppend s r).boardUs = s.boardUs := (volatileAppend_frame s r).boardUs
@[simp] theorem volatileAppend_sessionUs (s : State) (r : LogRec) : (volatileAppend s r).sessionUs = s.sessionUs := (volatileAppend_frame s r).sessionUs
@[simp] theorem volatileAppend_poweredUs (s : State) (r : LogRec) : (volatileAppend s r).poweredUs = s.poweredUs := (volatileAppend_frame s r).poweredUs
@[simp] theorem volatileAppend_persistedAt (s : State) (r : LogRec) : (volatileAppend s r).persistedAt = s.persistedAt := (volatileAppend_frame s r).persistedAt
@[simp] theorem volatileAppend_phase (s : State) (r : LogRec) : (volatileAppend s r).phase = s.phase := (volatileAppend_frame s r).phase
@[simp] theorem volatileAppend_power (s : State) (r : LogRec) : (volatileAppend s r).power = s.power := (volatileAppend_frame s r).power
@[simp] theorem volatileAppend_boot (s : State) (r : LogRec) : (volatileAppend s r).boot = s.boot := (volatileAppend_frame s r).boot
@[simp] theorem volatileAppend_shadows (s : State) (r : LogRec) : (volatileAppend s r).shadows = s.shadows := (volatileAppend_frame s r).shadows
@[simp] theorem volatileAppend_latches (s : State) (r : LogRec) : (volatileAppend s r).latches = s.latches := (volatileAppend_frame s r).latches
@[simp] theorem volatileAppend_mode (s : State) (r : LogRec) : (volatileAppend s r).mode = s.mode := (volatileAppend_frame s r).mode
@[simp] theorem volatileAppend_linkA (s : State) (r : LogRec) : (volatileAppend s r).linkA = s.linkA := (volatileAppend_frame s r).linkA
@[simp] theorem volatileAppend_linkB (s : State) (r : LogRec) : (volatileAppend s r).linkB = s.linkB := (volatileAppend_frame s r).linkB
@[simp] theorem volatileAppend_handshakes (s : State) (r : LogRec) : (volatileAppend s r).handshakes = s.handshakes := (volatileAppend_frame s r).handshakes
@[simp] theorem volatileAppend_answered (s : State) (r : LogRec) : (volatileAppend s r).answered = s.answered := (volatileAppend_frame s r).answered
@[simp] theorem volatileAppend_moorings (s : State) (r : LogRec) : (volatileAppend s r).moorings = s.moorings := (volatileAppend_frame s r).moorings
@[simp] theorem volatileAppend_berths (s : State) (r : LogRec) : (volatileAppend s r).berths = s.berths := (volatileAppend_frame s r).berths
@[simp] theorem volatileAppend_withheld (s : State) (r : LogRec) : (volatileAppend s r).withheld = s.withheld := (volatileAppend_frame s r).withheld
@[simp] theorem volatileAppend_seqr (s : State) (r : LogRec) : (volatileAppend s r).seqr = s.seqr := (volatileAppend_frame s r).seqr
@[simp] theorem volatileAppend_seals (s : State) (r : LogRec) : (volatileAppend s r).seals = s.seals := (volatileAppend_frame s r).seals
@[simp] theorem volatileAppend_cmds (s : State) (r : LogRec) : (volatileAppend s r).cmds = s.cmds := (volatileAppend_frame s r).cmds
@[simp] theorem volatileAppend_flash (s : State) (r : LogRec) : (volatileAppend s r).flash = s.flash := (volatileAppend_frame s r).flash
@[simp] theorem volatileAppend_space (s : State) (r : LogRec) : (volatileAppend s r).space = s.space := (volatileAppend_frame s r).space
@[simp] theorem volatileAppend_index (s : State) (r : LogRec) : (volatileAppend s r).index = s.index := (volatileAppend_frame s r).index
@[simp] theorem volatileAppend_dies (s : State) (r : LogRec) : (volatileAppend s r).dies = s.dies := (volatileAppend_frame s r).dies
@[simp] theorem volatileAppend_careen (s : State) (r : LogRec) : (volatileAppend s r).careen = s.careen := (volatileAppend_frame s r).careen
@[simp] theorem volatileAppend_sensors (s : State) (r : LogRec) : (volatileAppend s r).sensors = s.sensors := (volatileAppend_frame s r).sensors
@[simp] theorem volatileAppend_tide (s : State) (r : LogRec) : (volatileAppend s r).tide = s.tide := (volatileAppend_frame s r).tide
@[simp] theorem volatileAppend_pstate (s : State) (r : LogRec) : (volatileAppend s r).pstate = s.pstate := (volatileAppend_frame s r).pstate
@[simp] theorem volatileAppend_engines (s : State) (r : LogRec) : (volatileAppend s r).engines = s.engines := (volatileAppend_frame s r).engines
@[simp] theorem volatileAppend_cipher (s : State) (r : LogRec) : (volatileAppend s r).cipher = s.cipher := (volatileAppend_frame s r).cipher
@[simp] theorem volatileAppend_update (s : State) (r : LogRec) : (volatileAppend s r).update = s.update := (volatileAppend_frame s r).update
@[simp] theorem volatileAppend_harbour (s : State) (r : LogRec) : (volatileAppend s r).harbour = s.harbour := (volatileAppend_frame s r).harbour
@[simp] theorem volatileAppend_sideband (s : State) (r : LogRec) : (volatileAppend s r).sideband = s.sideband := (volatileAppend_frame s r).sideband
@[simp] theorem volatileAppend_lines (s : State) (r : LogRec) : (volatileAppend s r).lines = s.lines := (volatileAppend_frame s r).lines
@[simp] theorem volatileAppend_pathErrors (s : State) (r : LogRec) : (volatileAppend s r).pathErrors = s.pathErrors := (volatileAppend_frame s r).pathErrors
@[simp] theorem volatileAppend_out (s : State) (r : LogRec) : (volatileAppend s r).out = s.out := (volatileAppend_frame s r).out
@[simp] theorem volatileAppend_draws (s : State) (r : LogRec) : (volatileAppend s r).draws = s.draws := (volatileAppend_frame s r).draws
@[simp] theorem volatileAppend_freeN (s : State) (r : LogRec) : (volatileAppend s r).freeN = s.freeN := (volatileAppend_frame s r).freeN

theorem stagePut_frame (s : State) (r : LogRec) : OnlyLog s (stagePut s r) := by
  unfold stagePut; dsimp only; split
  · exact volatileAppend_frame s r
  · exact ⟨_, _, rfl⟩

@[simp] theorem stagePut_pending (s : State) (r : LogRec) : (stagePut s r).pending = s.pending := (stagePut_frame s r).pending
@[simp] theorem stagePut_boardUs (s : State) (r : LogRec) : (stagePut s r).boardUs = s.boardUs := (stagePut_frame s r).boardUs
@[simp] theorem stagePut_sessionUs (s : State) (r : LogRec) : (stagePut s r).sessionUs = s.sessionUs := (stagePut_frame s r).sessionUs
@[simp] theorem stagePut_poweredUs (s : State) (r : LogRec) : (stagePut s r).poweredUs = s.poweredUs := (stagePut_frame s r).poweredUs
@[simp] theorem stagePut_persistedAt (s : State) (r : LogRec) : (stagePut s r).persistedAt = s.persistedAt := (stagePut_frame s r).persistedAt
@[simp] theorem stagePut_phase (s : State) (r : LogRec) : (stagePut s r).phase = s.phase := (stagePut_frame s r).phase
@[simp] theorem stagePut_power (s : State) (r : LogRec) : (stagePut s r).power = s.power := (stagePut_frame s r).power
@[simp] theorem stagePut_boot (s : State) (r : LogRec) : (stagePut s r).boot = s.boot := (stagePut_frame s r).boot
@[simp] theorem stagePut_shadows (s : State) (r : LogRec) : (stagePut s r).shadows = s.shadows := (stagePut_frame s r).shadows
@[simp] theorem stagePut_latches (s : State) (r : LogRec) : (stagePut s r).latches = s.latches := (stagePut_frame s r).latches
@[simp] theorem stagePut_mode (s : State) (r : LogRec) : (stagePut s r).mode = s.mode := (stagePut_frame s r).mode
@[simp] theorem stagePut_linkA (s : State) (r : LogRec) : (stagePut s r).linkA = s.linkA := (stagePut_frame s r).linkA
@[simp] theorem stagePut_linkB (s : State) (r : LogRec) : (stagePut s r).linkB = s.linkB := (stagePut_frame s r).linkB
@[simp] theorem stagePut_handshakes (s : State) (r : LogRec) : (stagePut s r).handshakes = s.handshakes := (stagePut_frame s r).handshakes
@[simp] theorem stagePut_answered (s : State) (r : LogRec) : (stagePut s r).answered = s.answered := (stagePut_frame s r).answered
@[simp] theorem stagePut_moorings (s : State) (r : LogRec) : (stagePut s r).moorings = s.moorings := (stagePut_frame s r).moorings
@[simp] theorem stagePut_berths (s : State) (r : LogRec) : (stagePut s r).berths = s.berths := (stagePut_frame s r).berths
@[simp] theorem stagePut_withheld (s : State) (r : LogRec) : (stagePut s r).withheld = s.withheld := (stagePut_frame s r).withheld
@[simp] theorem stagePut_seqr (s : State) (r : LogRec) : (stagePut s r).seqr = s.seqr := (stagePut_frame s r).seqr
@[simp] theorem stagePut_seals (s : State) (r : LogRec) : (stagePut s r).seals = s.seals := (stagePut_frame s r).seals
@[simp] theorem stagePut_cmds (s : State) (r : LogRec) : (stagePut s r).cmds = s.cmds := (stagePut_frame s r).cmds
@[simp] theorem stagePut_flash (s : State) (r : LogRec) : (stagePut s r).flash = s.flash := (stagePut_frame s r).flash
@[simp] theorem stagePut_space (s : State) (r : LogRec) : (stagePut s r).space = s.space := (stagePut_frame s r).space
@[simp] theorem stagePut_index (s : State) (r : LogRec) : (stagePut s r).index = s.index := (stagePut_frame s r).index
@[simp] theorem stagePut_dies (s : State) (r : LogRec) : (stagePut s r).dies = s.dies := (stagePut_frame s r).dies
@[simp] theorem stagePut_careen (s : State) (r : LogRec) : (stagePut s r).careen = s.careen := (stagePut_frame s r).careen
@[simp] theorem stagePut_sensors (s : State) (r : LogRec) : (stagePut s r).sensors = s.sensors := (stagePut_frame s r).sensors
@[simp] theorem stagePut_tide (s : State) (r : LogRec) : (stagePut s r).tide = s.tide := (stagePut_frame s r).tide
@[simp] theorem stagePut_pstate (s : State) (r : LogRec) : (stagePut s r).pstate = s.pstate := (stagePut_frame s r).pstate
@[simp] theorem stagePut_engines (s : State) (r : LogRec) : (stagePut s r).engines = s.engines := (stagePut_frame s r).engines
@[simp] theorem stagePut_cipher (s : State) (r : LogRec) : (stagePut s r).cipher = s.cipher := (stagePut_frame s r).cipher
@[simp] theorem stagePut_update (s : State) (r : LogRec) : (stagePut s r).update = s.update := (stagePut_frame s r).update
@[simp] theorem stagePut_harbour (s : State) (r : LogRec) : (stagePut s r).harbour = s.harbour := (stagePut_frame s r).harbour
@[simp] theorem stagePut_sideband (s : State) (r : LogRec) : (stagePut s r).sideband = s.sideband := (stagePut_frame s r).sideband
@[simp] theorem stagePut_lines (s : State) (r : LogRec) : (stagePut s r).lines = s.lines := (stagePut_frame s r).lines
@[simp] theorem stagePut_pathErrors (s : State) (r : LogRec) : (stagePut s r).pathErrors = s.pathErrors := (stagePut_frame s r).pathErrors
@[simp] theorem stagePut_out (s : State) (r : LogRec) : (stagePut s r).out = s.out := (stagePut_frame s r).out
@[simp] theorem stagePut_draws (s : State) (r : LogRec) : (stagePut s r).draws = s.draws := (stagePut_frame s r).draws
@[simp] theorem stagePut_freeN (s : State) (r : LogRec) : (stagePut s r).freeN = s.freeN := (stagePut_frame s r).freeN

theorem logRecord_frame (s : State) (typ source : Nat) (critical : Bool) (payload : List Byte) (ledger : Bool) : OnlyLog s (logRecord s typ source critical payload ledger) := by
  unfold logRecord; dsimp only; (repeat' split)
  · exact ⟨_, _, rfl⟩
  · exact ⟨_, _, rfl⟩
  · exact OnlyLog.trans ⟨_, _, rfl⟩ (stagePut_frame _ _)
  · exact coalesceOrDrop_frame s typ source critical

@[simp] theorem logRecord_pending (s : State) (typ source : Nat) (critical : Bool) (payload : List Byte) (ledger : Bool) : (logRecord s typ source critical payload ledger).pending = s.pending := (logRecord_frame s typ source critical payload ledger).pending
@[simp] theorem logRecord_boardUs (s : State) (typ source : Nat) (critical : Bool) (payload : List Byte) (ledger : Bool) : (logRecord s typ source critical payload ledger).boardUs = s.boardUs := (logRecord_frame s typ source critical payload ledger).boardUs
@[simp] theorem logRecord_sessionUs (s : State) (typ source : Nat) (critical : Bool) (payload : List Byte) (ledger : Bool) : (logRecord s typ source critical payload ledger).sessionUs = s.sessionUs := (logRecord_frame s typ source critical payload ledger).sessionUs
@[simp] theorem logRecord_poweredUs (s : State) (typ source : Nat) (critical : Bool) (payload : List Byte) (ledger : Bool) : (logRecord s typ source critical payload ledger).poweredUs = s.poweredUs := (logRecord_frame s typ source critical payload ledger).poweredUs
@[simp] theorem logRecord_persistedAt (s : State) (typ source : Nat) (critical : Bool) (payload : List Byte) (ledger : Bool) : (logRecord s typ source critical payload ledger).persistedAt = s.persistedAt := (logRecord_frame s typ source critical payload ledger).persistedAt
@[simp] theorem logRecord_phase (s : State) (typ source : Nat) (critical : Bool) (payload : List Byte) (ledger : Bool) : (logRecord s typ source critical payload ledger).phase = s.phase := (logRecord_frame s typ source critical payload ledger).phase
@[simp] theorem logRecord_power (s : State) (typ source : Nat) (critical : Bool) (payload : List Byte) (ledger : Bool) : (logRecord s typ source critical payload ledger).power = s.power := (logRecord_frame s typ source critical payload ledger).power
@[simp] theorem logRecord_boot (s : State) (typ source : Nat) (critical : Bool) (payload : List Byte) (ledger : Bool) : (logRecord s typ source critical payload ledger).boot = s.boot := (logRecord_frame s typ source critical payload ledger).boot
@[simp] theorem logRecord_shadows (s : State) (typ source : Nat) (critical : Bool) (payload : List Byte) (ledger : Bool) : (logRecord s typ source critical payload ledger).shadows = s.shadows := (logRecord_frame s typ source critical payload ledger).shadows
@[simp] theorem logRecord_latches (s : State) (typ source : Nat) (critical : Bool) (payload : List Byte) (ledger : Bool) : (logRecord s typ source critical payload ledger).latches = s.latches := (logRecord_frame s typ source critical payload ledger).latches
@[simp] theorem logRecord_mode (s : State) (typ source : Nat) (critical : Bool) (payload : List Byte) (ledger : Bool) : (logRecord s typ source critical payload ledger).mode = s.mode := (logRecord_frame s typ source critical payload ledger).mode
@[simp] theorem logRecord_linkA (s : State) (typ source : Nat) (critical : Bool) (payload : List Byte) (ledger : Bool) : (logRecord s typ source critical payload ledger).linkA = s.linkA := (logRecord_frame s typ source critical payload ledger).linkA
@[simp] theorem logRecord_linkB (s : State) (typ source : Nat) (critical : Bool) (payload : List Byte) (ledger : Bool) : (logRecord s typ source critical payload ledger).linkB = s.linkB := (logRecord_frame s typ source critical payload ledger).linkB
@[simp] theorem logRecord_handshakes (s : State) (typ source : Nat) (critical : Bool) (payload : List Byte) (ledger : Bool) : (logRecord s typ source critical payload ledger).handshakes = s.handshakes := (logRecord_frame s typ source critical payload ledger).handshakes
@[simp] theorem logRecord_answered (s : State) (typ source : Nat) (critical : Bool) (payload : List Byte) (ledger : Bool) : (logRecord s typ source critical payload ledger).answered = s.answered := (logRecord_frame s typ source critical payload ledger).answered
@[simp] theorem logRecord_moorings (s : State) (typ source : Nat) (critical : Bool) (payload : List Byte) (ledger : Bool) : (logRecord s typ source critical payload ledger).moorings = s.moorings := (logRecord_frame s typ source critical payload ledger).moorings
@[simp] theorem logRecord_berths (s : State) (typ source : Nat) (critical : Bool) (payload : List Byte) (ledger : Bool) : (logRecord s typ source critical payload ledger).berths = s.berths := (logRecord_frame s typ source critical payload ledger).berths
@[simp] theorem logRecord_withheld (s : State) (typ source : Nat) (critical : Bool) (payload : List Byte) (ledger : Bool) : (logRecord s typ source critical payload ledger).withheld = s.withheld := (logRecord_frame s typ source critical payload ledger).withheld
@[simp] theorem logRecord_seqr (s : State) (typ source : Nat) (critical : Bool) (payload : List Byte) (ledger : Bool) : (logRecord s typ source critical payload ledger).seqr = s.seqr := (logRecord_frame s typ source critical payload ledger).seqr
@[simp] theorem logRecord_seals (s : State) (typ source : Nat) (critical : Bool) (payload : List Byte) (ledger : Bool) : (logRecord s typ source critical payload ledger).seals = s.seals := (logRecord_frame s typ source critical payload ledger).seals
@[simp] theorem logRecord_cmds (s : State) (typ source : Nat) (critical : Bool) (payload : List Byte) (ledger : Bool) : (logRecord s typ source critical payload ledger).cmds = s.cmds := (logRecord_frame s typ source critical payload ledger).cmds
@[simp] theorem logRecord_flash (s : State) (typ source : Nat) (critical : Bool) (payload : List Byte) (ledger : Bool) : (logRecord s typ source critical payload ledger).flash = s.flash := (logRecord_frame s typ source critical payload ledger).flash
@[simp] theorem logRecord_space (s : State) (typ source : Nat) (critical : Bool) (payload : List Byte) (ledger : Bool) : (logRecord s typ source critical payload ledger).space = s.space := (logRecord_frame s typ source critical payload ledger).space
@[simp] theorem logRecord_index (s : State) (typ source : Nat) (critical : Bool) (payload : List Byte) (ledger : Bool) : (logRecord s typ source critical payload ledger).index = s.index := (logRecord_frame s typ source critical payload ledger).index
@[simp] theorem logRecord_dies (s : State) (typ source : Nat) (critical : Bool) (payload : List Byte) (ledger : Bool) : (logRecord s typ source critical payload ledger).dies = s.dies := (logRecord_frame s typ source critical payload ledger).dies
@[simp] theorem logRecord_careen (s : State) (typ source : Nat) (critical : Bool) (payload : List Byte) (ledger : Bool) : (logRecord s typ source critical payload ledger).careen = s.careen := (logRecord_frame s typ source critical payload ledger).careen
@[simp] theorem logRecord_sensors (s : State) (typ source : Nat) (critical : Bool) (payload : List Byte) (ledger : Bool) : (logRecord s typ source critical payload ledger).sensors = s.sensors := (logRecord_frame s typ source critical payload ledger).sensors
@[simp] theorem logRecord_tide (s : State) (typ source : Nat) (critical : Bool) (payload : List Byte) (ledger : Bool) : (logRecord s typ source critical payload ledger).tide = s.tide := (logRecord_frame s typ source critical payload ledger).tide
@[simp] theorem logRecord_pstate (s : State) (typ source : Nat) (critical : Bool) (payload : List Byte) (ledger : Bool) : (logRecord s typ source critical payload ledger).pstate = s.pstate := (logRecord_frame s typ source critical payload ledger).pstate
@[simp] theorem logRecord_engines (s : State) (typ source : Nat) (critical : Bool) (payload : List Byte) (ledger : Bool) : (logRecord s typ source critical payload ledger).engines = s.engines := (logRecord_frame s typ source critical payload ledger).engines
@[simp] theorem logRecord_cipher (s : State) (typ source : Nat) (critical : Bool) (payload : List Byte) (ledger : Bool) : (logRecord s typ source critical payload ledger).cipher = s.cipher := (logRecord_frame s typ source critical payload ledger).cipher
@[simp] theorem logRecord_update (s : State) (typ source : Nat) (critical : Bool) (payload : List Byte) (ledger : Bool) : (logRecord s typ source critical payload ledger).update = s.update := (logRecord_frame s typ source critical payload ledger).update
@[simp] theorem logRecord_harbour (s : State) (typ source : Nat) (critical : Bool) (payload : List Byte) (ledger : Bool) : (logRecord s typ source critical payload ledger).harbour = s.harbour := (logRecord_frame s typ source critical payload ledger).harbour
@[simp] theorem logRecord_sideband (s : State) (typ source : Nat) (critical : Bool) (payload : List Byte) (ledger : Bool) : (logRecord s typ source critical payload ledger).sideband = s.sideband := (logRecord_frame s typ source critical payload ledger).sideband
@[simp] theorem logRecord_lines (s : State) (typ source : Nat) (critical : Bool) (payload : List Byte) (ledger : Bool) : (logRecord s typ source critical payload ledger).lines = s.lines := (logRecord_frame s typ source critical payload ledger).lines
@[simp] theorem logRecord_pathErrors (s : State) (typ source : Nat) (critical : Bool) (payload : List Byte) (ledger : Bool) : (logRecord s typ source critical payload ledger).pathErrors = s.pathErrors := (logRecord_frame s typ source critical payload ledger).pathErrors
@[simp] theorem logRecord_out (s : State) (typ source : Nat) (critical : Bool) (payload : List Byte) (ledger : Bool) : (logRecord s typ source critical payload ledger).out = s.out := (logRecord_frame s typ source critical payload ledger).out
@[simp] theorem logRecord_draws (s : State) (typ source : Nat) (critical : Bool) (payload : List Byte) (ledger : Bool) : (logRecord s typ source critical payload ledger).draws = s.draws := (logRecord_frame s typ source critical payload ledger).draws
@[simp] theorem logRecord_freeN (s : State) (typ source : Nat) (critical : Bool) (payload : List Byte) (ledger : Bool) : (logRecord s typ source critical payload ledger).freeN = s.freeN := (logRecord_frame s typ source critical payload ledger).freeN

/-! ### Output and transport -/

theorem bump_sends (s : State) (a : Nat) : OnlySent s (bump s a) := ⟨_, _, _, _, rfl⟩

theorem emitOn_frame (s : State) (p : Port) (e : Envelope) (o : Output) : OnlySent s (emitOn s p e o) := by
  unfold emitOn; split
  · exact OnlySent.trans ⟨_, _, _, _, rfl⟩ (bump_sends _ _)
  · exact OnlySent.refl s

@[simp] theorem emitOn_pending (s : State) (p : Port) (e : Envelope) (o : Output) : (emitOn s p e o).pending = s.pending := (emitOn_frame s p e o).pending
@[simp] theorem emitOn_boardUs (s : State) (p : Port) (e : Envelope) (o : Output) : (emitOn s p e o).boardUs = s.boardUs := (emitOn_frame s p e o).boardUs
@[simp] theorem emitOn_sessionUs (s : State) (p : Port) (e : Envelope) (o : Output) : (emitOn s p e o).sessionUs = s.sessionUs := (emitOn_frame s p e o).sessionUs
@[simp] theorem emitOn_poweredUs (s : State) (p : Port) (e : Envelope) (o : Output) : (emitOn s p e o).poweredUs = s.poweredUs := (emitOn_frame s p e o).poweredUs
@[simp] theorem emitOn_persistedAt (s : State) (p : Port) (e : Envelope) (o : Output) : (emitOn s p e o).persistedAt = s.persistedAt := (emitOn_frame s p e o).persistedAt
@[simp] theorem emitOn_phase (s : State) (p : Port) (e : Envelope) (o : Output) : (emitOn s p e o).phase = s.phase := (emitOn_frame s p e o).phase
@[simp] theorem emitOn_power (s : State) (p : Port) (e : Envelope) (o : Output) : (emitOn s p e o).power = s.power := (emitOn_frame s p e o).power
@[simp] theorem emitOn_boot (s : State) (p : Port) (e : Envelope) (o : Output) : (emitOn s p e o).boot = s.boot := (emitOn_frame s p e o).boot
@[simp] theorem emitOn_shadows (s : State) (p : Port) (e : Envelope) (o : Output) : (emitOn s p e o).shadows = s.shadows := (emitOn_frame s p e o).shadows
@[simp] theorem emitOn_latches (s : State) (p : Port) (e : Envelope) (o : Output) : (emitOn s p e o).latches = s.latches := (emitOn_frame s p e o).latches
@[simp] theorem emitOn_mode (s : State) (p : Port) (e : Envelope) (o : Output) : (emitOn s p e o).mode = s.mode := (emitOn_frame s p e o).mode
@[simp] theorem emitOn_linkA (s : State) (p : Port) (e : Envelope) (o : Output) : (emitOn s p e o).linkA = s.linkA := (emitOn_frame s p e o).linkA
@[simp] theorem emitOn_linkB (s : State) (p : Port) (e : Envelope) (o : Output) : (emitOn s p e o).linkB = s.linkB := (emitOn_frame s p e o).linkB
@[simp] theorem emitOn_handshakes (s : State) (p : Port) (e : Envelope) (o : Output) : (emitOn s p e o).handshakes = s.handshakes := (emitOn_frame s p e o).handshakes
@[simp] theorem emitOn_answered (s : State) (p : Port) (e : Envelope) (o : Output) : (emitOn s p e o).answered = s.answered := (emitOn_frame s p e o).answered
@[simp] theorem emitOn_berths (s : State) (p : Port) (e : Envelope) (o : Output) : (emitOn s p e o).berths = s.berths := (emitOn_frame s p e o).berths
@[simp] theorem emitOn_withheld (s : State) (p : Port) (e : Envelope) (o : Output) : (emitOn s p e o).withheld = s.withheld := (emitOn_frame s p e o).withheld
@[simp] theorem emitOn_seqr (s : State) (p : Port) (e : Envelope) (o : Output) : (emitOn s p e o).seqr = s.seqr := (emitOn_frame s p e o).seqr
@[simp] theorem emitOn_seals (s : State) (p : Port) (e : Envelope) (o : Output) : (emitOn s p e o).seals = s.seals := (emitOn_frame s p e o).seals
@[simp] theorem emitOn_cmds (s : State) (p : Port) (e : Envelope) (o : Output) : (emitOn s p e o).cmds = s.cmds := (emitOn_frame s p e o).cmds
@[simp] theorem emitOn_flash (s : State) (p : Port) (e : Envelope) (o : Output) : (emitOn s p e o).flash = s.flash := (emitOn_frame s p e o).flash
@[simp] theorem emitOn_space (s : State) (p : Port) (e : Envelope) (o : Output) : (emitOn s p e o).space = s.space := (emitOn_frame s p e o).space
@[simp] theorem emitOn_index (s : State) (p : Port) (e : Envelope) (o : Output) : (emitOn s p e o).index = s.index := (emitOn_frame s p e o).index
@[simp] theorem emitOn_dies (s : State) (p : Port) (e : Envelope) (o : Output) : (emitOn s p e o).dies = s.dies := (emitOn_frame s p e o).dies
@[simp] theorem emitOn_careen (s : State) (p : Port) (e : Envelope) (o : Output) : (emitOn s p e o).careen = s.careen := (emitOn_frame s p e o).careen
@[simp] theorem emitOn_sensors (s : State) (p : Port) (e : Envelope) (o : Output) : (emitOn s p e o).sensors = s.sensors := (emitOn_frame s p e o).sensors
@[simp] theorem emitOn_tide (s : State) (p : Port) (e : Envelope) (o : Output) : (emitOn s p e o).tide = s.tide := (emitOn_frame s p e o).tide
@[simp] theorem emitOn_pstate (s : State) (p : Port) (e : Envelope) (o : Output) : (emitOn s p e o).pstate = s.pstate := (emitOn_frame s p e o).pstate
@[simp] theorem emitOn_engines (s : State) (p : Port) (e : Envelope) (o : Output) : (emitOn s p e o).engines = s.engines := (emitOn_frame s p e o).engines
@[simp] theorem emitOn_cipher (s : State) (p : Port) (e : Envelope) (o : Output) : (emitOn s p e o).cipher = s.cipher := (emitOn_frame s p e o).cipher
@[simp] theorem emitOn_log (s : State) (p : Port) (e : Envelope) (o : Output) : (emitOn s p e o).log = s.log := (emitOn_frame s p e o).log
@[simp] theorem emitOn_update (s : State) (p : Port) (e : Envelope) (o : Output) : (emitOn s p e o).update = s.update := (emitOn_frame s p e o).update
@[simp] theorem emitOn_sideband (s : State) (p : Port) (e : Envelope) (o : Output) : (emitOn s p e o).sideband = s.sideband := (emitOn_frame s p e o).sideband
@[simp] theorem emitOn_lines (s : State) (p : Port) (e : Envelope) (o : Output) : (emitOn s p e o).lines = s.lines := (emitOn_frame s p e o).lines
@[simp] theorem emitOn_pathErrors (s : State) (p : Port) (e : Envelope) (o : Output) : (emitOn s p e o).pathErrors = s.pathErrors := (emitOn_frame s p e o).pathErrors
@[simp] theorem emitOn_draws (s : State) (p : Port) (e : Envelope) (o : Output) : (emitOn s p e o).draws = s.draws := (emitOn_frame s p e o).draws
@[simp] theorem emitOn_freeN (s : State) (p : Port) (e : Envelope) (o : Output) : (emitOn s p e o).freeN = s.freeN := (emitOn_frame s p e o).freeN

@[simp] theorem updMooring_pending (s : State) (m : Nat) (f : Mooring → Mooring) : (updMooring s m f).pending = s.pending := rfl
@[simp] theorem updMooring_boardUs (s : State) (m : Nat) (f : Mooring → Mooring) : (updMooring s m f).boardUs = s.boardUs := rfl
@[simp] theorem updMooring_sessionUs (s : State) (m : Nat) (f : Mooring → Mooring) : (updMooring s m f).sessionUs = s.sessionUs := rfl
@[simp] theorem updMooring_poweredUs (s : State) (m : Nat) (f : Mooring → Mooring) : (updMooring s m f).poweredUs = s.poweredUs := rfl
@[simp] theorem updMooring_persistedAt (s : State) (m : Nat) (f : Mooring → Mooring) : (updMooring s m f).persistedAt = s.persistedAt := rfl
@[simp] theorem updMooring_phase (s : State) (m : Nat) (f : Mooring → Mooring) : (updMooring s m f).phase = s.phase := rfl
@[simp] theorem updMooring_power (s : State) (m : Nat) (f : Mooring → Mooring) : (updMooring s m f).power = s.power := rfl
@[simp] theorem updMooring_boot (s : State) (m : Nat) (f : Mooring → Mooring) : (updMooring s m f).boot = s.boot := rfl
@[simp] theorem updMooring_regs (s : State) (m : Nat) (f : Mooring → Mooring) : (updMooring s m f).regs = s.regs := rfl
@[simp] theorem updMooring_shadows (s : State) (m : Nat) (f : Mooring → Mooring) : (updMooring s m f).shadows = s.shadows := rfl
@[simp] theorem updMooring_latches (s : State) (m : Nat) (f : Mooring → Mooring) : (updMooring s m f).latches = s.latches := rfl
@[simp] theorem updMooring_mode (s : State) (m : Nat) (f : Mooring → Mooring) : (updMooring s m f).mode = s.mode := rfl
@[simp] theorem updMooring_linkA (s : State) (m : Nat) (f : Mooring → Mooring) : (updMooring s m f).linkA = s.linkA := rfl
@[simp] theorem updMooring_linkB (s : State) (m : Nat) (f : Mooring → Mooring) : (updMooring s m f).linkB = s.linkB := rfl
@[simp] theorem updMooring_handshakes (s : State) (m : Nat) (f : Mooring → Mooring) : (updMooring s m f).handshakes = s.handshakes := rfl
@[simp] theorem updMooring_answered (s : State) (m : Nat) (f : Mooring → Mooring) : (updMooring s m f).answered = s.answered := rfl
@[simp] theorem updMooring_berths (s : State) (m : Nat) (f : Mooring → Mooring) : (updMooring s m f).berths = s.berths := rfl
@[simp] theorem updMooring_withheld (s : State) (m : Nat) (f : Mooring → Mooring) : (updMooring s m f).withheld = s.withheld := rfl
@[simp] theorem updMooring_seqr (s : State) (m : Nat) (f : Mooring → Mooring) : (updMooring s m f).seqr = s.seqr := rfl
@[simp] theorem updMooring_seals (s : State) (m : Nat) (f : Mooring → Mooring) : (updMooring s m f).seals = s.seals := rfl
@[simp] theorem updMooring_cmds (s : State) (m : Nat) (f : Mooring → Mooring) : (updMooring s m f).cmds = s.cmds := rfl
@[simp] theorem updMooring_flash (s : State) (m : Nat) (f : Mooring → Mooring) : (updMooring s m f).flash = s.flash := rfl
@[simp] theorem updMooring_space (s : State) (m : Nat) (f : Mooring → Mooring) : (updMooring s m f).space = s.space := rfl
@[simp] theorem updMooring_index (s : State) (m : Nat) (f : Mooring → Mooring) : (updMooring s m f).index = s.index := rfl
@[simp] theorem updMooring_dies (s : State) (m : Nat) (f : Mooring → Mooring) : (updMooring s m f).dies = s.dies := rfl
@[simp] theorem updMooring_careen (s : State) (m : Nat) (f : Mooring → Mooring) : (updMooring s m f).careen = s.careen := rfl
@[simp] theorem updMooring_sensors (s : State) (m : Nat) (f : Mooring → Mooring) : (updMooring s m f).sensors = s.sensors := rfl
@[simp] theorem updMooring_tide (s : State) (m : Nat) (f : Mooring → Mooring) : (updMooring s m f).tide = s.tide := rfl
@[simp] theorem updMooring_pstate (s : State) (m : Nat) (f : Mooring → Mooring) : (updMooring s m f).pstate = s.pstate := rfl
@[simp] theorem updMooring_engines (s : State) (m : Nat) (f : Mooring → Mooring) : (updMooring s m f).engines = s.engines := rfl
@[simp] theorem updMooring_cipher (s : State) (m : Nat) (f : Mooring → Mooring) : (updMooring s m f).cipher = s.cipher := rfl
@[simp] theorem updMooring_log (s : State) (m : Nat) (f : Mooring → Mooring) : (updMooring s m f).log = s.log := rfl
@[simp] theorem updMooring_update (s : State) (m : Nat) (f : Mooring → Mooring) : (updMooring s m f).update = s.update := rfl
@[simp] theorem updMooring_harbour (s : State) (m : Nat) (f : Mooring → Mooring) : (updMooring s m f).harbour = s.harbour := rfl
@[simp] theorem updMooring_sideband (s : State) (m : Nat) (f : Mooring → Mooring) : (updMooring s m f).sideband = s.sideband := rfl
@[simp] theorem updMooring_lines (s : State) (m : Nat) (f : Mooring → Mooring) : (updMooring s m f).lines = s.lines := rfl
@[simp] theorem updMooring_pathErrors (s : State) (m : Nat) (f : Mooring → Mooring) : (updMooring s m f).pathErrors = s.pathErrors := rfl
@[simp] theorem updMooring_out (s : State) (m : Nat) (f : Mooring → Mooring) : (updMooring s m f).out = s.out := rfl
@[simp] theorem updMooring_draws (s : State) (m : Nat) (f : Mooring → Mooring) : (updMooring s m f).draws = s.draws := rfl
@[simp] theorem updMooring_freeN (s : State) (m : Nat) (f : Mooring → Mooring) : (updMooring s m f).freeN = s.freeN := rfl

theorem updTp_frame (s : State) (l : Line) (f : Transport → Transport) : OnlySent s (updTp s l f) := by
  unfold updTp; split <;> exact ⟨_, _, _, _, rfl⟩

@[simp] theorem updTp_pending (s : State) (l : Line) (f : Transport → Transport) : (updTp s l f).pending = s.pending := (updTp_frame s l f).pending
@[simp] theorem updTp_boardUs (s : State) (l : Line) (f : Transport → Transport) : (updTp s l f).boardUs = s.boardUs := (updTp_frame s l f).boardUs
@[simp] theorem updTp_sessionUs (s : State) (l : Line) (f : Transport → Transport) : (updTp s l f).sessionUs = s.sessionUs := (updTp_frame s l f).sessionUs
@[simp] theorem updTp_poweredUs (s : State) (l : Line) (f : Transport → Transport) : (updTp s l f).poweredUs = s.poweredUs := (updTp_frame s l f).poweredUs
@[simp] theorem updTp_persistedAt (s : State) (l : Line) (f : Transport → Transport) : (updTp s l f).persistedAt = s.persistedAt := (updTp_frame s l f).persistedAt
@[simp] theorem updTp_phase (s : State) (l : Line) (f : Transport → Transport) : (updTp s l f).phase = s.phase := (updTp_frame s l f).phase
@[simp] theorem updTp_power (s : State) (l : Line) (f : Transport → Transport) : (updTp s l f).power = s.power := (updTp_frame s l f).power
@[simp] theorem updTp_boot (s : State) (l : Line) (f : Transport → Transport) : (updTp s l f).boot = s.boot := (updTp_frame s l f).boot
@[simp] theorem updTp_shadows (s : State) (l : Line) (f : Transport → Transport) : (updTp s l f).shadows = s.shadows := (updTp_frame s l f).shadows
@[simp] theorem updTp_latches (s : State) (l : Line) (f : Transport → Transport) : (updTp s l f).latches = s.latches := (updTp_frame s l f).latches
@[simp] theorem updTp_mode (s : State) (l : Line) (f : Transport → Transport) : (updTp s l f).mode = s.mode := (updTp_frame s l f).mode
@[simp] theorem updTp_linkA (s : State) (l : Line) (f : Transport → Transport) : (updTp s l f).linkA = s.linkA := (updTp_frame s l f).linkA
@[simp] theorem updTp_linkB (s : State) (l : Line) (f : Transport → Transport) : (updTp s l f).linkB = s.linkB := (updTp_frame s l f).linkB
@[simp] theorem updTp_handshakes (s : State) (l : Line) (f : Transport → Transport) : (updTp s l f).handshakes = s.handshakes := (updTp_frame s l f).handshakes
@[simp] theorem updTp_answered (s : State) (l : Line) (f : Transport → Transport) : (updTp s l f).answered = s.answered := (updTp_frame s l f).answered
@[simp] theorem updTp_berths (s : State) (l : Line) (f : Transport → Transport) : (updTp s l f).berths = s.berths := (updTp_frame s l f).berths
@[simp] theorem updTp_withheld (s : State) (l : Line) (f : Transport → Transport) : (updTp s l f).withheld = s.withheld := (updTp_frame s l f).withheld
@[simp] theorem updTp_seqr (s : State) (l : Line) (f : Transport → Transport) : (updTp s l f).seqr = s.seqr := (updTp_frame s l f).seqr
@[simp] theorem updTp_seals (s : State) (l : Line) (f : Transport → Transport) : (updTp s l f).seals = s.seals := (updTp_frame s l f).seals
@[simp] theorem updTp_cmds (s : State) (l : Line) (f : Transport → Transport) : (updTp s l f).cmds = s.cmds := (updTp_frame s l f).cmds
@[simp] theorem updTp_flash (s : State) (l : Line) (f : Transport → Transport) : (updTp s l f).flash = s.flash := (updTp_frame s l f).flash
@[simp] theorem updTp_space (s : State) (l : Line) (f : Transport → Transport) : (updTp s l f).space = s.space := (updTp_frame s l f).space
@[simp] theorem updTp_index (s : State) (l : Line) (f : Transport → Transport) : (updTp s l f).index = s.index := (updTp_frame s l f).index
@[simp] theorem updTp_dies (s : State) (l : Line) (f : Transport → Transport) : (updTp s l f).dies = s.dies := (updTp_frame s l f).dies
@[simp] theorem updTp_careen (s : State) (l : Line) (f : Transport → Transport) : (updTp s l f).careen = s.careen := (updTp_frame s l f).careen
@[simp] theorem updTp_sensors (s : State) (l : Line) (f : Transport → Transport) : (updTp s l f).sensors = s.sensors := (updTp_frame s l f).sensors
@[simp] theorem updTp_tide (s : State) (l : Line) (f : Transport → Transport) : (updTp s l f).tide = s.tide := (updTp_frame s l f).tide
@[simp] theorem updTp_pstate (s : State) (l : Line) (f : Transport → Transport) : (updTp s l f).pstate = s.pstate := (updTp_frame s l f).pstate
@[simp] theorem updTp_engines (s : State) (l : Line) (f : Transport → Transport) : (updTp s l f).engines = s.engines := (updTp_frame s l f).engines
@[simp] theorem updTp_cipher (s : State) (l : Line) (f : Transport → Transport) : (updTp s l f).cipher = s.cipher := (updTp_frame s l f).cipher
@[simp] theorem updTp_log (s : State) (l : Line) (f : Transport → Transport) : (updTp s l f).log = s.log := (updTp_frame s l f).log
@[simp] theorem updTp_update (s : State) (l : Line) (f : Transport → Transport) : (updTp s l f).update = s.update := (updTp_frame s l f).update
@[simp] theorem updTp_sideband (s : State) (l : Line) (f : Transport → Transport) : (updTp s l f).sideband = s.sideband := (updTp_frame s l f).sideband
@[simp] theorem updTp_lines (s : State) (l : Line) (f : Transport → Transport) : (updTp s l f).lines = s.lines := (updTp_frame s l f).lines
@[simp] theorem updTp_pathErrors (s : State) (l : Line) (f : Transport → Transport) : (updTp s l f).pathErrors = s.pathErrors := (updTp_frame s l f).pathErrors
@[simp] theorem updTp_draws (s : State) (l : Line) (f : Transport → Transport) : (updTp s l f).draws = s.draws := (updTp_frame s l f).draws
@[simp] theorem updTp_freeN (s : State) (l : Line) (f : Transport → Transport) : (updTp s l f).freeN = s.freeN := (updTp_frame s l f).freeN

theorem sendTagged_frame (s : State) (l : Line) (typ berth seq : Nat) (first last : Bool) (payload : List Byte) : OnlySent s (sendTagged s l typ berth seq first last payload) := by
  unfold sendTagged; dsimp only; split
  · exact OnlySent.refl s
  · exact OnlySent.trans (updTp_frame _ _ _) (emitOn_frame _ _ _ _)

@[simp] theorem sendTagged_pending (s : State) (l : Line) (typ berth seq : Nat) (first last : Bool) (payload : List Byte) : (sendTagged s l typ berth seq first last payload).pending = s.pending := (sendTagged_frame s l typ berth seq first last payload).pending
@[simp] theorem sendTagged_boardUs (s : State) (l : Line) (typ berth seq : Nat) (first last : Bool) (payload : List Byte) : (sendTagged s l typ berth seq first last payload).boardUs = s.boardUs := (sendTagged_frame s l typ berth seq first last payload).boardUs
@[simp] theorem sendTagged_sessionUs (s : State) (l : Line) (typ berth seq : Nat) (first last : Bool) (payload : List Byte) : (sendTagged s l typ berth seq first last payload).sessionUs = s.sessionUs := (sendTagged_frame s l typ berth seq first last payload).sessionUs
@[simp] theorem sendTagged_poweredUs (s : State) (l : Line) (typ berth seq : Nat) (first last : Bool) (payload : List Byte) : (sendTagged s l typ berth seq first last payload).poweredUs = s.poweredUs := (sendTagged_frame s l typ berth seq first last payload).poweredUs
@[simp] theorem sendTagged_persistedAt (s : State) (l : Line) (typ berth seq : Nat) (first last : Bool) (payload : List Byte) : (sendTagged s l typ berth seq first last payload).persistedAt = s.persistedAt := (sendTagged_frame s l typ berth seq first last payload).persistedAt
@[simp] theorem sendTagged_phase (s : State) (l : Line) (typ berth seq : Nat) (first last : Bool) (payload : List Byte) : (sendTagged s l typ berth seq first last payload).phase = s.phase := (sendTagged_frame s l typ berth seq first last payload).phase
@[simp] theorem sendTagged_power (s : State) (l : Line) (typ berth seq : Nat) (first last : Bool) (payload : List Byte) : (sendTagged s l typ berth seq first last payload).power = s.power := (sendTagged_frame s l typ berth seq first last payload).power
@[simp] theorem sendTagged_boot (s : State) (l : Line) (typ berth seq : Nat) (first last : Bool) (payload : List Byte) : (sendTagged s l typ berth seq first last payload).boot = s.boot := (sendTagged_frame s l typ berth seq first last payload).boot
@[simp] theorem sendTagged_shadows (s : State) (l : Line) (typ berth seq : Nat) (first last : Bool) (payload : List Byte) : (sendTagged s l typ berth seq first last payload).shadows = s.shadows := (sendTagged_frame s l typ berth seq first last payload).shadows
@[simp] theorem sendTagged_latches (s : State) (l : Line) (typ berth seq : Nat) (first last : Bool) (payload : List Byte) : (sendTagged s l typ berth seq first last payload).latches = s.latches := (sendTagged_frame s l typ berth seq first last payload).latches
@[simp] theorem sendTagged_mode (s : State) (l : Line) (typ berth seq : Nat) (first last : Bool) (payload : List Byte) : (sendTagged s l typ berth seq first last payload).mode = s.mode := (sendTagged_frame s l typ berth seq first last payload).mode
@[simp] theorem sendTagged_linkA (s : State) (l : Line) (typ berth seq : Nat) (first last : Bool) (payload : List Byte) : (sendTagged s l typ berth seq first last payload).linkA = s.linkA := (sendTagged_frame s l typ berth seq first last payload).linkA
@[simp] theorem sendTagged_linkB (s : State) (l : Line) (typ berth seq : Nat) (first last : Bool) (payload : List Byte) : (sendTagged s l typ berth seq first last payload).linkB = s.linkB := (sendTagged_frame s l typ berth seq first last payload).linkB
@[simp] theorem sendTagged_handshakes (s : State) (l : Line) (typ berth seq : Nat) (first last : Bool) (payload : List Byte) : (sendTagged s l typ berth seq first last payload).handshakes = s.handshakes := (sendTagged_frame s l typ berth seq first last payload).handshakes
@[simp] theorem sendTagged_answered (s : State) (l : Line) (typ berth seq : Nat) (first last : Bool) (payload : List Byte) : (sendTagged s l typ berth seq first last payload).answered = s.answered := (sendTagged_frame s l typ berth seq first last payload).answered
@[simp] theorem sendTagged_berths (s : State) (l : Line) (typ berth seq : Nat) (first last : Bool) (payload : List Byte) : (sendTagged s l typ berth seq first last payload).berths = s.berths := (sendTagged_frame s l typ berth seq first last payload).berths
@[simp] theorem sendTagged_withheld (s : State) (l : Line) (typ berth seq : Nat) (first last : Bool) (payload : List Byte) : (sendTagged s l typ berth seq first last payload).withheld = s.withheld := (sendTagged_frame s l typ berth seq first last payload).withheld
@[simp] theorem sendTagged_seqr (s : State) (l : Line) (typ berth seq : Nat) (first last : Bool) (payload : List Byte) : (sendTagged s l typ berth seq first last payload).seqr = s.seqr := (sendTagged_frame s l typ berth seq first last payload).seqr
@[simp] theorem sendTagged_seals (s : State) (l : Line) (typ berth seq : Nat) (first last : Bool) (payload : List Byte) : (sendTagged s l typ berth seq first last payload).seals = s.seals := (sendTagged_frame s l typ berth seq first last payload).seals
@[simp] theorem sendTagged_cmds (s : State) (l : Line) (typ berth seq : Nat) (first last : Bool) (payload : List Byte) : (sendTagged s l typ berth seq first last payload).cmds = s.cmds := (sendTagged_frame s l typ berth seq first last payload).cmds
@[simp] theorem sendTagged_flash (s : State) (l : Line) (typ berth seq : Nat) (first last : Bool) (payload : List Byte) : (sendTagged s l typ berth seq first last payload).flash = s.flash := (sendTagged_frame s l typ berth seq first last payload).flash
@[simp] theorem sendTagged_space (s : State) (l : Line) (typ berth seq : Nat) (first last : Bool) (payload : List Byte) : (sendTagged s l typ berth seq first last payload).space = s.space := (sendTagged_frame s l typ berth seq first last payload).space
@[simp] theorem sendTagged_index (s : State) (l : Line) (typ berth seq : Nat) (first last : Bool) (payload : List Byte) : (sendTagged s l typ berth seq first last payload).index = s.index := (sendTagged_frame s l typ berth seq first last payload).index
@[simp] theorem sendTagged_dies (s : State) (l : Line) (typ berth seq : Nat) (first last : Bool) (payload : List Byte) : (sendTagged s l typ berth seq first last payload).dies = s.dies := (sendTagged_frame s l typ berth seq first last payload).dies
@[simp] theorem sendTagged_careen (s : State) (l : Line) (typ berth seq : Nat) (first last : Bool) (payload : List Byte) : (sendTagged s l typ berth seq first last payload).careen = s.careen := (sendTagged_frame s l typ berth seq first last payload).careen
@[simp] theorem sendTagged_sensors (s : State) (l : Line) (typ berth seq : Nat) (first last : Bool) (payload : List Byte) : (sendTagged s l typ berth seq first last payload).sensors = s.sensors := (sendTagged_frame s l typ berth seq first last payload).sensors
@[simp] theorem sendTagged_tide (s : State) (l : Line) (typ berth seq : Nat) (first last : Bool) (payload : List Byte) : (sendTagged s l typ berth seq first last payload).tide = s.tide := (sendTagged_frame s l typ berth seq first last payload).tide
@[simp] theorem sendTagged_pstate (s : State) (l : Line) (typ berth seq : Nat) (first last : Bool) (payload : List Byte) : (sendTagged s l typ berth seq first last payload).pstate = s.pstate := (sendTagged_frame s l typ berth seq first last payload).pstate
@[simp] theorem sendTagged_engines (s : State) (l : Line) (typ berth seq : Nat) (first last : Bool) (payload : List Byte) : (sendTagged s l typ berth seq first last payload).engines = s.engines := (sendTagged_frame s l typ berth seq first last payload).engines
@[simp] theorem sendTagged_cipher (s : State) (l : Line) (typ berth seq : Nat) (first last : Bool) (payload : List Byte) : (sendTagged s l typ berth seq first last payload).cipher = s.cipher := (sendTagged_frame s l typ berth seq first last payload).cipher
@[simp] theorem sendTagged_log (s : State) (l : Line) (typ berth seq : Nat) (first last : Bool) (payload : List Byte) : (sendTagged s l typ berth seq first last payload).log = s.log := (sendTagged_frame s l typ berth seq first last payload).log
@[simp] theorem sendTagged_update (s : State) (l : Line) (typ berth seq : Nat) (first last : Bool) (payload : List Byte) : (sendTagged s l typ berth seq first last payload).update = s.update := (sendTagged_frame s l typ berth seq first last payload).update
@[simp] theorem sendTagged_sideband (s : State) (l : Line) (typ berth seq : Nat) (first last : Bool) (payload : List Byte) : (sendTagged s l typ berth seq first last payload).sideband = s.sideband := (sendTagged_frame s l typ berth seq first last payload).sideband
@[simp] theorem sendTagged_lines (s : State) (l : Line) (typ berth seq : Nat) (first last : Bool) (payload : List Byte) : (sendTagged s l typ berth seq first last payload).lines = s.lines := (sendTagged_frame s l typ berth seq first last payload).lines
@[simp] theorem sendTagged_pathErrors (s : State) (l : Line) (typ berth seq : Nat) (first last : Bool) (payload : List Byte) : (sendTagged s l typ berth seq first last payload).pathErrors = s.pathErrors := (sendTagged_frame s l typ berth seq first last payload).pathErrors
@[simp] theorem sendTagged_draws (s : State) (l : Line) (typ berth seq : Nat) (first last : Bool) (payload : List Byte) : (sendTagged s l typ berth seq first last payload).draws = s.draws := (sendTagged_frame s l typ berth seq first last payload).draws
@[simp] theorem sendTagged_freeN (s : State) (l : Line) (typ berth seq : Nat) (first last : Bool) (payload : List Byte) : (sendTagged s l typ berth seq first last payload).freeN = s.freeN := (sendTagged_frame s l typ berth seq first last payload).freeN

theorem sendAck_frame (s : State) (l : Line) : OnlySent s (sendAck s l) := by
  unfold sendAck; split
  · exact OnlySent.refl s
  · exact sendTagged_frame _ _ _ _ _ _ _ _

@[simp] theorem sendAck_pending (s : State) (l : Line) : (sendAck s l).pending = s.pending := (sendAck_frame s l).pending
@[simp] theorem sendAck_boardUs (s : State) (l : Line) : (sendAck s l).boardUs = s.boardUs := (sendAck_frame s l).boardUs
@[simp] theorem sendAck_sessionUs (s : State) (l : Line) : (sendAck s l).sessionUs = s.sessionUs := (sendAck_frame s l).sessionUs
@[simp] theorem sendAck_poweredUs (s : State) (l : Line) : (sendAck s l).poweredUs = s.poweredUs := (sendAck_frame s l).poweredUs
@[simp] theorem sendAck_persistedAt (s : State) (l : Line) : (sendAck s l).persistedAt = s.persistedAt := (sendAck_frame s l).persistedAt
@[simp] theorem sendAck_phase (s : State) (l : Line) : (sendAck s l).phase = s.phase := (sendAck_frame s l).phase
@[simp] theorem sendAck_power (s : State) (l : Line) : (sendAck s l).power = s.power := (sendAck_frame s l).power
@[simp] theorem sendAck_boot (s : State) (l : Line) : (sendAck s l).boot = s.boot := (sendAck_frame s l).boot
@[simp] theorem sendAck_shadows (s : State) (l : Line) : (sendAck s l).shadows = s.shadows := (sendAck_frame s l).shadows
@[simp] theorem sendAck_latches (s : State) (l : Line) : (sendAck s l).latches = s.latches := (sendAck_frame s l).latches
@[simp] theorem sendAck_mode (s : State) (l : Line) : (sendAck s l).mode = s.mode := (sendAck_frame s l).mode
@[simp] theorem sendAck_linkA (s : State) (l : Line) : (sendAck s l).linkA = s.linkA := (sendAck_frame s l).linkA
@[simp] theorem sendAck_linkB (s : State) (l : Line) : (sendAck s l).linkB = s.linkB := (sendAck_frame s l).linkB
@[simp] theorem sendAck_handshakes (s : State) (l : Line) : (sendAck s l).handshakes = s.handshakes := (sendAck_frame s l).handshakes
@[simp] theorem sendAck_answered (s : State) (l : Line) : (sendAck s l).answered = s.answered := (sendAck_frame s l).answered
@[simp] theorem sendAck_berths (s : State) (l : Line) : (sendAck s l).berths = s.berths := (sendAck_frame s l).berths
@[simp] theorem sendAck_withheld (s : State) (l : Line) : (sendAck s l).withheld = s.withheld := (sendAck_frame s l).withheld
@[simp] theorem sendAck_seqr (s : State) (l : Line) : (sendAck s l).seqr = s.seqr := (sendAck_frame s l).seqr
@[simp] theorem sendAck_seals (s : State) (l : Line) : (sendAck s l).seals = s.seals := (sendAck_frame s l).seals
@[simp] theorem sendAck_cmds (s : State) (l : Line) : (sendAck s l).cmds = s.cmds := (sendAck_frame s l).cmds
@[simp] theorem sendAck_flash (s : State) (l : Line) : (sendAck s l).flash = s.flash := (sendAck_frame s l).flash
@[simp] theorem sendAck_space (s : State) (l : Line) : (sendAck s l).space = s.space := (sendAck_frame s l).space
@[simp] theorem sendAck_index (s : State) (l : Line) : (sendAck s l).index = s.index := (sendAck_frame s l).index
@[simp] theorem sendAck_dies (s : State) (l : Line) : (sendAck s l).dies = s.dies := (sendAck_frame s l).dies
@[simp] theorem sendAck_careen (s : State) (l : Line) : (sendAck s l).careen = s.careen := (sendAck_frame s l).careen
@[simp] theorem sendAck_sensors (s : State) (l : Line) : (sendAck s l).sensors = s.sensors := (sendAck_frame s l).sensors
@[simp] theorem sendAck_tide (s : State) (l : Line) : (sendAck s l).tide = s.tide := (sendAck_frame s l).tide
@[simp] theorem sendAck_pstate (s : State) (l : Line) : (sendAck s l).pstate = s.pstate := (sendAck_frame s l).pstate
@[simp] theorem sendAck_engines (s : State) (l : Line) : (sendAck s l).engines = s.engines := (sendAck_frame s l).engines
@[simp] theorem sendAck_cipher (s : State) (l : Line) : (sendAck s l).cipher = s.cipher := (sendAck_frame s l).cipher
@[simp] theorem sendAck_log (s : State) (l : Line) : (sendAck s l).log = s.log := (sendAck_frame s l).log
@[simp] theorem sendAck_update (s : State) (l : Line) : (sendAck s l).update = s.update := (sendAck_frame s l).update
@[simp] theorem sendAck_sideband (s : State) (l : Line) : (sendAck s l).sideband = s.sideband := (sendAck_frame s l).sideband
@[simp] theorem sendAck_lines (s : State) (l : Line) : (sendAck s l).lines = s.lines := (sendAck_frame s l).lines
@[simp] theorem sendAck_pathErrors (s : State) (l : Line) : (sendAck s l).pathErrors = s.pathErrors := (sendAck_frame s l).pathErrors
@[simp] theorem sendAck_draws (s : State) (l : Line) : (sendAck s l).draws = s.draws := (sendAck_frame s l).draws
@[simp] theorem sendAck_freeN (s : State) (l : Line) : (sendAck s l).freeN = s.freeN := (sendAck_frame s l).freeN

theorem pumpN_frame (k : Nat) (s : State) (l : Line) : OnlySent s (pumpN k s l) := by
  induction k generalizing s with
  | zero => exact OnlySent.refl s
  | succ k ih =>
    unfold pumpN; dsimp only; (repeat' split) <;> first
      | exact OnlySent.refl s
      | exact OnlySent.trans (OnlySent.trans (updTp_frame _ _ _) (sendTagged_frame _ _ _ _ _ _ _ _)) (ih _)

theorem pump_frame (s : State) (l : Line) : OnlySent s (pump s l) := by
  unfold pump; split
  · exact OnlySent.refl s
  · exact pumpN_frame _ _ _

@[simp] theorem pump_pending (s : State) (l : Line) : (pump s l).pending = s.pending := (pump_frame s l).pending
@[simp] theorem pump_boardUs (s : State) (l : Line) : (pump s l).boardUs = s.boardUs := (pump_frame s l).boardUs
@[simp] theorem pump_sessionUs (s : State) (l : Line) : (pump s l).sessionUs = s.sessionUs := (pump_frame s l).sessionUs
@[simp] theorem pump_poweredUs (s : State) (l : Line) : (pump s l).poweredUs = s.poweredUs := (pump_frame s l).poweredUs
@[simp] theorem pump_persistedAt (s : State) (l : Line) : (pump s l).persistedAt = s.persistedAt := (pump_frame s l).persistedAt
@[simp] theorem pump_phase (s : State) (l : Line) : (pump s l).phase = s.phase := (pump_frame s l).phase
@[simp] theorem pump_power (s : State) (l : Line) : (pump s l).power = s.power := (pump_frame s l).power
@[simp] theorem pump_boot (s : State) (l : Line) : (pump s l).boot = s.boot := (pump_frame s l).boot
@[simp] theorem pump_shadows (s : State) (l : Line) : (pump s l).shadows = s.shadows := (pump_frame s l).shadows
@[simp] theorem pump_latches (s : State) (l : Line) : (pump s l).latches = s.latches := (pump_frame s l).latches
@[simp] theorem pump_mode (s : State) (l : Line) : (pump s l).mode = s.mode := (pump_frame s l).mode
@[simp] theorem pump_linkA (s : State) (l : Line) : (pump s l).linkA = s.linkA := (pump_frame s l).linkA
@[simp] theorem pump_linkB (s : State) (l : Line) : (pump s l).linkB = s.linkB := (pump_frame s l).linkB
@[simp] theorem pump_handshakes (s : State) (l : Line) : (pump s l).handshakes = s.handshakes := (pump_frame s l).handshakes
@[simp] theorem pump_answered (s : State) (l : Line) : (pump s l).answered = s.answered := (pump_frame s l).answered
@[simp] theorem pump_berths (s : State) (l : Line) : (pump s l).berths = s.berths := (pump_frame s l).berths
@[simp] theorem pump_withheld (s : State) (l : Line) : (pump s l).withheld = s.withheld := (pump_frame s l).withheld
@[simp] theorem pump_seqr (s : State) (l : Line) : (pump s l).seqr = s.seqr := (pump_frame s l).seqr
@[simp] theorem pump_seals (s : State) (l : Line) : (pump s l).seals = s.seals := (pump_frame s l).seals
@[simp] theorem pump_cmds (s : State) (l : Line) : (pump s l).cmds = s.cmds := (pump_frame s l).cmds
@[simp] theorem pump_flash (s : State) (l : Line) : (pump s l).flash = s.flash := (pump_frame s l).flash
@[simp] theorem pump_space (s : State) (l : Line) : (pump s l).space = s.space := (pump_frame s l).space
@[simp] theorem pump_index (s : State) (l : Line) : (pump s l).index = s.index := (pump_frame s l).index
@[simp] theorem pump_dies (s : State) (l : Line) : (pump s l).dies = s.dies := (pump_frame s l).dies
@[simp] theorem pump_careen (s : State) (l : Line) : (pump s l).careen = s.careen := (pump_frame s l).careen
@[simp] theorem pump_sensors (s : State) (l : Line) : (pump s l).sensors = s.sensors := (pump_frame s l).sensors
@[simp] theorem pump_tide (s : State) (l : Line) : (pump s l).tide = s.tide := (pump_frame s l).tide
@[simp] theorem pump_pstate (s : State) (l : Line) : (pump s l).pstate = s.pstate := (pump_frame s l).pstate
@[simp] theorem pump_engines (s : State) (l : Line) : (pump s l).engines = s.engines := (pump_frame s l).engines
@[simp] theorem pump_cipher (s : State) (l : Line) : (pump s l).cipher = s.cipher := (pump_frame s l).cipher
@[simp] theorem pump_log (s : State) (l : Line) : (pump s l).log = s.log := (pump_frame s l).log
@[simp] theorem pump_update (s : State) (l : Line) : (pump s l).update = s.update := (pump_frame s l).update
@[simp] theorem pump_sideband (s : State) (l : Line) : (pump s l).sideband = s.sideband := (pump_frame s l).sideband
@[simp] theorem pump_lines (s : State) (l : Line) : (pump s l).lines = s.lines := (pump_frame s l).lines
@[simp] theorem pump_pathErrors (s : State) (l : Line) : (pump s l).pathErrors = s.pathErrors := (pump_frame s l).pathErrors
@[simp] theorem pump_draws (s : State) (l : Line) : (pump s l).draws = s.draws := (pump_frame s l).draws
@[simp] theorem pump_freeN (s : State) (l : Line) : (pump s l).freeN = s.freeN := (pump_frame s l).freeN

theorem sendCapsule_frame (s : State) (l : Line) (berth : Nat) (ticket : Option (Nat × Nat)) (bytes : List Byte) : OnlySent s (sendCapsule s l berth ticket bytes) := by
  unfold sendCapsule; dsimp only; split
  · exact OnlySent.refl s
  · exact OnlySent.trans (updTp_frame _ _ _) (pump_frame _ _)

@[simp] theorem sendCapsule_pending (s : State) (l : Line) (berth : Nat) (ticket : Option (Nat × Nat)) (bytes : List Byte) : (sendCapsule s l berth ticket bytes).pending = s.pending := (sendCapsule_frame s l berth ticket bytes).pending
@[simp] theorem sendCapsule_boardUs (s : State) (l : Line) (berth : Nat) (ticket : Option (Nat × Nat)) (bytes : List Byte) : (sendCapsule s l berth ticket bytes).boardUs = s.boardUs := (sendCapsule_frame s l berth ticket bytes).boardUs
@[simp] theorem sendCapsule_sessionUs (s : State) (l : Line) (berth : Nat) (ticket : Option (Nat × Nat)) (bytes : List Byte) : (sendCapsule s l berth ticket bytes).sessionUs = s.sessionUs := (sendCapsule_frame s l berth ticket bytes).sessionUs
@[simp] theorem sendCapsule_poweredUs (s : State) (l : Line) (berth : Nat) (ticket : Option (Nat × Nat)) (bytes : List Byte) : (sendCapsule s l berth ticket bytes).poweredUs = s.poweredUs := (sendCapsule_frame s l berth ticket bytes).poweredUs
@[simp] theorem sendCapsule_persistedAt (s : State) (l : Line) (berth : Nat) (ticket : Option (Nat × Nat)) (bytes : List Byte) : (sendCapsule s l berth ticket bytes).persistedAt = s.persistedAt := (sendCapsule_frame s l berth ticket bytes).persistedAt
@[simp] theorem sendCapsule_phase (s : State) (l : Line) (berth : Nat) (ticket : Option (Nat × Nat)) (bytes : List Byte) : (sendCapsule s l berth ticket bytes).phase = s.phase := (sendCapsule_frame s l berth ticket bytes).phase
@[simp] theorem sendCapsule_power (s : State) (l : Line) (berth : Nat) (ticket : Option (Nat × Nat)) (bytes : List Byte) : (sendCapsule s l berth ticket bytes).power = s.power := (sendCapsule_frame s l berth ticket bytes).power
@[simp] theorem sendCapsule_boot (s : State) (l : Line) (berth : Nat) (ticket : Option (Nat × Nat)) (bytes : List Byte) : (sendCapsule s l berth ticket bytes).boot = s.boot := (sendCapsule_frame s l berth ticket bytes).boot
@[simp] theorem sendCapsule_shadows (s : State) (l : Line) (berth : Nat) (ticket : Option (Nat × Nat)) (bytes : List Byte) : (sendCapsule s l berth ticket bytes).shadows = s.shadows := (sendCapsule_frame s l berth ticket bytes).shadows
@[simp] theorem sendCapsule_latches (s : State) (l : Line) (berth : Nat) (ticket : Option (Nat × Nat)) (bytes : List Byte) : (sendCapsule s l berth ticket bytes).latches = s.latches := (sendCapsule_frame s l berth ticket bytes).latches
@[simp] theorem sendCapsule_mode (s : State) (l : Line) (berth : Nat) (ticket : Option (Nat × Nat)) (bytes : List Byte) : (sendCapsule s l berth ticket bytes).mode = s.mode := (sendCapsule_frame s l berth ticket bytes).mode
@[simp] theorem sendCapsule_linkA (s : State) (l : Line) (berth : Nat) (ticket : Option (Nat × Nat)) (bytes : List Byte) : (sendCapsule s l berth ticket bytes).linkA = s.linkA := (sendCapsule_frame s l berth ticket bytes).linkA
@[simp] theorem sendCapsule_linkB (s : State) (l : Line) (berth : Nat) (ticket : Option (Nat × Nat)) (bytes : List Byte) : (sendCapsule s l berth ticket bytes).linkB = s.linkB := (sendCapsule_frame s l berth ticket bytes).linkB
@[simp] theorem sendCapsule_handshakes (s : State) (l : Line) (berth : Nat) (ticket : Option (Nat × Nat)) (bytes : List Byte) : (sendCapsule s l berth ticket bytes).handshakes = s.handshakes := (sendCapsule_frame s l berth ticket bytes).handshakes
@[simp] theorem sendCapsule_answered (s : State) (l : Line) (berth : Nat) (ticket : Option (Nat × Nat)) (bytes : List Byte) : (sendCapsule s l berth ticket bytes).answered = s.answered := (sendCapsule_frame s l berth ticket bytes).answered
@[simp] theorem sendCapsule_berths (s : State) (l : Line) (berth : Nat) (ticket : Option (Nat × Nat)) (bytes : List Byte) : (sendCapsule s l berth ticket bytes).berths = s.berths := (sendCapsule_frame s l berth ticket bytes).berths
@[simp] theorem sendCapsule_withheld (s : State) (l : Line) (berth : Nat) (ticket : Option (Nat × Nat)) (bytes : List Byte) : (sendCapsule s l berth ticket bytes).withheld = s.withheld := (sendCapsule_frame s l berth ticket bytes).withheld
@[simp] theorem sendCapsule_seqr (s : State) (l : Line) (berth : Nat) (ticket : Option (Nat × Nat)) (bytes : List Byte) : (sendCapsule s l berth ticket bytes).seqr = s.seqr := (sendCapsule_frame s l berth ticket bytes).seqr
@[simp] theorem sendCapsule_seals (s : State) (l : Line) (berth : Nat) (ticket : Option (Nat × Nat)) (bytes : List Byte) : (sendCapsule s l berth ticket bytes).seals = s.seals := (sendCapsule_frame s l berth ticket bytes).seals
@[simp] theorem sendCapsule_cmds (s : State) (l : Line) (berth : Nat) (ticket : Option (Nat × Nat)) (bytes : List Byte) : (sendCapsule s l berth ticket bytes).cmds = s.cmds := (sendCapsule_frame s l berth ticket bytes).cmds
@[simp] theorem sendCapsule_flash (s : State) (l : Line) (berth : Nat) (ticket : Option (Nat × Nat)) (bytes : List Byte) : (sendCapsule s l berth ticket bytes).flash = s.flash := (sendCapsule_frame s l berth ticket bytes).flash
@[simp] theorem sendCapsule_space (s : State) (l : Line) (berth : Nat) (ticket : Option (Nat × Nat)) (bytes : List Byte) : (sendCapsule s l berth ticket bytes).space = s.space := (sendCapsule_frame s l berth ticket bytes).space
@[simp] theorem sendCapsule_index (s : State) (l : Line) (berth : Nat) (ticket : Option (Nat × Nat)) (bytes : List Byte) : (sendCapsule s l berth ticket bytes).index = s.index := (sendCapsule_frame s l berth ticket bytes).index
@[simp] theorem sendCapsule_dies (s : State) (l : Line) (berth : Nat) (ticket : Option (Nat × Nat)) (bytes : List Byte) : (sendCapsule s l berth ticket bytes).dies = s.dies := (sendCapsule_frame s l berth ticket bytes).dies
@[simp] theorem sendCapsule_careen (s : State) (l : Line) (berth : Nat) (ticket : Option (Nat × Nat)) (bytes : List Byte) : (sendCapsule s l berth ticket bytes).careen = s.careen := (sendCapsule_frame s l berth ticket bytes).careen
@[simp] theorem sendCapsule_sensors (s : State) (l : Line) (berth : Nat) (ticket : Option (Nat × Nat)) (bytes : List Byte) : (sendCapsule s l berth ticket bytes).sensors = s.sensors := (sendCapsule_frame s l berth ticket bytes).sensors
@[simp] theorem sendCapsule_tide (s : State) (l : Line) (berth : Nat) (ticket : Option (Nat × Nat)) (bytes : List Byte) : (sendCapsule s l berth ticket bytes).tide = s.tide := (sendCapsule_frame s l berth ticket bytes).tide
@[simp] theorem sendCapsule_pstate (s : State) (l : Line) (berth : Nat) (ticket : Option (Nat × Nat)) (bytes : List Byte) : (sendCapsule s l berth ticket bytes).pstate = s.pstate := (sendCapsule_frame s l berth ticket bytes).pstate
@[simp] theorem sendCapsule_engines (s : State) (l : Line) (berth : Nat) (ticket : Option (Nat × Nat)) (bytes : List Byte) : (sendCapsule s l berth ticket bytes).engines = s.engines := (sendCapsule_frame s l berth ticket bytes).engines
@[simp] theorem sendCapsule_cipher (s : State) (l : Line) (berth : Nat) (ticket : Option (Nat × Nat)) (bytes : List Byte) : (sendCapsule s l berth ticket bytes).cipher = s.cipher := (sendCapsule_frame s l berth ticket bytes).cipher
@[simp] theorem sendCapsule_log (s : State) (l : Line) (berth : Nat) (ticket : Option (Nat × Nat)) (bytes : List Byte) : (sendCapsule s l berth ticket bytes).log = s.log := (sendCapsule_frame s l berth ticket bytes).log
@[simp] theorem sendCapsule_update (s : State) (l : Line) (berth : Nat) (ticket : Option (Nat × Nat)) (bytes : List Byte) : (sendCapsule s l berth ticket bytes).update = s.update := (sendCapsule_frame s l berth ticket bytes).update
@[simp] theorem sendCapsule_sideband (s : State) (l : Line) (berth : Nat) (ticket : Option (Nat × Nat)) (bytes : List Byte) : (sendCapsule s l berth ticket bytes).sideband = s.sideband := (sendCapsule_frame s l berth ticket bytes).sideband
@[simp] theorem sendCapsule_lines (s : State) (l : Line) (berth : Nat) (ticket : Option (Nat × Nat)) (bytes : List Byte) : (sendCapsule s l berth ticket bytes).lines = s.lines := (sendCapsule_frame s l berth ticket bytes).lines
@[simp] theorem sendCapsule_pathErrors (s : State) (l : Line) (berth : Nat) (ticket : Option (Nat × Nat)) (bytes : List Byte) : (sendCapsule s l berth ticket bytes).pathErrors = s.pathErrors := (sendCapsule_frame s l berth ticket bytes).pathErrors
@[simp] theorem sendCapsule_draws (s : State) (l : Line) (berth : Nat) (ticket : Option (Nat × Nat)) (bytes : List Byte) : (sendCapsule s l berth ticket bytes).draws = s.draws := (sendCapsule_frame s l berth ticket bytes).draws
@[simp] theorem sendCapsule_freeN (s : State) (l : Line) (berth : Nat) (ticket : Option (Nat × Nat)) (bytes : List Byte) : (sendCapsule s l berth ticket bytes).freeN = s.freeN := (sendCapsule_frame s l berth ticket bytes).freeN

/-! ### Slots and berths -/

@[simp] theorem updSlot_pending (s : State) (k : Nat) (f : Slot → Slot) : (updSlot s k f).pending = s.pending := rfl
@[simp] theorem updSlot_boardUs (s : State) (k : Nat) (f : Slot → Slot) : (updSlot s k f).boardUs = s.boardUs := rfl
@[simp] theorem updSlot_sessionUs (s : State) (k : Nat) (f : Slot → Slot) : (updSlot s k f).sessionUs = s.sessionUs := rfl
@[simp] theorem updSlot_poweredUs (s : State) (k : Nat) (f : Slot → Slot) : (updSlot s k f).poweredUs = s.poweredUs := rfl
@[simp] theorem updSlot_persistedAt (s : State) (k : Nat) (f : Slot → Slot) : (updSlot s k f).persistedAt = s.persistedAt := rfl
@[simp] theorem updSlot_phase (s : State) (k : Nat) (f : Slot → Slot) : (updSlot s k f).phase = s.phase := rfl
@[simp] theorem updSlot_power (s : State) (k : Nat) (f : Slot → Slot) : (updSlot s k f).power = s.power := rfl
@[simp] theorem updSlot_boot (s : State) (k : Nat) (f : Slot → Slot) : (updSlot s k f).boot = s.boot := rfl
@[simp] theorem updSlot_regs (s : State) (k : Nat) (f : Slot → Slot) : (updSlot s k f).regs = s.regs := rfl
@[simp] theorem updSlot_shadows (s : State) (k : Nat) (f : Slot → Slot) : (updSlot s k f).shadows = s.shadows := rfl
@[simp] theorem updSlot_latches (s : State) (k : Nat) (f : Slot → Slot) : (updSlot s k f).latches = s.latches := rfl
@[simp] theorem updSlot_mode (s : State) (k : Nat) (f : Slot → Slot) : (updSlot s k f).mode = s.mode := rfl
@[simp] theorem updSlot_linkA (s : State) (k : Nat) (f : Slot → Slot) : (updSlot s k f).linkA = s.linkA := rfl
@[simp] theorem updSlot_linkB (s : State) (k : Nat) (f : Slot → Slot) : (updSlot s k f).linkB = s.linkB := rfl
@[simp] theorem updSlot_handshakes (s : State) (k : Nat) (f : Slot → Slot) : (updSlot s k f).handshakes = s.handshakes := rfl
@[simp] theorem updSlot_answered (s : State) (k : Nat) (f : Slot → Slot) : (updSlot s k f).answered = s.answered := rfl
@[simp] theorem updSlot_moorings (s : State) (k : Nat) (f : Slot → Slot) : (updSlot s k f).moorings = s.moorings := rfl
@[simp] theorem updSlot_berths (s : State) (k : Nat) (f : Slot → Slot) : (updSlot s k f).berths = s.berths := rfl
@[simp] theorem updSlot_withheld (s : State) (k : Nat) (f : Slot → Slot) : (updSlot s k f).withheld = s.withheld := rfl
@[simp] theorem updSlot_seqr (s : State) (k : Nat) (f : Slot → Slot) : (updSlot s k f).seqr = s.seqr := rfl
@[simp] theorem updSlot_seals (s : State) (k : Nat) (f : Slot → Slot) : (updSlot s k f).seals = s.seals := rfl
@[simp] theorem updSlot_cmds (s : State) (k : Nat) (f : Slot → Slot) : (updSlot s k f).cmds = s.cmds := rfl
@[simp] theorem updSlot_flash (s : State) (k : Nat) (f : Slot → Slot) : (updSlot s k f).flash = s.flash := rfl
@[simp] theorem updSlot_space (s : State) (k : Nat) (f : Slot → Slot) : (updSlot s k f).space = s.space := rfl
@[simp] theorem updSlot_index (s : State) (k : Nat) (f : Slot → Slot) : (updSlot s k f).index = s.index := rfl
@[simp] theorem updSlot_dies (s : State) (k : Nat) (f : Slot → Slot) : (updSlot s k f).dies = s.dies := rfl
@[simp] theorem updSlot_careen (s : State) (k : Nat) (f : Slot → Slot) : (updSlot s k f).careen = s.careen := rfl
@[simp] theorem updSlot_sensors (s : State) (k : Nat) (f : Slot → Slot) : (updSlot s k f).sensors = s.sensors := rfl
@[simp] theorem updSlot_tide (s : State) (k : Nat) (f : Slot → Slot) : (updSlot s k f).tide = s.tide := rfl
@[simp] theorem updSlot_pstate (s : State) (k : Nat) (f : Slot → Slot) : (updSlot s k f).pstate = s.pstate := rfl
@[simp] theorem updSlot_engines (s : State) (k : Nat) (f : Slot → Slot) : (updSlot s k f).engines = s.engines := rfl
@[simp] theorem updSlot_log (s : State) (k : Nat) (f : Slot → Slot) : (updSlot s k f).log = s.log := rfl
@[simp] theorem updSlot_update (s : State) (k : Nat) (f : Slot → Slot) : (updSlot s k f).update = s.update := rfl
@[simp] theorem updSlot_harbour (s : State) (k : Nat) (f : Slot → Slot) : (updSlot s k f).harbour = s.harbour := rfl
@[simp] theorem updSlot_sideband (s : State) (k : Nat) (f : Slot → Slot) : (updSlot s k f).sideband = s.sideband := rfl
@[simp] theorem updSlot_lines (s : State) (k : Nat) (f : Slot → Slot) : (updSlot s k f).lines = s.lines := rfl
@[simp] theorem updSlot_pathErrors (s : State) (k : Nat) (f : Slot → Slot) : (updSlot s k f).pathErrors = s.pathErrors := rfl
@[simp] theorem updSlot_out (s : State) (k : Nat) (f : Slot → Slot) : (updSlot s k f).out = s.out := rfl
@[simp] theorem updSlot_draws (s : State) (k : Nat) (f : Slot → Slot) : (updSlot s k f).draws = s.draws := rfl
@[simp] theorem updSlot_freeN (s : State) (k : Nat) (f : Slot → Slot) : (updSlot s k f).freeN = s.freeN := rfl

@[simp] theorem putSlot_pending (s : State) (k kind owner : Nat) (key : KeyMaterial) (indexKey : Nat) : (putSlot s k kind owner key indexKey).pending = s.pending := rfl
@[simp] theorem putSlot_boardUs (s : State) (k kind owner : Nat) (key : KeyMaterial) (indexKey : Nat) : (putSlot s k kind owner key indexKey).boardUs = s.boardUs := rfl
@[simp] theorem putSlot_sessionUs (s : State) (k kind owner : Nat) (key : KeyMaterial) (indexKey : Nat) : (putSlot s k kind owner key indexKey).sessionUs = s.sessionUs := rfl
@[simp] theorem putSlot_poweredUs (s : State) (k kind owner : Nat) (key : KeyMaterial) (indexKey : Nat) : (putSlot s k kind owner key indexKey).poweredUs = s.poweredUs := rfl
@[simp] theorem putSlot_persistedAt (s : State) (k kind owner : Nat) (key : KeyMaterial) (indexKey : Nat) : (putSlot s k kind owner key indexKey).persistedAt = s.persistedAt := rfl
@[simp] theorem putSlot_phase (s : State) (k kind owner : Nat) (key : KeyMaterial) (indexKey : Nat) : (putSlot s k kind owner key indexKey).phase = s.phase := rfl
@[simp] theorem putSlot_power (s : State) (k kind owner : Nat) (key : KeyMaterial) (indexKey : Nat) : (putSlot s k kind owner key indexKey).power = s.power := rfl
@[simp] theorem putSlot_boot (s : State) (k kind owner : Nat) (key : KeyMaterial) (indexKey : Nat) : (putSlot s k kind owner key indexKey).boot = s.boot := rfl
@[simp] theorem putSlot_regs (s : State) (k kind owner : Nat) (key : KeyMaterial) (indexKey : Nat) : (putSlot s k kind owner key indexKey).regs = s.regs := rfl
@[simp] theorem putSlot_shadows (s : State) (k kind owner : Nat) (key : KeyMaterial) (indexKey : Nat) : (putSlot s k kind owner key indexKey).shadows = s.shadows := rfl
@[simp] theorem putSlot_latches (s : State) (k kind owner : Nat) (key : KeyMaterial) (indexKey : Nat) : (putSlot s k kind owner key indexKey).latches = s.latches := rfl
@[simp] theorem putSlot_mode (s : State) (k kind owner : Nat) (key : KeyMaterial) (indexKey : Nat) : (putSlot s k kind owner key indexKey).mode = s.mode := rfl
@[simp] theorem putSlot_linkA (s : State) (k kind owner : Nat) (key : KeyMaterial) (indexKey : Nat) : (putSlot s k kind owner key indexKey).linkA = s.linkA := rfl
@[simp] theorem putSlot_linkB (s : State) (k kind owner : Nat) (key : KeyMaterial) (indexKey : Nat) : (putSlot s k kind owner key indexKey).linkB = s.linkB := rfl
@[simp] theorem putSlot_handshakes (s : State) (k kind owner : Nat) (key : KeyMaterial) (indexKey : Nat) : (putSlot s k kind owner key indexKey).handshakes = s.handshakes := rfl
@[simp] theorem putSlot_answered (s : State) (k kind owner : Nat) (key : KeyMaterial) (indexKey : Nat) : (putSlot s k kind owner key indexKey).answered = s.answered := rfl
@[simp] theorem putSlot_moorings (s : State) (k kind owner : Nat) (key : KeyMaterial) (indexKey : Nat) : (putSlot s k kind owner key indexKey).moorings = s.moorings := rfl
@[simp] theorem putSlot_berths (s : State) (k kind owner : Nat) (key : KeyMaterial) (indexKey : Nat) : (putSlot s k kind owner key indexKey).berths = s.berths := rfl
@[simp] theorem putSlot_withheld (s : State) (k kind owner : Nat) (key : KeyMaterial) (indexKey : Nat) : (putSlot s k kind owner key indexKey).withheld = s.withheld := rfl
@[simp] theorem putSlot_seqr (s : State) (k kind owner : Nat) (key : KeyMaterial) (indexKey : Nat) : (putSlot s k kind owner key indexKey).seqr = s.seqr := rfl
@[simp] theorem putSlot_seals (s : State) (k kind owner : Nat) (key : KeyMaterial) (indexKey : Nat) : (putSlot s k kind owner key indexKey).seals = s.seals := rfl
@[simp] theorem putSlot_cmds (s : State) (k kind owner : Nat) (key : KeyMaterial) (indexKey : Nat) : (putSlot s k kind owner key indexKey).cmds = s.cmds := rfl
@[simp] theorem putSlot_flash (s : State) (k kind owner : Nat) (key : KeyMaterial) (indexKey : Nat) : (putSlot s k kind owner key indexKey).flash = s.flash := rfl
@[simp] theorem putSlot_space (s : State) (k kind owner : Nat) (key : KeyMaterial) (indexKey : Nat) : (putSlot s k kind owner key indexKey).space = s.space := rfl
@[simp] theorem putSlot_index (s : State) (k kind owner : Nat) (key : KeyMaterial) (indexKey : Nat) : (putSlot s k kind owner key indexKey).index = s.index := rfl
@[simp] theorem putSlot_dies (s : State) (k kind owner : Nat) (key : KeyMaterial) (indexKey : Nat) : (putSlot s k kind owner key indexKey).dies = s.dies := rfl
@[simp] theorem putSlot_careen (s : State) (k kind owner : Nat) (key : KeyMaterial) (indexKey : Nat) : (putSlot s k kind owner key indexKey).careen = s.careen := rfl
@[simp] theorem putSlot_sensors (s : State) (k kind owner : Nat) (key : KeyMaterial) (indexKey : Nat) : (putSlot s k kind owner key indexKey).sensors = s.sensors := rfl
@[simp] theorem putSlot_tide (s : State) (k kind owner : Nat) (key : KeyMaterial) (indexKey : Nat) : (putSlot s k kind owner key indexKey).tide = s.tide := rfl
@[simp] theorem putSlot_pstate (s : State) (k kind owner : Nat) (key : KeyMaterial) (indexKey : Nat) : (putSlot s k kind owner key indexKey).pstate = s.pstate := rfl
@[simp] theorem putSlot_engines (s : State) (k kind owner : Nat) (key : KeyMaterial) (indexKey : Nat) : (putSlot s k kind owner key indexKey).engines = s.engines := rfl
@[simp] theorem putSlot_log (s : State) (k kind owner : Nat) (key : KeyMaterial) (indexKey : Nat) : (putSlot s k kind owner key indexKey).log = s.log := rfl
@[simp] theorem putSlot_update (s : State) (k kind owner : Nat) (key : KeyMaterial) (indexKey : Nat) : (putSlot s k kind owner key indexKey).update = s.update := rfl
@[simp] theorem putSlot_harbour (s : State) (k kind owner : Nat) (key : KeyMaterial) (indexKey : Nat) : (putSlot s k kind owner key indexKey).harbour = s.harbour := rfl
@[simp] theorem putSlot_sideband (s : State) (k kind owner : Nat) (key : KeyMaterial) (indexKey : Nat) : (putSlot s k kind owner key indexKey).sideband = s.sideband := rfl
@[simp] theorem putSlot_lines (s : State) (k kind owner : Nat) (key : KeyMaterial) (indexKey : Nat) : (putSlot s k kind owner key indexKey).lines = s.lines := rfl
@[simp] theorem putSlot_pathErrors (s : State) (k kind owner : Nat) (key : KeyMaterial) (indexKey : Nat) : (putSlot s k kind owner key indexKey).pathErrors = s.pathErrors := rfl
@[simp] theorem putSlot_out (s : State) (k kind owner : Nat) (key : KeyMaterial) (indexKey : Nat) : (putSlot s k kind owner key indexKey).out = s.out := rfl
@[simp] theorem putSlot_draws (s : State) (k kind owner : Nat) (key : KeyMaterial) (indexKey : Nat) : (putSlot s k kind owner key indexKey).draws = s.draws := rfl
@[simp] theorem putSlot_freeN (s : State) (k kind owner : Nat) (key : KeyMaterial) (indexKey : Nat) : (putSlot s k kind owner key indexKey).freeN = s.freeN := rfl

@[simp] theorem freeSlot_pending (s : State) (k : Nat) : (freeSlot s k).pending = s.pending := rfl
@[simp] theorem freeSlot_boardUs (s : State) (k : Nat) : (freeSlot s k).boardUs = s.boardUs := rfl
@[simp] theorem freeSlot_sessionUs (s : State) (k : Nat) : (freeSlot s k).sessionUs = s.sessionUs := rfl
@[simp] theorem freeSlot_poweredUs (s : State) (k : Nat) : (freeSlot s k).poweredUs = s.poweredUs := rfl
@[simp] theorem freeSlot_persistedAt (s : State) (k : Nat) : (freeSlot s k).persistedAt = s.persistedAt := rfl
@[simp] theorem freeSlot_phase (s : State) (k : Nat) : (freeSlot s k).phase = s.phase := rfl
@[simp] theorem freeSlot_power (s : State) (k : Nat) : (freeSlot s k).power = s.power := rfl
@[simp] theorem freeSlot_boot (s : State) (k : Nat) : (freeSlot s k).boot = s.boot := rfl
@[simp] theorem freeSlot_regs (s : State) (k : Nat) : (freeSlot s k).regs = s.regs := rfl
@[simp] theorem freeSlot_shadows (s : State) (k : Nat) : (freeSlot s k).shadows = s.shadows := rfl
@[simp] theorem freeSlot_latches (s : State) (k : Nat) : (freeSlot s k).latches = s.latches := rfl
@[simp] theorem freeSlot_mode (s : State) (k : Nat) : (freeSlot s k).mode = s.mode := rfl
@[simp] theorem freeSlot_linkA (s : State) (k : Nat) : (freeSlot s k).linkA = s.linkA := rfl
@[simp] theorem freeSlot_linkB (s : State) (k : Nat) : (freeSlot s k).linkB = s.linkB := rfl
@[simp] theorem freeSlot_handshakes (s : State) (k : Nat) : (freeSlot s k).handshakes = s.handshakes := rfl
@[simp] theorem freeSlot_answered (s : State) (k : Nat) : (freeSlot s k).answered = s.answered := rfl
@[simp] theorem freeSlot_moorings (s : State) (k : Nat) : (freeSlot s k).moorings = s.moorings := rfl
@[simp] theorem freeSlot_berths (s : State) (k : Nat) : (freeSlot s k).berths = s.berths := rfl
@[simp] theorem freeSlot_withheld (s : State) (k : Nat) : (freeSlot s k).withheld = s.withheld := rfl
@[simp] theorem freeSlot_seqr (s : State) (k : Nat) : (freeSlot s k).seqr = s.seqr := rfl
@[simp] theorem freeSlot_seals (s : State) (k : Nat) : (freeSlot s k).seals = s.seals := rfl
@[simp] theorem freeSlot_cmds (s : State) (k : Nat) : (freeSlot s k).cmds = s.cmds := rfl
@[simp] theorem freeSlot_flash (s : State) (k : Nat) : (freeSlot s k).flash = s.flash := rfl
@[simp] theorem freeSlot_space (s : State) (k : Nat) : (freeSlot s k).space = s.space := rfl
@[simp] theorem freeSlot_index (s : State) (k : Nat) : (freeSlot s k).index = s.index := rfl
@[simp] theorem freeSlot_dies (s : State) (k : Nat) : (freeSlot s k).dies = s.dies := rfl
@[simp] theorem freeSlot_careen (s : State) (k : Nat) : (freeSlot s k).careen = s.careen := rfl
@[simp] theorem freeSlot_sensors (s : State) (k : Nat) : (freeSlot s k).sensors = s.sensors := rfl
@[simp] theorem freeSlot_tide (s : State) (k : Nat) : (freeSlot s k).tide = s.tide := rfl
@[simp] theorem freeSlot_pstate (s : State) (k : Nat) : (freeSlot s k).pstate = s.pstate := rfl
@[simp] theorem freeSlot_engines (s : State) (k : Nat) : (freeSlot s k).engines = s.engines := rfl
@[simp] theorem freeSlot_log (s : State) (k : Nat) : (freeSlot s k).log = s.log := rfl
@[simp] theorem freeSlot_update (s : State) (k : Nat) : (freeSlot s k).update = s.update := rfl
@[simp] theorem freeSlot_harbour (s : State) (k : Nat) : (freeSlot s k).harbour = s.harbour := rfl
@[simp] theorem freeSlot_sideband (s : State) (k : Nat) : (freeSlot s k).sideband = s.sideband := rfl
@[simp] theorem freeSlot_lines (s : State) (k : Nat) : (freeSlot s k).lines = s.lines := rfl
@[simp] theorem freeSlot_pathErrors (s : State) (k : Nat) : (freeSlot s k).pathErrors = s.pathErrors := rfl
@[simp] theorem freeSlot_out (s : State) (k : Nat) : (freeSlot s k).out = s.out := rfl
@[simp] theorem freeSlot_draws (s : State) (k : Nat) : (freeSlot s k).draws = s.draws := rfl
@[simp] theorem freeSlot_freeN (s : State) (k : Nat) : (freeSlot s k).freeN = s.freeN := rfl

@[simp] theorem updBerth_pending (s : State) (b : Nat) (f : Berth → Berth) : (updBerth s b f).pending = s.pending := rfl
@[simp] theorem updBerth_boardUs (s : State) (b : Nat) (f : Berth → Berth) : (updBerth s b f).boardUs = s.boardUs := rfl
@[simp] theorem updBerth_sessionUs (s : State) (b : Nat) (f : Berth → Berth) : (updBerth s b f).sessionUs = s.sessionUs := rfl
@[simp] theorem updBerth_poweredUs (s : State) (b : Nat) (f : Berth → Berth) : (updBerth s b f).poweredUs = s.poweredUs := rfl
@[simp] theorem updBerth_persistedAt (s : State) (b : Nat) (f : Berth → Berth) : (updBerth s b f).persistedAt = s.persistedAt := rfl
@[simp] theorem updBerth_phase (s : State) (b : Nat) (f : Berth → Berth) : (updBerth s b f).phase = s.phase := rfl
@[simp] theorem updBerth_power (s : State) (b : Nat) (f : Berth → Berth) : (updBerth s b f).power = s.power := rfl
@[simp] theorem updBerth_boot (s : State) (b : Nat) (f : Berth → Berth) : (updBerth s b f).boot = s.boot := rfl
@[simp] theorem updBerth_regs (s : State) (b : Nat) (f : Berth → Berth) : (updBerth s b f).regs = s.regs := rfl
@[simp] theorem updBerth_shadows (s : State) (b : Nat) (f : Berth → Berth) : (updBerth s b f).shadows = s.shadows := rfl
@[simp] theorem updBerth_latches (s : State) (b : Nat) (f : Berth → Berth) : (updBerth s b f).latches = s.latches := rfl
@[simp] theorem updBerth_mode (s : State) (b : Nat) (f : Berth → Berth) : (updBerth s b f).mode = s.mode := rfl
@[simp] theorem updBerth_linkA (s : State) (b : Nat) (f : Berth → Berth) : (updBerth s b f).linkA = s.linkA := rfl
@[simp] theorem updBerth_linkB (s : State) (b : Nat) (f : Berth → Berth) : (updBerth s b f).linkB = s.linkB := rfl
@[simp] theorem updBerth_handshakes (s : State) (b : Nat) (f : Berth → Berth) : (updBerth s b f).handshakes = s.handshakes := rfl
@[simp] theorem updBerth_answered (s : State) (b : Nat) (f : Berth → Berth) : (updBerth s b f).answered = s.answered := rfl
@[simp] theorem updBerth_moorings (s : State) (b : Nat) (f : Berth → Berth) : (updBerth s b f).moorings = s.moorings := rfl
@[simp] theorem updBerth_withheld (s : State) (b : Nat) (f : Berth → Berth) : (updBerth s b f).withheld = s.withheld := rfl
@[simp] theorem updBerth_seqr (s : State) (b : Nat) (f : Berth → Berth) : (updBerth s b f).seqr = s.seqr := rfl
@[simp] theorem updBerth_seals (s : State) (b : Nat) (f : Berth → Berth) : (updBerth s b f).seals = s.seals := rfl
@[simp] theorem updBerth_cmds (s : State) (b : Nat) (f : Berth → Berth) : (updBerth s b f).cmds = s.cmds := rfl
@[simp] theorem updBerth_flash (s : State) (b : Nat) (f : Berth → Berth) : (updBerth s b f).flash = s.flash := rfl
@[simp] theorem updBerth_space (s : State) (b : Nat) (f : Berth → Berth) : (updBerth s b f).space = s.space := rfl
@[simp] theorem updBerth_index (s : State) (b : Nat) (f : Berth → Berth) : (updBerth s b f).index = s.index := rfl
@[simp] theorem updBerth_dies (s : State) (b : Nat) (f : Berth → Berth) : (updBerth s b f).dies = s.dies := rfl
@[simp] theorem updBerth_careen (s : State) (b : Nat) (f : Berth → Berth) : (updBerth s b f).careen = s.careen := rfl
@[simp] theorem updBerth_sensors (s : State) (b : Nat) (f : Berth → Berth) : (updBerth s b f).sensors = s.sensors := rfl
@[simp] theorem updBerth_tide (s : State) (b : Nat) (f : Berth → Berth) : (updBerth s b f).tide = s.tide := rfl
@[simp] theorem updBerth_pstate (s : State) (b : Nat) (f : Berth → Berth) : (updBerth s b f).pstate = s.pstate := rfl
@[simp] theorem updBerth_engines (s : State) (b : Nat) (f : Berth → Berth) : (updBerth s b f).engines = s.engines := rfl
@[simp] theorem updBerth_cipher (s : State) (b : Nat) (f : Berth → Berth) : (updBerth s b f).cipher = s.cipher := rfl
@[simp] theorem updBerth_log (s : State) (b : Nat) (f : Berth → Berth) : (updBerth s b f).log = s.log := rfl
@[simp] theorem updBerth_update (s : State) (b : Nat) (f : Berth → Berth) : (updBerth s b f).update = s.update := rfl
@[simp] theorem updBerth_harbour (s : State) (b : Nat) (f : Berth → Berth) : (updBerth s b f).harbour = s.harbour := rfl
@[simp] theorem updBerth_sideband (s : State) (b : Nat) (f : Berth → Berth) : (updBerth s b f).sideband = s.sideband := rfl
@[simp] theorem updBerth_lines (s : State) (b : Nat) (f : Berth → Berth) : (updBerth s b f).lines = s.lines := rfl
@[simp] theorem updBerth_pathErrors (s : State) (b : Nat) (f : Berth → Berth) : (updBerth s b f).pathErrors = s.pathErrors := rfl
@[simp] theorem updBerth_out (s : State) (b : Nat) (f : Berth → Berth) : (updBerth s b f).out = s.out := rfl
@[simp] theorem updBerth_draws (s : State) (b : Nat) (f : Berth → Berth) : (updBerth s b f).draws = s.draws := rfl
@[simp] theorem updBerth_freeN (s : State) (b : Nat) (f : Berth → Berth) : (updBerth s b f).freeN = s.freeN := rfl

theorem OnlySent.completed {s t : State} (h : OnlySent s t) : OnlyCompleted s t := by
  obtain ⟨_, _, _, _, rfl⟩ := h; exact ⟨_, _, _, _, _, _, rfl⟩

theorem updBerth_frame (s : State) (b : Nat) (f : Berth → Berth) : OnlyCompleted s (updBerth s b f) := ⟨_, _, _, _, _, _, rfl⟩

theorem updMooring_frame (s : State) (m : Nat) (f : Mooring → Mooring) : OnlyCompleted s (updMooring s m f) :=
  ⟨_, _, _, _, _, _, rfl⟩

theorem writeCompletion_frame (s : State) (n : Nat) (b : Berth) (c : Completion) : OnlyCompleted s (writeCompletion s n b c) := by
  unfold writeCompletion; dsimp only; split
  · exact ⟨_, _, _, _, _, _, rfl⟩
  · exact OnlyCompleted.trans ⟨_, _, _, _, _, _, rfl⟩ (sendCapsule_frame _ _ _ _ _).completed

@[simp] theorem writeCompletion_pending (s : State) (n : Nat) (b : Berth) (c : Completion) : (writeCompletion s n b c).pending = s.pending := (writeCompletion_frame s n b c).pending
@[simp] theorem writeCompletion_boardUs (s : State) (n : Nat) (b : Berth) (c : Completion) : (writeCompletion s n b c).boardUs = s.boardUs := (writeCompletion_frame s n b c).boardUs
@[simp] theorem writeCompletion_sessionUs (s : State) (n : Nat) (b : Berth) (c : Completion) : (writeCompletion s n b c).sessionUs = s.sessionUs := (writeCompletion_frame s n b c).sessionUs
@[simp] theorem writeCompletion_poweredUs (s : State) (n : Nat) (b : Berth) (c : Completion) : (writeCompletion s n b c).poweredUs = s.poweredUs := (writeCompletion_frame s n b c).poweredUs
@[simp] theorem writeCompletion_persistedAt (s : State) (n : Nat) (b : Berth) (c : Completion) : (writeCompletion s n b c).persistedAt = s.persistedAt := (writeCompletion_frame s n b c).persistedAt
@[simp] theorem writeCompletion_phase (s : State) (n : Nat) (b : Berth) (c : Completion) : (writeCompletion s n b c).phase = s.phase := (writeCompletion_frame s n b c).phase
@[simp] theorem writeCompletion_power (s : State) (n : Nat) (b : Berth) (c : Completion) : (writeCompletion s n b c).power = s.power := (writeCompletion_frame s n b c).power
@[simp] theorem writeCompletion_boot (s : State) (n : Nat) (b : Berth) (c : Completion) : (writeCompletion s n b c).boot = s.boot := (writeCompletion_frame s n b c).boot
@[simp] theorem writeCompletion_shadows (s : State) (n : Nat) (b : Berth) (c : Completion) : (writeCompletion s n b c).shadows = s.shadows := (writeCompletion_frame s n b c).shadows
@[simp] theorem writeCompletion_latches (s : State) (n : Nat) (b : Berth) (c : Completion) : (writeCompletion s n b c).latches = s.latches := (writeCompletion_frame s n b c).latches
@[simp] theorem writeCompletion_mode (s : State) (n : Nat) (b : Berth) (c : Completion) : (writeCompletion s n b c).mode = s.mode := (writeCompletion_frame s n b c).mode
@[simp] theorem writeCompletion_linkA (s : State) (n : Nat) (b : Berth) (c : Completion) : (writeCompletion s n b c).linkA = s.linkA := (writeCompletion_frame s n b c).linkA
@[simp] theorem writeCompletion_linkB (s : State) (n : Nat) (b : Berth) (c : Completion) : (writeCompletion s n b c).linkB = s.linkB := (writeCompletion_frame s n b c).linkB
@[simp] theorem writeCompletion_handshakes (s : State) (n : Nat) (b : Berth) (c : Completion) : (writeCompletion s n b c).handshakes = s.handshakes := (writeCompletion_frame s n b c).handshakes
@[simp] theorem writeCompletion_answered (s : State) (n : Nat) (b : Berth) (c : Completion) : (writeCompletion s n b c).answered = s.answered := (writeCompletion_frame s n b c).answered
@[simp] theorem writeCompletion_seqr (s : State) (n : Nat) (b : Berth) (c : Completion) : (writeCompletion s n b c).seqr = s.seqr := (writeCompletion_frame s n b c).seqr
@[simp] theorem writeCompletion_seals (s : State) (n : Nat) (b : Berth) (c : Completion) : (writeCompletion s n b c).seals = s.seals := (writeCompletion_frame s n b c).seals
@[simp] theorem writeCompletion_cmds (s : State) (n : Nat) (b : Berth) (c : Completion) : (writeCompletion s n b c).cmds = s.cmds := (writeCompletion_frame s n b c).cmds
@[simp] theorem writeCompletion_flash (s : State) (n : Nat) (b : Berth) (c : Completion) : (writeCompletion s n b c).flash = s.flash := (writeCompletion_frame s n b c).flash
@[simp] theorem writeCompletion_space (s : State) (n : Nat) (b : Berth) (c : Completion) : (writeCompletion s n b c).space = s.space := (writeCompletion_frame s n b c).space
@[simp] theorem writeCompletion_index (s : State) (n : Nat) (b : Berth) (c : Completion) : (writeCompletion s n b c).index = s.index := (writeCompletion_frame s n b c).index
@[simp] theorem writeCompletion_dies (s : State) (n : Nat) (b : Berth) (c : Completion) : (writeCompletion s n b c).dies = s.dies := (writeCompletion_frame s n b c).dies
@[simp] theorem writeCompletion_careen (s : State) (n : Nat) (b : Berth) (c : Completion) : (writeCompletion s n b c).careen = s.careen := (writeCompletion_frame s n b c).careen
@[simp] theorem writeCompletion_sensors (s : State) (n : Nat) (b : Berth) (c : Completion) : (writeCompletion s n b c).sensors = s.sensors := (writeCompletion_frame s n b c).sensors
@[simp] theorem writeCompletion_tide (s : State) (n : Nat) (b : Berth) (c : Completion) : (writeCompletion s n b c).tide = s.tide := (writeCompletion_frame s n b c).tide
@[simp] theorem writeCompletion_pstate (s : State) (n : Nat) (b : Berth) (c : Completion) : (writeCompletion s n b c).pstate = s.pstate := (writeCompletion_frame s n b c).pstate
@[simp] theorem writeCompletion_engines (s : State) (n : Nat) (b : Berth) (c : Completion) : (writeCompletion s n b c).engines = s.engines := (writeCompletion_frame s n b c).engines
@[simp] theorem writeCompletion_cipher (s : State) (n : Nat) (b : Berth) (c : Completion) : (writeCompletion s n b c).cipher = s.cipher := (writeCompletion_frame s n b c).cipher
@[simp] theorem writeCompletion_log (s : State) (n : Nat) (b : Berth) (c : Completion) : (writeCompletion s n b c).log = s.log := (writeCompletion_frame s n b c).log
@[simp] theorem writeCompletion_update (s : State) (n : Nat) (b : Berth) (c : Completion) : (writeCompletion s n b c).update = s.update := (writeCompletion_frame s n b c).update
@[simp] theorem writeCompletion_sideband (s : State) (n : Nat) (b : Berth) (c : Completion) : (writeCompletion s n b c).sideband = s.sideband := (writeCompletion_frame s n b c).sideband
@[simp] theorem writeCompletion_lines (s : State) (n : Nat) (b : Berth) (c : Completion) : (writeCompletion s n b c).lines = s.lines := (writeCompletion_frame s n b c).lines
@[simp] theorem writeCompletion_pathErrors (s : State) (n : Nat) (b : Berth) (c : Completion) : (writeCompletion s n b c).pathErrors = s.pathErrors := (writeCompletion_frame s n b c).pathErrors
@[simp] theorem writeCompletion_draws (s : State) (n : Nat) (b : Berth) (c : Completion) : (writeCompletion s n b c).draws = s.draws := (writeCompletion_frame s n b c).draws
@[simp] theorem writeCompletion_freeN (s : State) (n : Nat) (b : Berth) (c : Completion) : (writeCompletion s n b c).freeN = s.freeN := (writeCompletion_frame s n b c).freeN

theorem complete_frame (s : State) (n : Nat) (c : Completion) : OnlyCompleted s (complete s n c) := by
  unfold complete; (repeat' split) <;> first
    | exact OnlyCompleted.refl s
    | exact updBerth_frame _ _ _
    | exact OnlyCompleted.trans (updBerth_frame _ _ _) (updMooring_frame _ _ _)
    | exact writeCompletion_frame _ _ _ _

@[simp] theorem complete_pending (s : State) (n : Nat) (c : Completion) : (complete s n c).pending = s.pending := (complete_frame s n c).pending
@[simp] theorem complete_boardUs (s : State) (n : Nat) (c : Completion) : (complete s n c).boardUs = s.boardUs := (complete_frame s n c).boardUs
@[simp] theorem complete_sessionUs (s : State) (n : Nat) (c : Completion) : (complete s n c).sessionUs = s.sessionUs := (complete_frame s n c).sessionUs
@[simp] theorem complete_poweredUs (s : State) (n : Nat) (c : Completion) : (complete s n c).poweredUs = s.poweredUs := (complete_frame s n c).poweredUs
@[simp] theorem complete_persistedAt (s : State) (n : Nat) (c : Completion) : (complete s n c).persistedAt = s.persistedAt := (complete_frame s n c).persistedAt
@[simp] theorem complete_phase (s : State) (n : Nat) (c : Completion) : (complete s n c).phase = s.phase := (complete_frame s n c).phase
@[simp] theorem complete_power (s : State) (n : Nat) (c : Completion) : (complete s n c).power = s.power := (complete_frame s n c).power
@[simp] theorem complete_boot (s : State) (n : Nat) (c : Completion) : (complete s n c).boot = s.boot := (complete_frame s n c).boot
@[simp] theorem complete_shadows (s : State) (n : Nat) (c : Completion) : (complete s n c).shadows = s.shadows := (complete_frame s n c).shadows
@[simp] theorem complete_latches (s : State) (n : Nat) (c : Completion) : (complete s n c).latches = s.latches := (complete_frame s n c).latches
@[simp] theorem complete_mode (s : State) (n : Nat) (c : Completion) : (complete s n c).mode = s.mode := (complete_frame s n c).mode
@[simp] theorem complete_linkA (s : State) (n : Nat) (c : Completion) : (complete s n c).linkA = s.linkA := (complete_frame s n c).linkA
@[simp] theorem complete_linkB (s : State) (n : Nat) (c : Completion) : (complete s n c).linkB = s.linkB := (complete_frame s n c).linkB
@[simp] theorem complete_handshakes (s : State) (n : Nat) (c : Completion) : (complete s n c).handshakes = s.handshakes := (complete_frame s n c).handshakes
@[simp] theorem complete_answered (s : State) (n : Nat) (c : Completion) : (complete s n c).answered = s.answered := (complete_frame s n c).answered
@[simp] theorem complete_seqr (s : State) (n : Nat) (c : Completion) : (complete s n c).seqr = s.seqr := (complete_frame s n c).seqr
@[simp] theorem complete_seals (s : State) (n : Nat) (c : Completion) : (complete s n c).seals = s.seals := (complete_frame s n c).seals
@[simp] theorem complete_cmds (s : State) (n : Nat) (c : Completion) : (complete s n c).cmds = s.cmds := (complete_frame s n c).cmds
@[simp] theorem complete_flash (s : State) (n : Nat) (c : Completion) : (complete s n c).flash = s.flash := (complete_frame s n c).flash
@[simp] theorem complete_space (s : State) (n : Nat) (c : Completion) : (complete s n c).space = s.space := (complete_frame s n c).space
@[simp] theorem complete_index (s : State) (n : Nat) (c : Completion) : (complete s n c).index = s.index := (complete_frame s n c).index
@[simp] theorem complete_dies (s : State) (n : Nat) (c : Completion) : (complete s n c).dies = s.dies := (complete_frame s n c).dies
@[simp] theorem complete_careen (s : State) (n : Nat) (c : Completion) : (complete s n c).careen = s.careen := (complete_frame s n c).careen
@[simp] theorem complete_sensors (s : State) (n : Nat) (c : Completion) : (complete s n c).sensors = s.sensors := (complete_frame s n c).sensors
@[simp] theorem complete_tide (s : State) (n : Nat) (c : Completion) : (complete s n c).tide = s.tide := (complete_frame s n c).tide
@[simp] theorem complete_pstate (s : State) (n : Nat) (c : Completion) : (complete s n c).pstate = s.pstate := (complete_frame s n c).pstate
@[simp] theorem complete_engines (s : State) (n : Nat) (c : Completion) : (complete s n c).engines = s.engines := (complete_frame s n c).engines
@[simp] theorem complete_cipher (s : State) (n : Nat) (c : Completion) : (complete s n c).cipher = s.cipher := (complete_frame s n c).cipher
@[simp] theorem complete_log (s : State) (n : Nat) (c : Completion) : (complete s n c).log = s.log := (complete_frame s n c).log
@[simp] theorem complete_update (s : State) (n : Nat) (c : Completion) : (complete s n c).update = s.update := (complete_frame s n c).update
@[simp] theorem complete_sideband (s : State) (n : Nat) (c : Completion) : (complete s n c).sideband = s.sideband := (complete_frame s n c).sideband
@[simp] theorem complete_lines (s : State) (n : Nat) (c : Completion) : (complete s n c).lines = s.lines := (complete_frame s n c).lines
@[simp] theorem complete_pathErrors (s : State) (n : Nat) (c : Completion) : (complete s n c).pathErrors = s.pathErrors := (complete_frame s n c).pathErrors
@[simp] theorem complete_draws (s : State) (n : Nat) (c : Completion) : (complete s n c).draws = s.draws := (complete_frame s n c).draws
@[simp] theorem complete_freeN (s : State) (n : Nat) (c : Completion) : (complete s n c).freeN = s.freeN := (complete_frame s n c).freeN

/-! ### What follows every command -/

theorem raise_settled (s : State) (page b : Nat) : OnlySettled s (raise s page b) := by
  obtain ⟨_, h⟩ := raise_frame s page b; rw [h]; exact ⟨_, _, _, _, rfl⟩

theorem reviewSpace_frame (s : State) : OnlySettled s (reviewSpace s) := by
  unfold reviewSpace; generalize spaceNext s = n; dsimp only; split
  · exact OnlySettled.refl s
  · split
    · exact (OnlySettled.trans ⟨_, _, _, _, rfl⟩ (raise_settled _ _ _)).trans (raise_settled _ _ _)
    · exact OnlySettled.trans ⟨_, _, _, _, rfl⟩ (raise_settled _ _ _)

@[simp] theorem reviewSpace_pending (s : State) : (reviewSpace s).pending = s.pending := (reviewSpace_frame s).pending
@[simp] theorem reviewSpace_boardUs (s : State) : (reviewSpace s).boardUs = s.boardUs := (reviewSpace_frame s).boardUs
@[simp] theorem reviewSpace_sessionUs (s : State) : (reviewSpace s).sessionUs = s.sessionUs := (reviewSpace_frame s).sessionUs
@[simp] theorem reviewSpace_poweredUs (s : State) : (reviewSpace s).poweredUs = s.poweredUs := (reviewSpace_frame s).poweredUs
@[simp] theorem reviewSpace_persistedAt (s : State) : (reviewSpace s).persistedAt = s.persistedAt := (reviewSpace_frame s).persistedAt
@[simp] theorem reviewSpace_phase (s : State) : (reviewSpace s).phase = s.phase := (reviewSpace_frame s).phase
@[simp] theorem reviewSpace_power (s : State) : (reviewSpace s).power = s.power := (reviewSpace_frame s).power
@[simp] theorem reviewSpace_boot (s : State) : (reviewSpace s).boot = s.boot := (reviewSpace_frame s).boot
@[simp] theorem reviewSpace_shadows (s : State) : (reviewSpace s).shadows = s.shadows := (reviewSpace_frame s).shadows
@[simp] theorem reviewSpace_latches (s : State) : (reviewSpace s).latches = s.latches := (reviewSpace_frame s).latches
@[simp] theorem reviewSpace_mode (s : State) : (reviewSpace s).mode = s.mode := (reviewSpace_frame s).mode
@[simp] theorem reviewSpace_linkA (s : State) : (reviewSpace s).linkA = s.linkA := (reviewSpace_frame s).linkA
@[simp] theorem reviewSpace_linkB (s : State) : (reviewSpace s).linkB = s.linkB := (reviewSpace_frame s).linkB
@[simp] theorem reviewSpace_handshakes (s : State) : (reviewSpace s).handshakes = s.handshakes := (reviewSpace_frame s).handshakes
@[simp] theorem reviewSpace_answered (s : State) : (reviewSpace s).answered = s.answered := (reviewSpace_frame s).answered
@[simp] theorem reviewSpace_moorings (s : State) : (reviewSpace s).moorings = s.moorings := (reviewSpace_frame s).moorings
@[simp] theorem reviewSpace_berths (s : State) : (reviewSpace s).berths = s.berths := (reviewSpace_frame s).berths
@[simp] theorem reviewSpace_withheld (s : State) : (reviewSpace s).withheld = s.withheld := (reviewSpace_frame s).withheld
@[simp] theorem reviewSpace_seqr (s : State) : (reviewSpace s).seqr = s.seqr := (reviewSpace_frame s).seqr
@[simp] theorem reviewSpace_seals (s : State) : (reviewSpace s).seals = s.seals := (reviewSpace_frame s).seals
@[simp] theorem reviewSpace_cmds (s : State) : (reviewSpace s).cmds = s.cmds := (reviewSpace_frame s).cmds
@[simp] theorem reviewSpace_flash (s : State) : (reviewSpace s).flash = s.flash := (reviewSpace_frame s).flash
@[simp] theorem reviewSpace_index (s : State) : (reviewSpace s).index = s.index := (reviewSpace_frame s).index
@[simp] theorem reviewSpace_dies (s : State) : (reviewSpace s).dies = s.dies := (reviewSpace_frame s).dies
@[simp] theorem reviewSpace_careen (s : State) : (reviewSpace s).careen = s.careen := (reviewSpace_frame s).careen
@[simp] theorem reviewSpace_sensors (s : State) : (reviewSpace s).sensors = s.sensors := (reviewSpace_frame s).sensors
@[simp] theorem reviewSpace_tide (s : State) : (reviewSpace s).tide = s.tide := (reviewSpace_frame s).tide
@[simp] theorem reviewSpace_engines (s : State) : (reviewSpace s).engines = s.engines := (reviewSpace_frame s).engines
@[simp] theorem reviewSpace_cipher (s : State) : (reviewSpace s).cipher = s.cipher := (reviewSpace_frame s).cipher
@[simp] theorem reviewSpace_log (s : State) : (reviewSpace s).log = s.log := (reviewSpace_frame s).log
@[simp] theorem reviewSpace_update (s : State) : (reviewSpace s).update = s.update := (reviewSpace_frame s).update
@[simp] theorem reviewSpace_harbour (s : State) : (reviewSpace s).harbour = s.harbour := (reviewSpace_frame s).harbour
@[simp] theorem reviewSpace_sideband (s : State) : (reviewSpace s).sideband = s.sideband := (reviewSpace_frame s).sideband
@[simp] theorem reviewSpace_pathErrors (s : State) : (reviewSpace s).pathErrors = s.pathErrors := (reviewSpace_frame s).pathErrors
@[simp] theorem reviewSpace_out (s : State) : (reviewSpace s).out = s.out := (reviewSpace_frame s).out
@[simp] theorem reviewSpace_draws (s : State) : (reviewSpace s).draws = s.draws := (reviewSpace_frame s).draws
@[simp] theorem reviewSpace_freeN (s : State) : (reviewSpace s).freeN = s.freeN := (reviewSpace_frame s).freeN

theorem reviewIdle_frame (s : State) : OnlySettled s (reviewIdle s) := by
  exact ⟨_, _, _, _, rfl⟩

@[simp] theorem reviewIdle_pending (s : State) : (reviewIdle s).pending = s.pending := (reviewIdle_frame s).pending
@[simp] theorem reviewIdle_boardUs (s : State) : (reviewIdle s).boardUs = s.boardUs := (reviewIdle_frame s).boardUs
@[simp] theorem reviewIdle_sessionUs (s : State) : (reviewIdle s).sessionUs = s.sessionUs := (reviewIdle_frame s).sessionUs
@[simp] theorem reviewIdle_poweredUs (s : State) : (reviewIdle s).poweredUs = s.poweredUs := (reviewIdle_frame s).poweredUs
@[simp] theorem reviewIdle_persistedAt (s : State) : (reviewIdle s).persistedAt = s.persistedAt := (reviewIdle_frame s).persistedAt
@[simp] theorem reviewIdle_phase (s : State) : (reviewIdle s).phase = s.phase := (reviewIdle_frame s).phase
@[simp] theorem reviewIdle_power (s : State) : (reviewIdle s).power = s.power := (reviewIdle_frame s).power
@[simp] theorem reviewIdle_boot (s : State) : (reviewIdle s).boot = s.boot := (reviewIdle_frame s).boot
@[simp] theorem reviewIdle_shadows (s : State) : (reviewIdle s).shadows = s.shadows := (reviewIdle_frame s).shadows
@[simp] theorem reviewIdle_latches (s : State) : (reviewIdle s).latches = s.latches := (reviewIdle_frame s).latches
@[simp] theorem reviewIdle_mode (s : State) : (reviewIdle s).mode = s.mode := (reviewIdle_frame s).mode
@[simp] theorem reviewIdle_linkA (s : State) : (reviewIdle s).linkA = s.linkA := (reviewIdle_frame s).linkA
@[simp] theorem reviewIdle_linkB (s : State) : (reviewIdle s).linkB = s.linkB := (reviewIdle_frame s).linkB
@[simp] theorem reviewIdle_handshakes (s : State) : (reviewIdle s).handshakes = s.handshakes := (reviewIdle_frame s).handshakes
@[simp] theorem reviewIdle_answered (s : State) : (reviewIdle s).answered = s.answered := (reviewIdle_frame s).answered
@[simp] theorem reviewIdle_moorings (s : State) : (reviewIdle s).moorings = s.moorings := (reviewIdle_frame s).moorings
@[simp] theorem reviewIdle_berths (s : State) : (reviewIdle s).berths = s.berths := (reviewIdle_frame s).berths
@[simp] theorem reviewIdle_withheld (s : State) : (reviewIdle s).withheld = s.withheld := (reviewIdle_frame s).withheld
@[simp] theorem reviewIdle_seqr (s : State) : (reviewIdle s).seqr = s.seqr := (reviewIdle_frame s).seqr
@[simp] theorem reviewIdle_seals (s : State) : (reviewIdle s).seals = s.seals := (reviewIdle_frame s).seals
@[simp] theorem reviewIdle_cmds (s : State) : (reviewIdle s).cmds = s.cmds := (reviewIdle_frame s).cmds
@[simp] theorem reviewIdle_flash (s : State) : (reviewIdle s).flash = s.flash := (reviewIdle_frame s).flash
@[simp] theorem reviewIdle_index (s : State) : (reviewIdle s).index = s.index := (reviewIdle_frame s).index
@[simp] theorem reviewIdle_dies (s : State) : (reviewIdle s).dies = s.dies := (reviewIdle_frame s).dies
@[simp] theorem reviewIdle_careen (s : State) : (reviewIdle s).careen = s.careen := (reviewIdle_frame s).careen
@[simp] theorem reviewIdle_sensors (s : State) : (reviewIdle s).sensors = s.sensors := (reviewIdle_frame s).sensors
@[simp] theorem reviewIdle_tide (s : State) : (reviewIdle s).tide = s.tide := (reviewIdle_frame s).tide
@[simp] theorem reviewIdle_engines (s : State) : (reviewIdle s).engines = s.engines := (reviewIdle_frame s).engines
@[simp] theorem reviewIdle_cipher (s : State) : (reviewIdle s).cipher = s.cipher := (reviewIdle_frame s).cipher
@[simp] theorem reviewIdle_log (s : State) : (reviewIdle s).log = s.log := (reviewIdle_frame s).log
@[simp] theorem reviewIdle_update (s : State) : (reviewIdle s).update = s.update := (reviewIdle_frame s).update
@[simp] theorem reviewIdle_harbour (s : State) : (reviewIdle s).harbour = s.harbour := (reviewIdle_frame s).harbour
@[simp] theorem reviewIdle_sideband (s : State) : (reviewIdle s).sideband = s.sideband := (reviewIdle_frame s).sideband
@[simp] theorem reviewIdle_pathErrors (s : State) : (reviewIdle s).pathErrors = s.pathErrors := (reviewIdle_frame s).pathErrors
@[simp] theorem reviewIdle_out (s : State) : (reviewIdle s).out = s.out := (reviewIdle_frame s).out
@[simp] theorem reviewIdle_draws (s : State) : (reviewIdle s).draws = s.draws := (reviewIdle_frame s).draws
@[simp] theorem reviewIdle_freeN (s : State) : (reviewIdle s).freeN = s.freeN := (reviewIdle_frame s).freeN

theorem refreshLines_frame (s : State) : OnlySettled s (refreshLines s) := by
  exact ⟨_, _, _, _, rfl⟩

@[simp] theorem refreshLines_pending (s : State) : (refreshLines s).pending = s.pending := (refreshLines_frame s).pending
@[simp] theorem refreshLines_boardUs (s : State) : (refreshLines s).boardUs = s.boardUs := (refreshLines_frame s).boardUs
@[simp] theorem refreshLines_sessionUs (s : State) : (refreshLines s).sessionUs = s.sessionUs := (refreshLines_frame s).sessionUs
@[simp] theorem refreshLines_poweredUs (s : State) : (refreshLines s).poweredUs = s.poweredUs := (refreshLines_frame s).poweredUs
@[simp] theorem refreshLines_persistedAt (s : State) : (refreshLines s).persistedAt = s.persistedAt := (refreshLines_frame s).persistedAt
@[simp] theorem refreshLines_phase (s : State) : (refreshLines s).phase = s.phase := (refreshLines_frame s).phase
@[simp] theorem refreshLines_power (s : State) : (refreshLines s).power = s.power := (refreshLines_frame s).power
@[simp] theorem refreshLines_boot (s : State) : (refreshLines s).boot = s.boot := (refreshLines_frame s).boot
@[simp] theorem refreshLines_shadows (s : State) : (refreshLines s).shadows = s.shadows := (refreshLines_frame s).shadows
@[simp] theorem refreshLines_latches (s : State) : (refreshLines s).latches = s.latches := (refreshLines_frame s).latches
@[simp] theorem refreshLines_mode (s : State) : (refreshLines s).mode = s.mode := (refreshLines_frame s).mode
@[simp] theorem refreshLines_linkA (s : State) : (refreshLines s).linkA = s.linkA := (refreshLines_frame s).linkA
@[simp] theorem refreshLines_linkB (s : State) : (refreshLines s).linkB = s.linkB := (refreshLines_frame s).linkB
@[simp] theorem refreshLines_handshakes (s : State) : (refreshLines s).handshakes = s.handshakes := (refreshLines_frame s).handshakes
@[simp] theorem refreshLines_answered (s : State) : (refreshLines s).answered = s.answered := (refreshLines_frame s).answered
@[simp] theorem refreshLines_moorings (s : State) : (refreshLines s).moorings = s.moorings := (refreshLines_frame s).moorings
@[simp] theorem refreshLines_berths (s : State) : (refreshLines s).berths = s.berths := (refreshLines_frame s).berths
@[simp] theorem refreshLines_withheld (s : State) : (refreshLines s).withheld = s.withheld := (refreshLines_frame s).withheld
@[simp] theorem refreshLines_seqr (s : State) : (refreshLines s).seqr = s.seqr := (refreshLines_frame s).seqr
@[simp] theorem refreshLines_seals (s : State) : (refreshLines s).seals = s.seals := (refreshLines_frame s).seals
@[simp] theorem refreshLines_cmds (s : State) : (refreshLines s).cmds = s.cmds := (refreshLines_frame s).cmds
@[simp] theorem refreshLines_flash (s : State) : (refreshLines s).flash = s.flash := (refreshLines_frame s).flash
@[simp] theorem refreshLines_index (s : State) : (refreshLines s).index = s.index := (refreshLines_frame s).index
@[simp] theorem refreshLines_dies (s : State) : (refreshLines s).dies = s.dies := (refreshLines_frame s).dies
@[simp] theorem refreshLines_careen (s : State) : (refreshLines s).careen = s.careen := (refreshLines_frame s).careen
@[simp] theorem refreshLines_sensors (s : State) : (refreshLines s).sensors = s.sensors := (refreshLines_frame s).sensors
@[simp] theorem refreshLines_tide (s : State) : (refreshLines s).tide = s.tide := (refreshLines_frame s).tide
@[simp] theorem refreshLines_engines (s : State) : (refreshLines s).engines = s.engines := (refreshLines_frame s).engines
@[simp] theorem refreshLines_cipher (s : State) : (refreshLines s).cipher = s.cipher := (refreshLines_frame s).cipher
@[simp] theorem refreshLines_log (s : State) : (refreshLines s).log = s.log := (refreshLines_frame s).log
@[simp] theorem refreshLines_update (s : State) : (refreshLines s).update = s.update := (refreshLines_frame s).update
@[simp] theorem refreshLines_harbour (s : State) : (refreshLines s).harbour = s.harbour := (refreshLines_frame s).harbour
@[simp] theorem refreshLines_sideband (s : State) : (refreshLines s).sideband = s.sideband := (refreshLines_frame s).sideband
@[simp] theorem refreshLines_pathErrors (s : State) : (refreshLines s).pathErrors = s.pathErrors := (refreshLines_frame s).pathErrors
@[simp] theorem refreshLines_out (s : State) : (refreshLines s).out = s.out := (refreshLines_frame s).out
@[simp] theorem refreshLines_draws (s : State) : (refreshLines s).draws = s.draws := (refreshLines_frame s).draws
@[simp] theorem refreshLines_freeN (s : State) : (refreshLines s).freeN = s.freeN := (refreshLines_frame s).freeN

theorem settle_frame (s : State) : OnlySettled s (settle s) := by
  exact ((reviewSpace_frame s).trans (reviewIdle_frame _)).trans (refreshLines_frame _)

@[simp] theorem settle_pending (s : State) : (settle s).pending = s.pending := (settle_frame s).pending
@[simp] theorem settle_boardUs (s : State) : (settle s).boardUs = s.boardUs := (settle_frame s).boardUs
@[simp] theorem settle_sessionUs (s : State) : (settle s).sessionUs = s.sessionUs := (settle_frame s).sessionUs
@[simp] theorem settle_poweredUs (s : State) : (settle s).poweredUs = s.poweredUs := (settle_frame s).poweredUs
@[simp] theorem settle_persistedAt (s : State) : (settle s).persistedAt = s.persistedAt := (settle_frame s).persistedAt
@[simp] theorem settle_phase (s : State) : (settle s).phase = s.phase := (settle_frame s).phase
@[simp] theorem settle_power (s : State) : (settle s).power = s.power := (settle_frame s).power
@[simp] theorem settle_boot (s : State) : (settle s).boot = s.boot := (settle_frame s).boot
@[simp] theorem settle_shadows (s : State) : (settle s).shadows = s.shadows := (settle_frame s).shadows
@[simp] theorem settle_latches (s : State) : (settle s).latches = s.latches := (settle_frame s).latches
@[simp] theorem settle_mode (s : State) : (settle s).mode = s.mode := (settle_frame s).mode
@[simp] theorem settle_linkA (s : State) : (settle s).linkA = s.linkA := (settle_frame s).linkA
@[simp] theorem settle_linkB (s : State) : (settle s).linkB = s.linkB := (settle_frame s).linkB
@[simp] theorem settle_handshakes (s : State) : (settle s).handshakes = s.handshakes := (settle_frame s).handshakes
@[simp] theorem settle_answered (s : State) : (settle s).answered = s.answered := (settle_frame s).answered
@[simp] theorem settle_moorings (s : State) : (settle s).moorings = s.moorings := (settle_frame s).moorings
@[simp] theorem settle_berths (s : State) : (settle s).berths = s.berths := (settle_frame s).berths
@[simp] theorem settle_withheld (s : State) : (settle s).withheld = s.withheld := (settle_frame s).withheld
@[simp] theorem settle_seqr (s : State) : (settle s).seqr = s.seqr := (settle_frame s).seqr
@[simp] theorem settle_seals (s : State) : (settle s).seals = s.seals := (settle_frame s).seals
@[simp] theorem settle_cmds (s : State) : (settle s).cmds = s.cmds := (settle_frame s).cmds
@[simp] theorem settle_flash (s : State) : (settle s).flash = s.flash := (settle_frame s).flash
@[simp] theorem settle_index (s : State) : (settle s).index = s.index := (settle_frame s).index
@[simp] theorem settle_dies (s : State) : (settle s).dies = s.dies := (settle_frame s).dies
@[simp] theorem settle_careen (s : State) : (settle s).careen = s.careen := (settle_frame s).careen
@[simp] theorem settle_sensors (s : State) : (settle s).sensors = s.sensors := (settle_frame s).sensors
@[simp] theorem settle_tide (s : State) : (settle s).tide = s.tide := (settle_frame s).tide
@[simp] theorem settle_engines (s : State) : (settle s).engines = s.engines := (settle_frame s).engines
@[simp] theorem settle_cipher (s : State) : (settle s).cipher = s.cipher := (settle_frame s).cipher
@[simp] theorem settle_log (s : State) : (settle s).log = s.log := (settle_frame s).log
@[simp] theorem settle_update (s : State) : (settle s).update = s.update := (settle_frame s).update
@[simp] theorem settle_harbour (s : State) : (settle s).harbour = s.harbour := (settle_frame s).harbour
@[simp] theorem settle_sideband (s : State) : (settle s).sideband = s.sideband := (settle_frame s).sideband
@[simp] theorem settle_pathErrors (s : State) : (settle s).pathErrors = s.pathErrors := (settle_frame s).pathErrors
@[simp] theorem settle_out (s : State) : (settle s).out = s.out := (settle_frame s).out
@[simp] theorem settle_draws (s : State) : (settle s).draws = s.draws := (settle_frame s).draws
@[simp] theorem settle_freeN (s : State) : (settle s).freeN = s.freeN := (settle_frame s).freeN

end Sys2Proof.Machine
end

