-- ==== Sys2Proof/Laws/Tables.lean ====
section
/-! SUPPORT. Laws of the sparse tables and of the register file: what reads back after a store, that other places stand, and
that stores keep the rising order of keys. -/

namespace Sys2Proof.Machine

/-! ### Tables -/

@[simp] theorem tabGet_nil {α : Type} (k : Nat) : tabGet ([] : Tab α) k = none := rfl

@[simp] theorem tabGet_tabPut {α : Type} (t : Tab α) (k j : Nat) (v : α) :
    tabGet (tabPut t k v) j = if k = j then some v else tabGet t j := by
  induction t with
  | nil => simp [tabPut, tabGet]
  | cons p r ih =>
    obtain ⟨a, w⟩ := p
    unfold tabPut
    by_cases h1 : k < a
    · simp [h1, tabGet]
    · by_cases h2 : k = a
      · subst h2; by_cases hj : k = j <;> simp [tabGet, hj]
      · simp only [h1, h2, if_false, tabGet, ih]
        by_cases hj : a = j
        · simp [hj]; intro e; exact absurd (e.trans hj.symm) h2
        · simp [hj]

/-- A table whose entries are changed in place, each by its key and value. -/
@[simp] theorem tabGet_map {α β : Type} (t : Tab α) (f : Nat → α → β) (k : Nat) :
    tabGet (t.map (fun p => (p.1, f p.1 p.2))) k = (tabGet t k).map (f k) := by
  induction t with
  | nil => rfl
  | cons p t ih =>
    obtain ⟨a, v⟩ := p
    by_cases h : a = k
    · subst h; simp [tabGet]
    · simp [tabGet, h, ih]

@[simp] theorem tabGet_tabErase {α : Type} (t : Tab α) (k j : Nat) :
    tabGet (tabErase t k) j = if k = j then none else tabGet t j := by
  induction t with
  | nil => simp [tabErase, tabGet]
  | cons p r ih =>
    obtain ⟨a, w⟩ := p
    simp only [tabErase] at ih
    by_cases ha : a = k
    · subst ha; simp [tabErase, ih, tabGet]
      by_cases hj : a = j <;> simp [hj]
    · have hb : (a != k) = true := by simp [ha]
      simp only [tabErase, List.filter_cons, hb, if_true, tabGet, ih]
      by_cases hj : a = j
      · subst hj; simp [Ne.symm ha]
      · simp [hj]

@[simp] theorem tabGet_tabUpd {α : Type} (t : Tab α) (k j : Nat) (f : α → α) :
    tabGet (tabUpd t k f) j = if k = j then (tabGet t j).map f else tabGet t j := by
  induction t with
  | nil => simp [tabUpd, tabGet]
  | cons p r ih =>
    obtain ⟨a, w⟩ := p
    simp only [tabUpd] at ih
    by_cases ha : a = k
    · subst ha; simp only [tabUpd, List.map_cons, if_true, tabGet, ih]
      by_cases hj : a = j <;> simp [hj]
    · simp only [tabUpd, List.map_cons, ha, if_false, tabGet, ih]
      by_cases hj : a = j
      · subst hj; simp [Ne.symm ha]
      · simp [hj]

@[simp] theorem tabPut_tabPut {α : Type} (t : Tab α) (k : Nat) (v w : α) : tabPut (tabPut t k v) k w = tabPut t k w := by
  induction t with
  | nil => simp [tabPut]
  | cons p r ih =>
    obtain ⟨a, u⟩ := p
    by_cases h1 : k < a
    · simp [tabPut, h1]
    · by_cases h2 : k = a
      · subst h2; simp [tabPut]
      · simp [tabPut, h1, h2, ih]

theorem tabPut_keys_lt {α : Type} (t : Tab α) (k b : Nat) (v : α) (hb : b < k) (h : ∀ p ∈ t, b < p.1) :
    ∀ p ∈ tabPut t k v, b < p.1 := by
  induction t with
  | nil => simpa [tabPut] using hb
  | cons q r ih =>
    obtain ⟨a, w⟩ := q
    unfold tabPut
    have hr : ∀ p ∈ r, b < p.1 := fun p hp => h p (List.mem_cons_of_mem _ hp)
    have ha : b < a := h (a, w) (by simp)
    split
    · intro p hp; simp at hp; rcases hp with rfl | rfl | hp <;> [exact hb; exact ha; exact hr p hp]
    · split
      · intro p hp; simp at hp; rcases hp with rfl | hp <;> [exact hb; exact hr p hp]
      · intro p hp; simp at hp; rcases hp with rfl | hp <;> [exact ha; exact ih hr p hp]

/-- A store keeps keys in rising order. -/
theorem tabPut_sorted {α : Type} (t : Tab α) (k : Nat) (v : α) (h : t.Pairwise (fun p q => p.1 < q.1)) :
    (tabPut t k v).Pairwise (fun p q => p.1 < q.1) := by
  induction t with
  | nil => simp [tabPut]
  | cons q r ih =>
    obtain ⟨a, w⟩ := q
    rw [List.pairwise_cons] at h
    unfold tabPut
    split
    next hk =>
      refine List.pairwise_cons.2 ⟨?_, List.pairwise_cons.2 h⟩
      intro p hp; simp at hp; rcases hp with rfl | hp
      · exact hk
      · exact lt_trans hk (h.1 p hp)
    next hk =>
      split
      next he => subst he; exact List.pairwise_cons.2 h
      next hne =>
        exact List.pairwise_cons.2 ⟨tabPut_keys_lt r k a v (by omega) h.1, ih h.2⟩

theorem tabPut_mem {α : Type} (t : Tab α) (k : Nat) (v : α) (p : Nat × α) (h : p ∈ tabPut t k v) : p = (k, v) ∨ p ∈ t := by
  induction t with
  | nil => simp [tabPut] at h; exact .inl h
  | cons q r ih =>
    obtain ⟨a, w⟩ := q
    unfold tabPut at h
    split at h
    · simp at h; rcases h with h | h | h <;> simp [h]
    · split at h
      · simp at h; rcases h with h | h <;> simp [h]
      · simp at h; rcases h with h | h
        · simp [h]
        · rcases ih h with h | h <;> simp [h]

/-! ### The register file -/

theorem regGet_regSet (s : State) (k j : Nat) (w : Word) : regGet (regSet s k w) j = if k = j then w else regGet s j := by
  unfold regGet regSet tabGetD
  by_cases h : w = regDefault k
  · simp only [h, if_true, tabGet_tabErase]
    by_cases hj : k = j
    · subst hj; simp
    · simp [hj]
  · simp only [h, if_false, tabGet_tabPut]
    by_cases hj : k = j <;> simp [hj]

@[simp] theorem regGet_regSet_same (s : State) (k : Nat) (w : Word) : regGet (regSet s k w) k = w := by
  simp [regGet_regSet]

theorem regGet_regSet_ne (s : State) (k j : Nat) (w : Word) (h : k ≠ j) : regGet (regSet s k w) j = regGet s j := by
  simp [regGet_regSet, h]

theorem regGet_bump_ne (s : State) (k j : Nat) (h : k ≠ j) : regGet (bump s k) j = regGet s j :=
  regGet_regSet_ne _ _ _ _ h

theorem regGet_bumpBy_ne (s : State) (k j n : Nat) (h : k ≠ j) : regGet (bumpBy s k n) j = regGet s j :=
  regGet_regSet_ne _ _ _ _ h

/-- An event changes only its page's status and count. -/
theorem regGet_raise_ne (s : State) (page b j : Nat) (h1 : page * 0x1000 + 0x14 ≠ j) (h2 : page * 0x1000 + 0x1C ≠ j) :
    regGet (raise s page b) j = regGet s j := by
  unfold raise
  rw [regGet_bump_ne _ _ _ h2, regGet_regSet_ne _ _ _ _ h1]

/-- The register file is read through `regs` alone. -/
theorem regGet_congr (s t : State) (h : s.regs = t.regs) (k : Nat) : regGet s k = regGet t k := by
  unfold regGet; rw [h]

/-! ### Bits and fields of words -/

/-- A word with bit `b` set beside its own. -/
theorem bit_or_pow (w : Word) (a b : Nat) (h : b < 32) : bit (w ||| word (2 ^ b)) a = (bit w a || decide (a = b)) := by
  have : (word (2 ^ b)).getLsbD a = decide (a = b) := by
    unfold word; rw [BitVec.getLsbD_ofNat, Nat.testBit_two_pow]
    by_cases hab : a = b
    · subst hab; simp [h]
    · have : b ≠ a := fun h => hab h.symm
      simp [hab, this]
  unfold bit; rw [BitVec.getLsbD_or, this]

/-- The bits of a word with a field replaced. -/
theorem testBit_insertBits (w : Word) (hi lo v i : Nat) (hh : hi < 32) (hl : lo ≤ hi) (hi32 : i < 32) :
    (insertBits w hi lo v).toNat.testBit i = if lo ≤ i ∧ i ≤ hi then v.testBit (i - lo) else w.toNat.testBit i := by
  have hm : (2 ^ (hi - lo + 1) - 1) <<< lo < 2 ^ 32 := by
    have h1 : 2 ^ (hi - lo + 1) * 2 ^ lo ≤ 2 ^ 32 := by
      rw [← Nat.pow_add]; exact Nat.pow_le_pow_right (by omega) (by omega)
    have h2 : 0 < 2 ^ lo := Nat.two_pow_pos lo
    rw [Nat.shiftLeft_eq, Nat.sub_mul]; omega
  have hn : (2 ^ 32 - 1 - (2 ^ (hi - lo + 1) - 1) <<< lo) = 2 ^ 32 - ((2 ^ (hi - lo + 1) - 1) <<< lo + 1) := by omega
  unfold insertBits
  simp only [word, BitVec.toNat_ofNat, hn]
  rw [Nat.testBit_mod_two_pow, Nat.testBit_or, Nat.testBit_and, Nat.testBit_and, Nat.testBit_two_pow_sub_succ hm,
    Nat.testBit_shiftLeft, Nat.testBit_shiftLeft, Nat.testBit_two_pow_sub_one]
  by_cases h1 : lo ≤ i <;> by_cases h2 : i ≤ hi
  · have : i - lo < hi - lo + 1 := by omega
    simp [hi32, h1, h2, this]
  · have : ¬ i - lo < hi - lo + 1 := by omega
    simp [hi32, h1, h2, this]
  · simp [hi32, h1, h2]
  · simp [hi32, h1, h2]

/-- A bit outside the field replaced. -/
theorem bit_insertBits (w : Word) (hi lo v i : Nat) (hh : hi < 32) (hl : lo ≤ hi) (hi32 : i < 32) (h : hi < i ∨ i < lo) :
    bit (insertBits w hi lo v) i = bit w i := by
  have := testBit_insertBits w hi lo v i hh hl hi32
  rw [if_neg (by omega)] at this; exact this

/-- The field replaced reads back. -/
theorem bits_insertBits (w : Word) (hi lo v : Nat) (hh : hi < 32) (hl : lo ≤ hi) (hv : v < 2 ^ (hi - lo + 1)) :
    bits (insertBits w hi lo v) hi lo = v := by
  apply Nat.eq_of_testBit_eq; intro i
  unfold bits natBits
  rw [Nat.testBit_mod_two_pow, Nat.testBit_shiftRight]
  by_cases hi' : i < hi - lo + 1
  · rw [testBit_insertBits w hi lo v (lo + i) hh hl (by omega), if_pos (by omega)]; simp [hi']
  · have : v.testBit i = false := Nat.testBit_lt_two_pow (Nat.lt_of_lt_of_le hv (Nat.pow_le_pow_right (by omega) (by omega)))
    simp [hi', this]

/-! ### Bytes -/

theorem leBytes_len (k : Nat) : ∀ n, (leBytes n k).length = k := by
  induction k with
  | zero => intro n; rfl
  | succ k ih => intro n; simp [leBytes, ih]

theorem leNat_leBytes (k : Nat) : ∀ n, leNat (leBytes n k) = n % 256 ^ k := by
  induction k with
  | zero => intro n; simp [leBytes, leNat]; omega
  | succ k ih =>
    intro n
    have : leNat (leBytes n (k + 1)) = (BitVec.ofNat 8 n).toNat + 256 * leNat (leBytes (n / 256) k) := rfl
    rw [this, ih, BitVec.toNat_ofNat, show (256 : Nat) ^ (k + 1) = 256 * 256 ^ k by rw [Nat.pow_succ, Nat.mul_comm], Nat.mod_mul]

theorem fit_len (bs : List Byte) (k : Nat) : (fit bs k).length = k := by simp [fit, zeroBytes]; omega

/-- A field of bytes that are written least significant first reads as the number. -/
theorem leAt_append (a b : List Byte) (n k : Nat) : leAt (a ++ (leBytes n k ++ b)) a.length k = n % 256 ^ k := by
  unfold leAt
  rw [List.drop_left, List.take_append_of_le_length (by rw [leBytes_len]), List.take_of_length_le (by rw [leBytes_len]), leNat_leBytes]

theorem beBytes_len (n : Nat) : ∀ k, (beBytes n k).length = k := by
  intro k
  induction k with
  | zero => rfl
  | succ k ih => simp [beBytes, ih]

theorem beBytes_fold (n : Nat) : ∀ k a, (beBytes n k).foldl (fun a b => a * 256 + b.toNat) a = a * 256 ^ k + n % 256 ^ k := by
  intro k
  induction k with
  | zero => intro a; simp [beBytes, Nat.mod_one]
  | succ k ih =>
    intro a
    have h1 : n % 256 ^ (k + 1) = n % 256 ^ k + 256 ^ k * (n / 256 ^ k % 256) := Nat.mod_pow_succ
    have h2 : a * 256 ^ (k + 1) = a * 256 * 256 ^ k := by rw [Nat.pow_succ, Nat.mul_assoc, Nat.mul_comm 256]
    rw [beBytes, List.foldl_cons, ih, BitVec.toNat_ofNat, show (2 : Nat) ^ 8 = 256 from rfl, h1, h2, Nat.add_mul,
      Nat.mul_comm (n / 256 ^ k % 256)]
    omega

/-- A field of bytes that are written most significant first reads as the number. -/
theorem beAt_append (a b : List Byte) (n k : Nat) : beAt (a ++ (beBytes n k ++ b)) a.length k = n % 256 ^ k := by
  unfold beAt beNat
  rw [List.drop_left, List.take_append_of_le_length (by rw [beBytes_len]), List.take_of_length_le (by rw [beBytes_len]), beBytes_fold]
  simp

end Sys2Proof.Machine
end

