-- ==== Sys2Proof/Laws/Settle.lean ====
section
/-! SUPPORT. What follows every command, field by field: the space state, the idle timer and the output lines of a settled
state, and the registers it leaves alone. -/

namespace Sys2Proof.Machine

theorem conclude_eq (s : State) : conclude s = .next (settle s) := rfl

@[simp] theorem reviewSpace_space (s : State) : (reviewSpace s).space = { s.space with state := spaceNext s } := by
  unfold reviewSpace
  generalize hn : spaceNext s = n
  dsimp only
  split
  next h => rw [← h]
  next h => split <;> simp

@[simp] theorem settle_space (s : State) : (settle s).space = { s.space with state := spaceNext s } := by
  show (reviewSpace s).space = _
  exact reviewSpace_space s

theorem settle_pstate (s : State) : (settle s).pstate =
    { s.pstate with idleSince := if idle (reviewSpace s) then some (s.pstate.idleSince.getD s.sessionUs) else none } := by
  have hp : (reviewSpace s).pstate = s.pstate := by
    unfold reviewSpace; generalize spaceNext s = n; dsimp only; split <;> [rfl; (split <;> simp)]
  unfold settle refreshLines reviewIdle
  simp [hp]

/-- The timer runs exactly while the drive is idle. -/
theorem settle_idle (s : State) : (settle s).pstate.idleSince.isSome = idle (settle s) := by
  rw [settle_pstate]
  have : idle (settle s) = idle (reviewSpace s) := rfl
  rw [this]; cases idle (reviewSpace s) <;> rfl

/-- The lines are those that the settled state gives. -/
theorem settle_lines (s : State) : (settle s).lines = linesOf (settle s) := rfl

theorem regGet_reviewSpace (s : State) (k : Nat) (h1 : k ≠ 0x8014) (h2 : k ≠ 0x801C) :
    regGet (reviewSpace s) k = regGet s k := by
  unfold reviewSpace
  generalize spaceNext s = n
  dsimp only
  split
  · rfl
  · split
    · rw [regGet_raise_ne _ _ _ _ (by omega) (by omega), regGet_raise_ne _ _ _ _ (by omega) (by omega)]; rfl
    · rw [regGet_raise_ne _ _ _ _ (by omega) (by omega)]; rfl

/-- A settled state differs in no register but the events of DR. -/
theorem regGet_settle (s : State) (k : Nat) (h1 : k ≠ 0x8014) (h2 : k ≠ 0x801C) : regGet (settle s) k = regGet s k :=
  regGet_reviewSpace s k h1 h2

end Sys2Proof.Machine
end

