-- ==== Sys2Proof/Laws/Capsules.lean ====
section
/-! SUPPORT. Capsules: what the state in which an admitted capsule runs keeps, and what a capsule command answers once the
checks of R126 are known. -/

namespace Sys2Proof.Machine

/-! ### The state in which a capsule runs -/

theorem popRequest_frame (s : State) : ∃ q b, popRequest s = { s with seqr := q, berths := b } := by
  unfold popRequest; split
  · exact ⟨_, _, rfl⟩
  · dsimp only; split <;> exact ⟨_, _, rfl⟩

theorem popRequest_next (s : State) : (popRequest s).seqr.next = s.seqr.next := by
  have h : ∀ q : Sequencer, (formSlot q).next = q.next := by
    intro q; unfold formSlot; split <;> rfl
  unfold popRequest; split
  · rfl
  · dsimp only; split <;> exact h _

/-! ### What the searches of a request may change -/

/-- `t` is `s` but for the index dies, counters, records of the logbook and the fault counts in flash. -/
def OnlySearched (s t : State) : Prop :=
  ∃ r ix lg f, t = { s with regs := r, index := ix, log := lg, flash := { s.flash with faults := f } }

theorem OnlySearched.refl (s : State) : OnlySearched s s := ⟨_, _, _, _, rfl⟩

theorem OnlySearched.trans {s t u : State} (h : OnlySearched s t) (k : OnlySearched t u) : OnlySearched s u := by
  obtain ⟨_, _, _, _, rfl⟩ := h; obtain ⟨_, _, _, _, rfl⟩ := k; exact ⟨_, _, _, _, rfl⟩

theorem OnlyRegs.searched {s t : State} (h : OnlyRegs s t) : OnlySearched s t := by
  obtain ⟨_, rfl⟩ := h; exact ⟨_, _, _, _, rfl⟩

theorem OnlyLog.searched {s t : State} (h : OnlyLog s t) : OnlySearched s t := by
  obtain ⟨_, _, rfl⟩ := h; exact ⟨_, _, _, _, rfl⟩

theorem index_searched (s : State) (x : Index) : OnlySearched s { s with index := x } := ⟨_, _, _, _, rfl⟩

theorem setFaultCount_searched (s : State) (row inst : Nat) (c : FaultCount) : OnlySearched s (setFaultCount s row inst c) := by
  unfold setFaultCount; split <;> exact ⟨_, _, _, _, rfl⟩

theorem faultOccur_searched (s : State) (row inst d : Nat) : OnlySearched s (faultOccur s row inst d).1 := by
  unfold faultOccur; dsimp only; split
  · exact OnlySearched.trans (setFaultCount_searched _ _ _ _) (OnlyLog.searched (logRecord_frame _ _ _ _ _ _))
  · split
    · exact OnlySearched.trans (OnlySearched.trans (setFaultCount_searched _ _ _ _)
        (OnlyLog.searched (logRecord_frame _ _ _ _ _ _))) (OnlyRegs.searched (raise_frame _ _ _))
    · exact OnlySearched.trans (setFaultCount_searched _ _ _ _) (OnlyLog.searched (logRecord_frame _ _ _ _ _ _))

theorem pairLoses_searched (s : State) (b cls : Nat) : OnlySearched s (pairLoses s b cls) := by
  unfold pairLoses; split
  · exact OnlySearched.trans (OnlySearched.trans (OnlySearched.trans (index_searched _ _) (index_searched _ _)) (index_searched _ _))
      (OnlyRegs.searched (raise_frame _ _ _))
  · exact OnlySearched.trans (index_searched _ _) (OnlyRegs.searched (raise_frame _ _ _))

theorem bankOut_searched (s : State) (b : Nat) : OnlySearched s (bankOut s b) := by
  have h1 : ∀ (u : State) (c : Prop) [Decidable c] (x : Index), OnlySearched u (if c then { u with index := x } else u) := by
    intro u c _ x; split
    · exact index_searched u x
    · exact OnlySearched.refl u
  have h2 : ∀ (u : State) (o : Option Nat), OnlySearched u (match o with
      | some g => setBankClass u g 4
      | none => u) := by
    intro u o; split
    · exact index_searched u _
    · exact OnlySearched.refl u
  have h3 : ∀ u : State, OnlySearched u (raise (setBankClass (dropHot u b) b 0) 7 0) := fun u =>
    ((index_searched u _).trans (index_searched _ _)).trans (raise_frame _ _ _).searched
  unfold bankOut; dsimp only; split
  · exact OnlySearched.refl s
  · split
    · exact (((h1 _ _ _).trans (h2 _ _)).trans (h3 _)).trans (pairLoses_searched _ _ _)
    · exact ((h1 _ _ _).trans (h2 _ _)).trans (h3 _)

theorem bankFault_searched (s : State) (b : Nat) : OnlySearched s (bankFault s b) := by
  unfold bankFault; dsimp only; split
  · exact (faultOccur_searched _ _ _ _).trans (bankOut_searched _ _)
  · exact faultOccur_searched _ _ _ _

theorem softError_searched (s : State) (addr counter : Nat) : OnlySearched s (softError s addr counter) :=
  ((index_searched s _).trans (bump_frame _ _).searched).trans (bankFault_searched _ _)

theorem ruleSearch_searched (quay subject : Nat) (pfx : List Byte) (fuel : Nat) (s : State) (start : Option (Nat × Nat)) :
    OnlySearched s (ruleSearch quay subject pfx fuel s start) := by
  induction fuel generalizing s start with
  | zero => exact OnlySearched.refl s
  | succ k ih =>
    unfold ruleSearch; dsimp only; (repeat' split) <;> first
      | exact OnlySearched.refl s
      | exact (softError_searched _ _ _).trans (ih _ _)
      | exact (bump_frame _ _).searched.trans (ih _ _)

theorem foldl_searched {α : Type} (f : State → α → State) (h : ∀ s x, OnlySearched s (f s x)) (l : List α) (s : State) :
    OnlySearched s (l.foldl f s) := by
  induction l generalizing s with
  | nil => exact OnlySearched.refl s
  | cons x l ih => exact (h s x).trans (ih _)

theorem ruleSearches_searched (s : State) (quay subject : Nat) (key : List Byte) :
    OnlySearched s (ruleSearches s quay subject key) := by
  unfold ruleSearches; exact foldl_searched _ (fun s _ => ruleSearch_searched _ _ _ _ _ _) _ s

theorem frontSearches_searched (s : State) : OnlySearched s (frontSearches s) := by
  unfold frontSearches; dsimp only; (repeat' split) <;> first
    | exact OnlySearched.refl s
    | exact foldl_searched _ (fun s _ => ruleSearches_searched _ _ _ _) _ s

/-! ### What placing and removing rules may change (R182, R211, R213, R220) -/

theorem dropCells_searched (s : State) (k : Nat) (os : List Nat) : OnlySearched s (dropCells s k os) := by
  unfold dropCells; split
  · exact index_searched _ _
  · exact OnlySearched.refl s

theorem migrateMember_searched (k : Nat) (s : State) (b : Nat) : OnlySearched s (migrateMember k s b) := by
  unfold migrateMember; dsimp only; split
  · exact (raise_frame _ _ _).searched.trans (index_searched _ _)
  · exact index_searched _ _

theorem compactPair_searched (s : State) (k : Nat) : OnlySearched s (compactPair s k) := by
  have h : ∀ u : State, OnlySearched s u → OnlySearched s (let mine := pairRules u k
      { u with index := { u.index with
        ruleEntries := u.index.ruleEntries.filter (fun e => !(mine.map RuleEntry.rule).contains e.rule) ++
          (List.range mine.length).filterMap (fun k => (mine[k]?).map (fun e => { e with offset := k })),
        appendAt := tabPut u.index.appendAt k mine.length } }) := fun u hu => hu.trans (index_searched _ _)
  unfold compactPair; dsimp only
  refine h _ ?_
  split
  · exact foldl_searched _ (migrateMember_searched k) _ s
  · exact OnlySearched.refl s

theorem enterRule_searched (s : State) (r : Rule) (e : Nat) : OnlySearched s (enterRule s r e) := by
  have h : ∀ u : State, OnlySearched s u → ∀ (x : Index) k os, OnlySearched s (dropCells { u with index := x } k os) :=
    fun u hu x k os => (hu.trans (index_searched _ _)).trans (dropCells_searched _ _ _)
  unfold enterRule; dsimp only
  refine h _ ?_ _ _ _
  split
  · exact compactPair_searched _ _
  · exact OnlySearched.refl s

theorem placeRule_searched (s : State) (r : Rule) : OnlySearched s (placeRule s r) := enterRule_searched _ _ _

theorem rebuildRules_searched (s : State) : OnlySearched s (rebuildRules s) := by
  unfold rebuildRules; exact (index_searched s _).trans (foldl_searched _ placeRule_searched _ _)

theorem removeRules_searched (s : State) (ids : List Nat) : OnlySearched s (removeRules s ids) := by
  have h : ∀ u : State, OnlySearched s u → ∀ x : Index, OnlySearched s { u with index := x } :=
    fun u hu x => hu.trans (index_searched _ _)
  unfold removeRules; dsimp only
  exact h _ (foldl_searched _ (fun _ _ => dropCells_searched _ _ _) _ s) _

/-! ### The request that is taken -/

/-- Beside the sequencer and the rings, only what the rule searches may change does. -/
theorem takeRequest_frame (s : State) : ∃ q b r ix lg f, takeRequest s =
    { s with seqr := q, berths := b, regs := r, index := ix, log := lg, flash := { s.flash with faults := f } } := by
  obtain ⟨r, ix, lg, f, h⟩ := frontSearches_searched s
  obtain ⟨q, b, h'⟩ := popRequest_frame (frontSearches s)
  unfold takeRequest; rw [h', h]; exact ⟨q, b, r, ix, lg, f, rfl⟩

theorem takeRequest_next (s : State) : (takeRequest s).seqr.next = s.seqr.next := by
  unfold takeRequest; rw [popRequest_next]
  obtain ⟨_, _, _, _, h⟩ := frontSearches_searched s; rw [h]

/-- A capsule that makes no rule search changes nothing but the sequencer and its ring. -/
theorem takeRequest_plain (s : State) (r : Request) (h : nextRequest s = some r)
    (hs : searchesRules (parseCapsule r.bytes) = false) : takeRequest s = popRequest s := by
  have : frontSearches s = s := by
    unfold frontSearches; rw [h]; dsimp only; split
    · rfl
    · rw [if_neg]; rw [hs]; rintro ⟨-, h, -⟩; cases h
  unfold takeRequest; rw [this]

theorem admittedState_frame (s : State) (n : Nat) (c : Capsule) (k : Bool) :
    ∃ q b r ix lg f, admittedState s n c k =
      { s with seqr := q, berths := b, regs := r, index := ix, log := lg, flash := { s.flash with faults := f },
               boot := { s.boot with lastAdmitted := some s.sessionUs } } := by
  obtain ⟨q, b, r, ix, lg, f, h⟩ := takeRequest_frame s
  unfold admittedState; rw [h]; exact ⟨_, _, _, _, _, _, rfl⟩

/-- The CSN that the capsule takes. -/
@[simp] theorem admitTag_csn (s : State) (n tag : Nat) (k : Bool) : (admitTag s n tag k).1 = s.seqr.next := rfl

@[simp] theorem takeRequest_pending (s : State) : (takeRequest s).pending = s.pending := by
  obtain ⟨_, _, _, _, _, _, h⟩ := takeRequest_frame s; rw [h]
@[simp] theorem takeRequest_boardUs (s : State) : (takeRequest s).boardUs = s.boardUs := by
  obtain ⟨_, _, _, _, _, _, h⟩ := takeRequest_frame s; rw [h]
@[simp] theorem takeRequest_sessionUs (s : State) : (takeRequest s).sessionUs = s.sessionUs := by
  obtain ⟨_, _, _, _, _, _, h⟩ := takeRequest_frame s; rw [h]
@[simp] theorem takeRequest_poweredUs (s : State) : (takeRequest s).poweredUs = s.poweredUs := by
  obtain ⟨_, _, _, _, _, _, h⟩ := takeRequest_frame s; rw [h]
@[simp] theorem takeRequest_persistedAt (s : State) : (takeRequest s).persistedAt = s.persistedAt := by
  obtain ⟨_, _, _, _, _, _, h⟩ := takeRequest_frame s; rw [h]
@[simp] theorem takeRequest_phase (s : State) : (takeRequest s).phase = s.phase := by
  obtain ⟨_, _, _, _, _, _, h⟩ := takeRequest_frame s; rw [h]
@[simp] theorem takeRequest_power (s : State) : (takeRequest s).power = s.power := by
  obtain ⟨_, _, _, _, _, _, h⟩ := takeRequest_frame s; rw [h]
@[simp] theorem takeRequest_shadows (s : State) : (takeRequest s).shadows = s.shadows := by
  obtain ⟨_, _, _, _, _, _, h⟩ := takeRequest_frame s; rw [h]
@[simp] theorem takeRequest_latches (s : State) : (takeRequest s).latches = s.latches := by
  obtain ⟨_, _, _, _, _, _, h⟩ := takeRequest_frame s; rw [h]
@[simp] theorem takeRequest_mode (s : State) : (takeRequest s).mode = s.mode := by
  obtain ⟨_, _, _, _, _, _, h⟩ := takeRequest_frame s; rw [h]
@[simp] theorem takeRequest_linkA (s : State) : (takeRequest s).linkA = s.linkA := by
  obtain ⟨_, _, _, _, _, _, h⟩ := takeRequest_frame s; rw [h]
@[simp] theorem takeRequest_linkB (s : State) : (takeRequest s).linkB = s.linkB := by
  obtain ⟨_, _, _, _, _, _, h⟩ := takeRequest_frame s; rw [h]
@[simp] theorem takeRequest_handshakes (s : State) : (takeRequest s).handshakes = s.handshakes := by
  obtain ⟨_, _, _, _, _, _, h⟩ := takeRequest_frame s; rw [h]
@[simp] theorem takeRequest_answered (s : State) : (takeRequest s).answered = s.answered := by
  obtain ⟨_, _, _, _, _, _, h⟩ := takeRequest_frame s; rw [h]
@[simp] theorem takeRequest_moorings (s : State) : (takeRequest s).moorings = s.moorings := by
  obtain ⟨_, _, _, _, _, _, h⟩ := takeRequest_frame s; rw [h]
@[simp] theorem takeRequest_withheld (s : State) : (takeRequest s).withheld = s.withheld := by
  obtain ⟨_, _, _, _, _, _, h⟩ := takeRequest_frame s; rw [h]
@[simp] theorem takeRequest_seals (s : State) : (takeRequest s).seals = s.seals := by
  obtain ⟨_, _, _, _, _, _, h⟩ := takeRequest_frame s; rw [h]
@[simp] theorem takeRequest_cmds (s : State) : (takeRequest s).cmds = s.cmds := by
  obtain ⟨_, _, _, _, _, _, h⟩ := takeRequest_frame s; rw [h]
@[simp] theorem takeRequest_space (s : State) : (takeRequest s).space = s.space := by
  obtain ⟨_, _, _, _, _, _, h⟩ := takeRequest_frame s; rw [h]
@[simp] theorem takeRequest_dies (s : State) : (takeRequest s).dies = s.dies := by
  obtain ⟨_, _, _, _, _, _, h⟩ := takeRequest_frame s; rw [h]
@[simp] theorem takeRequest_careen (s : State) : (takeRequest s).careen = s.careen := by
  obtain ⟨_, _, _, _, _, _, h⟩ := takeRequest_frame s; rw [h]
@[simp] theorem takeRequest_sensors (s : State) : (takeRequest s).sensors = s.sensors := by
  obtain ⟨_, _, _, _, _, _, h⟩ := takeRequest_frame s; rw [h]
@[simp] theorem takeRequest_tide (s : State) : (takeRequest s).tide = s.tide := by
  obtain ⟨_, _, _, _, _, _, h⟩ := takeRequest_frame s; rw [h]
@[simp] theorem takeRequest_pstate (s : State) : (takeRequest s).pstate = s.pstate := by
  obtain ⟨_, _, _, _, _, _, h⟩ := takeRequest_frame s; rw [h]
@[simp] theorem takeRequest_engines (s : State) : (takeRequest s).engines = s.engines := by
  obtain ⟨_, _, _, _, _, _, h⟩ := takeRequest_frame s; rw [h]
@[simp] theorem takeRequest_cipher (s : State) : (takeRequest s).cipher = s.cipher := by
  obtain ⟨_, _, _, _, _, _, h⟩ := takeRequest_frame s; rw [h]
@[simp] theorem takeRequest_update (s : State) : (takeRequest s).update = s.update := by
  obtain ⟨_, _, _, _, _, _, h⟩ := takeRequest_frame s; rw [h]
@[simp] theorem takeRequest_harbour (s : State) : (takeRequest s).harbour = s.harbour := by
  obtain ⟨_, _, _, _, _, _, h⟩ := takeRequest_frame s; rw [h]
@[simp] theorem takeRequest_sideband (s : State) : (takeRequest s).sideband = s.sideband := by
  obtain ⟨_, _, _, _, _, _, h⟩ := takeRequest_frame s; rw [h]
@[simp] theorem takeRequest_lines (s : State) : (takeRequest s).lines = s.lines := by
  obtain ⟨_, _, _, _, _, _, h⟩ := takeRequest_frame s; rw [h]
@[simp] theorem takeRequest_pathErrors (s : State) : (takeRequest s).pathErrors = s.pathErrors := by
  obtain ⟨_, _, _, _, _, _, h⟩ := takeRequest_frame s; rw [h]
@[simp] theorem takeRequest_out (s : State) : (takeRequest s).out = s.out := by
  obtain ⟨_, _, _, _, _, _, h⟩ := takeRequest_frame s; rw [h]
@[simp] theorem takeRequest_draws (s : State) : (takeRequest s).draws = s.draws := by
  obtain ⟨_, _, _, _, _, _, h⟩ := takeRequest_frame s; rw [h]
@[simp] theorem takeRequest_freeN (s : State) : (takeRequest s).freeN = s.freeN := by
  obtain ⟨_, _, _, _, _, _, h⟩ := takeRequest_frame s; rw [h]
@[simp] theorem takeRequest_boot (s : State) : (takeRequest s).boot = s.boot := by
  obtain ⟨_, _, _, _, _, _, h⟩ := takeRequest_frame s; rw [h]
@[simp] theorem takeRequest_flash_otp (s : State) : (takeRequest s).flash.otp = s.flash.otp := by
  obtain ⟨_, _, _, _, _, _, h⟩ := takeRequest_frame s; rw [h]
@[simp] theorem takeRequest_flash_items (s : State) : (takeRequest s).flash.items = s.flash.items := by
  obtain ⟨_, _, _, _, _, _, h⟩ := takeRequest_frame s; rw [h]
@[simp] theorem takeRequest_flash_voids (s : State) : (takeRequest s).flash.voids = s.flash.voids := by
  obtain ⟨_, _, _, _, _, _, h⟩ := takeRequest_frame s; rw [h]
@[simp] theorem takeRequest_flash_quays (s : State) : (takeRequest s).flash.quays = s.flash.quays := by
  obtain ⟨_, _, _, _, _, _, h⟩ := takeRequest_frame s; rw [h]
@[simp] theorem takeRequest_flash_rules (s : State) : (takeRequest s).flash.rules = s.flash.rules := by
  obtain ⟨_, _, _, _, _, _, h⟩ := takeRequest_frame s; rw [h]
@[simp] theorem takeRequest_flash_topRule (s : State) : (takeRequest s).flash.topRule = s.flash.topRule := by
  obtain ⟨_, _, _, _, _, _, h⟩ := takeRequest_frame s; rw [h]
@[simp] theorem takeRequest_flash_chunk (s : State) : (takeRequest s).flash.chunk = s.flash.chunk := by
  obtain ⟨_, _, _, _, _, _, h⟩ := takeRequest_frame s; rw [h]
@[simp] theorem takeRequest_flash_recChunk (s : State) : (takeRequest s).flash.recChunk = s.flash.recChunk := by
  obtain ⟨_, _, _, _, _, _, h⟩ := takeRequest_frame s; rw [h]
@[simp] theorem takeRequest_flash_saved (s : State) : (takeRequest s).flash.saved = s.flash.saved := by
  obtain ⟨_, _, _, _, _, _, h⟩ := takeRequest_frame s; rw [h]
@[simp] theorem takeRequest_flash_sets (s : State) : (takeRequest s).flash.sets = s.flash.sets := by
  obtain ⟨_, _, _, _, _, _, h⟩ := takeRequest_frame s; rw [h]
@[simp] theorem takeRequest_flash_pages (s : State) : (takeRequest s).flash.pages = s.flash.pages := by
  obtain ⟨_, _, _, _, _, _, h⟩ := takeRequest_frame s; rw [h]
@[simp] theorem takeRequest_flash_leaves (s : State) : (takeRequest s).flash.leaves = s.flash.leaves := by
  obtain ⟨_, _, _, _, _, _, h⟩ := takeRequest_frame s; rw [h]
@[simp] theorem takeRequest_flash_blocks (s : State) : (takeRequest s).flash.blocks = s.flash.blocks := by
  obtain ⟨_, _, _, _, _, _, h⟩ := takeRequest_frame s; rw [h]
@[simp] theorem takeRequest_flash_planes (s : State) : (takeRequest s).flash.planes = s.flash.planes := by
  obtain ⟨_, _, _, _, _, _, h⟩ := takeRequest_frame s; rw [h]
@[simp] theorem takeRequest_flash_freeBlocks (s : State) : (takeRequest s).flash.freeBlocks = s.flash.freeBlocks := by
  obtain ⟨_, _, _, _, _, _, h⟩ := takeRequest_frame s; rw [h]
@[simp] theorem takeRequest_flash_retired (s : State) : (takeRequest s).flash.retired = s.flash.retired := by
  obtain ⟨_, _, _, _, _, _, h⟩ := takeRequest_frame s; rw [h]
@[simp] theorem takeRequest_flash_lowWater (s : State) : (takeRequest s).flash.lowWater = s.flash.lowWater := by
  obtain ⟨_, _, _, _, _, _, h⟩ := takeRequest_frame s; rw [h]
@[simp] theorem takeRequest_flash_keyRecords (s : State) : (takeRequest s).flash.keyRecords = s.flash.keyRecords := by
  obtain ⟨_, _, _, _, _, _, h⟩ := takeRequest_frame s; rw [h]
@[simp] theorem takeRequest_flash_verifier (s : State) : (takeRequest s).flash.verifier = s.flash.verifier := by
  obtain ⟨_, _, _, _, _, _, h⟩ := takeRequest_frame s; rw [h]
@[simp] theorem takeRequest_flash_general (s : State) : (takeRequest s).flash.general = s.flash.general := by
  obtain ⟨_, _, _, _, _, _, h⟩ := takeRequest_frame s; rw [h]
@[simp] theorem takeRequest_flash_ledger (s : State) : (takeRequest s).flash.ledger = s.flash.ledger := by
  obtain ⟨_, _, _, _, _, _, h⟩ := takeRequest_frame s; rw [h]
@[simp] theorem takeRequest_flash_logRetired (s : State) : (takeRequest s).flash.logRetired = s.flash.logRetired := by
  obtain ⟨_, _, _, _, _, _, h⟩ := takeRequest_frame s; rw [h]
@[simp] theorem takeRequest_flash_config (s : State) : (takeRequest s).flash.config = s.flash.config := by
  obtain ⟨_, _, _, _, _, _, h⟩ := takeRequest_frame s; rw [h]
@[simp] theorem takeRequest_flash_driveCert (s : State) : (takeRequest s).flash.driveCert = s.flash.driveCert := by
  obtain ⟨_, _, _, _, _, _, h⟩ := takeRequest_frame s; rw [h]
@[simp] theorem takeRequest_flash_harbourCert (s : State) : (takeRequest s).flash.harbourCert = s.flash.harbourCert := by
  obtain ⟨_, _, _, _, _, _, h⟩ := takeRequest_frame s; rw [h]
@[simp] theorem takeRequest_flash_banks (s : State) : (takeRequest s).flash.banks = s.flash.banks := by
  obtain ⟨_, _, _, _, _, _, h⟩ := takeRequest_frame s; rw [h]
@[simp] theorem takeRequest_flash_update (s : State) : (takeRequest s).flash.update = s.flash.update := by
  obtain ⟨_, _, _, _, _, _, h⟩ := takeRequest_frame s; rw [h]
@[simp] theorem takeRequest_flash_deltas (s : State) : (takeRequest s).flash.deltas = s.flash.deltas := by
  obtain ⟨_, _, _, _, _, _, h⟩ := takeRequest_frame s; rw [h]
@[simp] theorem takeRequest_flash_partialSet (s : State) : (takeRequest s).flash.partialSet = s.flash.partialSet := by
  obtain ⟨_, _, _, _, _, _, h⟩ := takeRequest_frame s; rw [h]
@[simp] theorem takeRequest_flash_armedCohort (s : State) : (takeRequest s).flash.armedCohort = s.flash.armedCohort := by
  obtain ⟨_, _, _, _, _, _, h⟩ := takeRequest_frame s; rw [h]
@[simp] theorem takeRequest_flash_row0 (s : State) : (takeRequest s).flash.row0 = s.flash.row0 := by
  obtain ⟨_, _, _, _, _, _, h⟩ := takeRequest_frame s; rw [h]
@[simp] theorem takeRequest_flash_row512 (s : State) : (takeRequest s).flash.row512 = s.flash.row512 := by
  obtain ⟨_, _, _, _, _, _, h⟩ := takeRequest_frame s; rw [h]
@[simp] theorem takeRequest_flash_otpRoots (s : State) : (takeRequest s).flash.otpRoots = s.flash.otpRoots := by
  obtain ⟨_, _, _, _, _, _, h⟩ := takeRequest_frame s; rw [h]
@[simp] theorem takeRequest_flash_otpDebug (s : State) : (takeRequest s).flash.otpDebug = s.flash.otpDebug := by
  obtain ⟨_, _, _, _, _, _, h⟩ := takeRequest_frame s; rw [h]
@[simp] theorem takeRequest_flash_poweredS (s : State) : (takeRequest s).flash.poweredS = s.flash.poweredS := by
  obtain ⟨_, _, _, _, _, _, h⟩ := takeRequest_frame s; rw [h]
@[simp] theorem takeRequest_flash_failedDies (s : State) : (takeRequest s).flash.failedDies = s.flash.failedDies := by
  obtain ⟨_, _, _, _, _, _, h⟩ := takeRequest_frame s; rw [h]
@[simp] theorem takeRequest_flash_failedHeaters (s : State) : (takeRequest s).flash.failedHeaters = s.flash.failedHeaters := by
  obtain ⟨_, _, _, _, _, _, h⟩ := takeRequest_frame s; rw [h]
@[simp] theorem takeRequest_flash_patrolAt (s : State) : (takeRequest s).flash.patrolAt = s.flash.patrolAt := by
  obtain ⟨_, _, _, _, _, _, h⟩ := takeRequest_frame s; rw [h]
@[simp] theorem admittedState_pending (s : State) (n : Nat) (c : Capsule) (k : Bool) : (admittedState s n c k).pending = s.pending := by
  obtain ⟨_, _, _, _, _, _, h⟩ := admittedState_frame s n c k; rw [h]
@[simp] theorem admittedState_boardUs (s : State) (n : Nat) (c : Capsule) (k : Bool) : (admittedState s n c k).boardUs = s.boardUs := by
  obtain ⟨_, _, _, _, _, _, h⟩ := admittedState_frame s n c k; rw [h]
@[simp] theorem admittedState_sessionUs (s : State) (n : Nat) (c : Capsule) (k : Bool) : (admittedState s n c k).sessionUs = s.sessionUs := by
  obtain ⟨_, _, _, _, _, _, h⟩ := admittedState_frame s n c k; rw [h]
@[simp] theorem admittedState_poweredUs (s : State) (n : Nat) (c : Capsule) (k : Bool) : (admittedState s n c k).poweredUs = s.poweredUs := by
  obtain ⟨_, _, _, _, _, _, h⟩ := admittedState_frame s n c k; rw [h]
@[simp] theorem admittedState_persistedAt (s : State) (n : Nat) (c : Capsule) (k : Bool) : (admittedState s n c k).persistedAt = s.persistedAt := by
  obtain ⟨_, _, _, _, _, _, h⟩ := admittedState_frame s n c k; rw [h]
@[simp] theorem admittedState_phase (s : State) (n : Nat) (c : Capsule) (k : Bool) : (admittedState s n c k).phase = s.phase := by
  obtain ⟨_, _, _, _, _, _, h⟩ := admittedState_frame s n c k; rw [h]
@[simp] theorem admittedState_power (s : State) (n : Nat) (c : Capsule) (k : Bool) : (admittedState s n c k).power = s.power := by
  obtain ⟨_, _, _, _, _, _, h⟩ := admittedState_frame s n c k; rw [h]
@[simp] theorem admittedState_shadows (s : State) (n : Nat) (c : Capsule) (k : Bool) : (admittedState s n c k).shadows = s.shadows := by
  obtain ⟨_, _, _, _, _, _, h⟩ := admittedState_frame s n c k; rw [h]
@[simp] theorem admittedState_latches (s : State) (n : Nat) (c : Capsule) (k : Bool) : (admittedState s n c k).latches = s.latches := by
  obtain ⟨_, _, _, _, _, _, h⟩ := admittedState_frame s n c k; rw [h]
@[simp] theorem admittedState_mode (s : State) (n : Nat) (c : Capsule) (k : Bool) : (admittedState s n c k).mode = s.mode := by
  obtain ⟨_, _, _, _, _, _, h⟩ := admittedState_frame s n c k; rw [h]
@[simp] theorem admittedState_linkA (s : State) (n : Nat) (c : Capsule) (k : Bool) : (admittedState s n c k).linkA = s.linkA := by
  obtain ⟨_, _, _, _, _, _, h⟩ := admittedState_frame s n c k; rw [h]
@[simp] theorem admittedState_linkB (s : State) (n : Nat) (c : Capsule) (k : Bool) : (admittedState s n c k).linkB = s.linkB := by
  obtain ⟨_, _, _, _, _, _, h⟩ := admittedState_frame s n c k; rw [h]
@[simp] theorem admittedState_handshakes (s : State) (n : Nat) (c : Capsule) (k : Bool) : (admittedState s n c k).handshakes = s.handshakes := by
  obtain ⟨_, _, _, _, _, _, h⟩ := admittedState_frame s n c k; rw [h]
@[simp] theorem admittedState_answered (s : State) (n : Nat) (c : Capsule) (k : Bool) : (admittedState s n c k).answered = s.answered := by
  obtain ⟨_, _, _, _, _, _, h⟩ := admittedState_frame s n c k; rw [h]
@[simp] theorem admittedState_moorings (s : State) (n : Nat) (c : Capsule) (k : Bool) : (admittedState s n c k).moorings = s.moorings := by
  obtain ⟨_, _, _, _, _, _, h⟩ := admittedState_frame s n c k; rw [h]
@[simp] theorem admittedState_withheld (s : State) (n : Nat) (c : Capsule) (k : Bool) : (admittedState s n c k).withheld = s.withheld := by
  obtain ⟨_, _, _, _, _, _, h⟩ := admittedState_frame s n c k; rw [h]
@[simp] theorem admittedState_seals (s : State) (n : Nat) (c : Capsule) (k : Bool) : (admittedState s n c k).seals = s.seals := by
  obtain ⟨_, _, _, _, _, _, h⟩ := admittedState_frame s n c k; rw [h]
@[simp] theorem admittedState_cmds (s : State) (n : Nat) (c : Capsule) (k : Bool) : (admittedState s n c k).cmds = s.cmds := by
  obtain ⟨_, _, _, _, _, _, h⟩ := admittedState_frame s n c k; rw [h]
@[simp] theorem admittedState_space (s : State) (n : Nat) (c : Capsule) (k : Bool) : (admittedState s n c k).space = s.space := by
  obtain ⟨_, _, _, _, _, _, h⟩ := admittedState_frame s n c k; rw [h]
@[simp] theorem admittedState_dies (s : State) (n : Nat) (c : Capsule) (k : Bool) : (admittedState s n c k).dies = s.dies := by
  obtain ⟨_, _, _, _, _, _, h⟩ := admittedState_frame s n c k; rw [h]
@[simp] theorem admittedState_careen (s : State) (n : Nat) (c : Capsule) (k : Bool) : (admittedState s n c k).careen = s.careen := by
  obtain ⟨_, _, _, _, _, _, h⟩ := admittedState_frame s n c k; rw [h]
@[simp] theorem admittedState_sensors (s : State) (n : Nat) (c : Capsule) (k : Bool) : (admittedState s n c k).sensors = s.sensors := by
  obtain ⟨_, _, _, _, _, _, h⟩ := admittedState_frame s n c k; rw [h]
@[simp] theorem admittedState_tide (s : State) (n : Nat) (c : Capsule) (k : Bool) : (admittedState s n c k).tide = s.tide := by
  obtain ⟨_, _, _, _, _, _, h⟩ := admittedState_frame s n c k; rw [h]
@[simp] theorem admittedState_pstate (s : State) (n : Nat) (c : Capsule) (k : Bool) : (admittedState s n c k).pstate = s.pstate := by
  obtain ⟨_, _, _, _, _, _, h⟩ := admittedState_frame s n c k; rw [h]
@[simp] theorem admittedState_engines (s : State) (n : Nat) (c : Capsule) (k : Bool) : (admittedState s n c k).engines = s.engines := by
  obtain ⟨_, _, _, _, _, _, h⟩ := admittedState_frame s n c k; rw [h]
@[simp] theorem admittedState_cipher (s : State) (n : Nat) (c : Capsule) (k : Bool) : (admittedState s n c k).cipher = s.cipher := by
  obtain ⟨_, _, _, _, _, _, h⟩ := admittedState_frame s n c k; rw [h]
@[simp] theorem admittedState_update (s : State) (n : Nat) (c : Capsule) (k : Bool) : (admittedState s n c k).update = s.update := by
  obtain ⟨_, _, _, _, _, _, h⟩ := admittedState_frame s n c k; rw [h]
@[simp] theorem admittedState_harbour (s : State) (n : Nat) (c : Capsule) (k : Bool) : (admittedState s n c k).harbour = s.harbour := by
  obtain ⟨_, _, _, _, _, _, h⟩ := admittedState_frame s n c k; rw [h]
@[simp] theorem admittedState_sideband (s : State) (n : Nat) (c : Capsule) (k : Bool) : (admittedState s n c k).sideband = s.sideband := by
  obtain ⟨_, _, _, _, _, _, h⟩ := admittedState_frame s n c k; rw [h]
@[simp] theorem admittedState_lines (s : State) (n : Nat) (c : Capsule) (k : Bool) : (admittedState s n c k).lines = s.lines := by
  obtain ⟨_, _, _, _, _, _, h⟩ := admittedState_frame s n c k; rw [h]
@[simp] theorem admittedState_pathErrors (s : State) (n : Nat) (c : Capsule) (k : Bool) : (admittedState s n c k).pathErrors = s.pathErrors := by
  obtain ⟨_, _, _, _, _, _, h⟩ := admittedState_frame s n c k; rw [h]
@[simp] theorem admittedState_out (s : State) (n : Nat) (c : Capsule) (k : Bool) : (admittedState s n c k).out = s.out := by
  obtain ⟨_, _, _, _, _, _, h⟩ := admittedState_frame s n c k; rw [h]
@[simp] theorem admittedState_draws (s : State) (n : Nat) (c : Capsule) (k : Bool) : (admittedState s n c k).draws = s.draws := by
  obtain ⟨_, _, _, _, _, _, h⟩ := admittedState_frame s n c k; rw [h]
@[simp] theorem admittedState_freeN (s : State) (n : Nat) (c : Capsule) (k : Bool) : (admittedState s n c k).freeN = s.freeN := by
  obtain ⟨_, _, _, _, _, _, h⟩ := admittedState_frame s n c k; rw [h]
@[simp] theorem admittedState_flash_otp (s : State) (n : Nat) (c : Capsule) (k : Bool) :
    (admittedState s n c k).flash.otp = s.flash.otp := by
  obtain ⟨_, _, _, _, _, _, h⟩ := admittedState_frame s n c k; rw [h]
@[simp] theorem admittedState_flash_items (s : State) (n : Nat) (c : Capsule) (k : Bool) :
    (admittedState s n c k).flash.items = s.flash.items := by
  obtain ⟨_, _, _, _, _, _, h⟩ := admittedState_frame s n c k; rw [h]
@[simp] theorem admittedState_flash_voids (s : State) (n : Nat) (c : Capsule) (k : Bool) :
    (admittedState s n c k).flash.voids = s.flash.voids := by
  obtain ⟨_, _, _, _, _, _, h⟩ := admittedState_frame s n c k; rw [h]
@[simp] theorem admittedState_flash_quays (s : State) (n : Nat) (c : Capsule) (k : Bool) :
    (admittedState s n c k).flash.quays = s.flash.quays := by
  obtain ⟨_, _, _, _, _, _, h⟩ := admittedState_frame s n c k; rw [h]
@[simp] theorem admittedState_flash_rules (s : State) (n : Nat) (c : Capsule) (k : Bool) :
    (admittedState s n c k).flash.rules = s.flash.rules := by
  obtain ⟨_, _, _, _, _, _, h⟩ := admittedState_frame s n c k; rw [h]
@[simp] theorem admittedState_flash_topRule (s : State) (n : Nat) (c : Capsule) (k : Bool) :
    (admittedState s n c k).flash.topRule = s.flash.topRule := by
  obtain ⟨_, _, _, _, _, _, h⟩ := admittedState_frame s n c k; rw [h]
@[simp] theorem admittedState_flash_chunk (s : State) (n : Nat) (c : Capsule) (k : Bool) :
    (admittedState s n c k).flash.chunk = s.flash.chunk := by
  obtain ⟨_, _, _, _, _, _, h⟩ := admittedState_frame s n c k; rw [h]
@[simp] theorem admittedState_flash_recChunk (s : State) (n : Nat) (c : Capsule) (k : Bool) :
    (admittedState s n c k).flash.recChunk = s.flash.recChunk := by
  obtain ⟨_, _, _, _, _, _, h⟩ := admittedState_frame s n c k; rw [h]
@[simp] theorem admittedState_flash_saved (s : State) (n : Nat) (c : Capsule) (k : Bool) :
    (admittedState s n c k).flash.saved = s.flash.saved := by
  obtain ⟨_, _, _, _, _, _, h⟩ := admittedState_frame s n c k; rw [h]
@[simp] theorem admittedState_flash_sets (s : State) (n : Nat) (c : Capsule) (k : Bool) :
    (admittedState s n c k).flash.sets = s.flash.sets := by
  obtain ⟨_, _, _, _, _, _, h⟩ := admittedState_frame s n c k; rw [h]
@[simp] theorem admittedState_flash_pages (s : State) (n : Nat) (c : Capsule) (k : Bool) :
    (admittedState s n c k).flash.pages = s.flash.pages := by
  obtain ⟨_, _, _, _, _, _, h⟩ := admittedState_frame s n c k; rw [h]
@[simp] theorem admittedState_flash_leaves (s : State) (n : Nat) (c : Capsule) (k : Bool) :
    (admittedState s n c k).flash.leaves = s.flash.leaves := by
  obtain ⟨_, _, _, _, _, _, h⟩ := admittedState_frame s n c k; rw [h]
@[simp] theorem admittedState_flash_blocks (s : State) (n : Nat) (c : Capsule) (k : Bool) :
    (admittedState s n c k).flash.blocks = s.flash.blocks := by
  obtain ⟨_, _, _, _, _, _, h⟩ := admittedState_frame s n c k; rw [h]
@[simp] theorem admittedState_flash_planes (s : State) (n : Nat) (c : Capsule) (k : Bool) :
    (admittedState s n c k).flash.planes = s.flash.planes := by
  obtain ⟨_, _, _, _, _, _, h⟩ := admittedState_frame s n c k; rw [h]
@[simp] theorem admittedState_flash_freeBlocks (s : State) (n : Nat) (c : Capsule) (k : Bool) :
    (admittedState s n c k).flash.freeBlocks = s.flash.freeBlocks := by
  obtain ⟨_, _, _, _, _, _, h⟩ := admittedState_frame s n c k; rw [h]
@[simp] theorem admittedState_flash_retired (s : State) (n : Nat) (c : Capsule) (k : Bool) :
    (admittedState s n c k).flash.retired = s.flash.retired := by
  obtain ⟨_, _, _, _, _, _, h⟩ := admittedState_frame s n c k; rw [h]
@[simp] theorem admittedState_flash_lowWater (s : State) (n : Nat) (c : Capsule) (k : Bool) :
    (admittedState s n c k).flash.lowWater = s.flash.lowWater := by
  obtain ⟨_, _, _, _, _, _, h⟩ := admittedState_frame s n c k; rw [h]
@[simp] theorem admittedState_flash_keyRecords (s : State) (n : Nat) (c : Capsule) (k : Bool) :
    (admittedState s n c k).flash.keyRecords = s.flash.keyRecords := by
  obtain ⟨_, _, _, _, _, _, h⟩ := admittedState_frame s n c k; rw [h]
@[simp] theorem admittedState_flash_verifier (s : State) (n : Nat) (c : Capsule) (k : Bool) :
    (admittedState s n c k).flash.verifier = s.flash.verifier := by
  obtain ⟨_, _, _, _, _, _, h⟩ := admittedState_frame s n c k; rw [h]
@[simp] theorem admittedState_flash_general (s : State) (n : Nat) (c : Capsule) (k : Bool) :
    (admittedState s n c k).flash.general = s.flash.general := by
  obtain ⟨_, _, _, _, _, _, h⟩ := admittedState_frame s n c k; rw [h]
@[simp] theorem admittedState_flash_ledger (s : State) (n : Nat) (c : Capsule) (k : Bool) :
    (admittedState s n c k).flash.ledger = s.flash.ledger := by
  obtain ⟨_, _, _, _, _, _, h⟩ := admittedState_frame s n c k; rw [h]
@[simp] theorem admittedState_flash_logRetired (s : State) (n : Nat) (c : Capsule) (k : Bool) :
    (admittedState s n c k).flash.logRetired = s.flash.logRetired := by
  obtain ⟨_, _, _, _, _, _, h⟩ := admittedState_frame s n c k; rw [h]
@[simp] theorem admittedState_flash_config (s : State) (n : Nat) (c : Capsule) (k : Bool) :
    (admittedState s n c k).flash.config = s.flash.config := by
  obtain ⟨_, _, _, _, _, _, h⟩ := admittedState_frame s n c k; rw [h]
@[simp] theorem admittedState_flash_driveCert (s : State) (n : Nat) (c : Capsule) (k : Bool) :
    (admittedState s n c k).flash.driveCert = s.flash.driveCert := by
  obtain ⟨_, _, _, _, _, _, h⟩ := admittedState_frame s n c k; rw [h]
@[simp] theorem admittedState_flash_harbourCert (s : State) (n : Nat) (c : Capsule) (k : Bool) :
    (admittedState s n c k).flash.harbourCert = s.flash.harbourCert := by
  obtain ⟨_, _, _, _, _, _, h⟩ := admittedState_frame s n c k; rw [h]
@[simp] theorem admittedState_flash_banks (s : State) (n : Nat) (c : Capsule) (k : Bool) :
    (admittedState s n c k).flash.banks = s.flash.banks := by
  obtain ⟨_, _, _, _, _, _, h⟩ := admittedState_frame s n c k; rw [h]
@[simp] theorem admittedState_flash_update (s : State) (n : Nat) (c : Capsule) (k : Bool) :
    (admittedState s n c k).flash.update = s.flash.update := by
  obtain ⟨_, _, _, _, _, _, h⟩ := admittedState_frame s n c k; rw [h]
@[simp] theorem admittedState_flash_deltas (s : State) (n : Nat) (c : Capsule) (k : Bool) :
    (admittedState s n c k).flash.deltas = s.flash.deltas := by
  obtain ⟨_, _, _, _, _, _, h⟩ := admittedState_frame s n c k; rw [h]
@[simp] theorem admittedState_flash_partialSet (s : State) (n : Nat) (c : Capsule) (k : Bool) :
    (admittedState s n c k).flash.partialSet = s.flash.partialSet := by
  obtain ⟨_, _, _, _, _, _, h⟩ := admittedState_frame s n c k; rw [h]
@[simp] theorem admittedState_flash_armedCohort (s : State) (n : Nat) (c : Capsule) (k : Bool) :
    (admittedState s n c k).flash.armedCohort = s.flash.armedCohort := by
  obtain ⟨_, _, _, _, _, _, h⟩ := admittedState_frame s n c k; rw [h]
@[simp] theorem admittedState_flash_row0 (s : State) (n : Nat) (c : Capsule) (k : Bool) :
    (admittedState s n c k).flash.row0 = s.flash.row0 := by
  obtain ⟨_, _, _, _, _, _, h⟩ := admittedState_frame s n c k; rw [h]
@[simp] theorem admittedState_flash_row512 (s : State) (n : Nat) (c : Capsule) (k : Bool) :
    (admittedState s n c k).flash.row512 = s.flash.row512 := by
  obtain ⟨_, _, _, _, _, _, h⟩ := admittedState_frame s n c k; rw [h]
@[simp] theorem admittedState_flash_otpRoots (s : State) (n : Nat) (c : Capsule) (k : Bool) :
    (admittedState s n c k).flash.otpRoots = s.flash.otpRoots := by
  obtain ⟨_, _, _, _, _, _, h⟩ := admittedState_frame s n c k; rw [h]
@[simp] theorem admittedState_flash_otpDebug (s : State) (n : Nat) (c : Capsule) (k : Bool) :
    (admittedState s n c k).flash.otpDebug = s.flash.otpDebug := by
  obtain ⟨_, _, _, _, _, _, h⟩ := admittedState_frame s n c k; rw [h]
@[simp] theorem admittedState_flash_poweredS (s : State) (n : Nat) (c : Capsule) (k : Bool) :
    (admittedState s n c k).flash.poweredS = s.flash.poweredS := by
  obtain ⟨_, _, _, _, _, _, h⟩ := admittedState_frame s n c k; rw [h]
@[simp] theorem admittedState_flash_failedDies (s : State) (n : Nat) (c : Capsule) (k : Bool) :
    (admittedState s n c k).flash.failedDies = s.flash.failedDies := by
  obtain ⟨_, _, _, _, _, _, h⟩ := admittedState_frame s n c k; rw [h]
@[simp] theorem admittedState_flash_failedHeaters (s : State) (n : Nat) (c : Capsule) (k : Bool) :
    (admittedState s n c k).flash.failedHeaters = s.flash.failedHeaters := by
  obtain ⟨_, _, _, _, _, _, h⟩ := admittedState_frame s n c k; rw [h]
@[simp] theorem admittedState_flash_patrolAt (s : State) (n : Nat) (c : Capsule) (k : Bool) :
    (admittedState s n c k).flash.patrolAt = s.flash.patrolAt := by
  obtain ⟨_, _, _, _, _, _, h⟩ := admittedState_frame s n c k; rw [h]

/-! ### The decision -/

/-- A capsule that passes every check is handed on. -/
theorem capsule_admissible (s : State) (n op : Nat) (run : State → Berth → Mooring → Capsule → State) (b : Berth)
    (m : Mooring) (c : Capsule) (h : Admissible s n op b m c) :
    capsule s n op run = .next (decided (run (takeRequest s) b m c)) := by
  obtain ⟨⟨h1, h2, h3, h4⟩, h5⟩ := h
  unfold capsule decideCapsule
  simp only [h1, h2, h3, h4, h5]; rfl

/-- A capsule that a check refuses completes with CSN 0. -/
theorem capsule_refused (s : State) (n op : Nat) (run : State → Berth → Mooring → Capsule → State) (b : Berth)
    (m : Mooring) (c : Capsule) (st : Status) (h : Presented s n op b m c) (hs : admission s n b m c = some st) :
    capsule s n op run = .next (decided (refuseCapsule (takeRequest s) n c st)) := by
  obtain ⟨h1, h2, h3, h4⟩ := h
  unfold capsule decideCapsule
  simp only [h1, h2, h3, h4, hs]; rfl

/-- A capsule that reaches its commit point with its CSN. -/
theorem answerAt_eq (s : State) (n : Nat) (c : Capsule) (run : State → Nat → State × Completion) :
    answerAt (takeRequest s) n c run = complete (run (admittedState s n c true) s.seqr.next).1 n
      (run (admittedState s n c true) s.seqr.next).2 := by
  have : (admitTag (takeRequest s) n c.tag true).1 = s.seqr.next := takeRequest_next s
  unfold answerAt admittedState
  simp only [this]

/-- The same, of a capsule that is served before service opens too. -/
theorem serveAt_open (s : State) (n : Nat) (c : Capsule) (run : State → Nat → State × Completion) (h : serviceOpen s = true) :
    serveAt (takeRequest s) n c run = complete (run (admittedState s n c true) s.seqr.next).1 n
      (run (admittedState s n c true) s.seqr.next).2 := by
  have : serviceOpen (takeRequest s) = true := by
    unfold serviceOpen at *; rw [takeRequest_phase]; exact h
  unfold serveAt; rw [if_pos this]; exact answerAt_eq s n c run

end Sys2Proof.Machine
end

