-- ==== Sys2Proof/Laws/Flash.lean ====
section
/-! SUPPORT. The flash array: what programming a page, a row's parity or a word line may change (R231, R235). -/

namespace Sys2Proof.Machine

/-- `t` is `s` but for programmed pages, stripe sets, what the dies are doing, the tide's ledger and counters. -/
def OnlyProgrammed (s t : State) : Prop :=
  ∃ p x d td r, t = { s with flash := { s.flash with pages := p, sets := x }, dies := d, tide := td, regs := r }

theorem OnlyProgrammed.refl (s : State) : OnlyProgrammed s s := ⟨_, _, _, _, _, rfl⟩

theorem OnlyProgrammed.trans {s t u : State} (h : OnlyProgrammed s t) (k : OnlyProgrammed t u) : OnlyProgrammed s u := by
  obtain ⟨_, _, _, _, _, rfl⟩ := h; obtain ⟨_, _, _, _, _, rfl⟩ := k; exact ⟨_, _, _, _, _, rfl⟩

theorem OnlyRegs.programmed {s t : State} (h : OnlyRegs s t) : OnlyProgrammed s t := by
  obtain ⟨_, rfl⟩ := h; exact ⟨_, _, _, _, _, rfl⟩

theorem foldl_programmed {α : Type} (f : State → α → State) (h : ∀ s x, OnlyProgrammed s (f s x)) (l : List α) (s : State) :
    OnlyProgrammed s (l.foldl f s) := by
  induction l generalizing s with
  | nil => exact OnlyProgrammed.refl s
  | cons x l ih => exact (h s x).trans (ih _)

theorem putPage_programmed (s : State) (id : Nat) (x : StripeSet) (row pos typ csn ident : Nat) (data : List Byte) :
    OnlyProgrammed s (putPage s id x row pos typ csn ident data) := ⟨_, _, _, _, _, rfl⟩

theorem countProgram_programmed (s : State) (d : Nat) : OnlyProgrammed s (countProgram s d) := (bump_frame _ _).programmed

theorem charge_programmed (s : State) (w : Work) : OnlyProgrammed s (charge s w) := ⟨_, _, _, _, _, rfl⟩

theorem updDie_programmed (s : State) (d : Nat) (f : Die → Die) : OnlyProgrammed s (updDie s d f) := ⟨_, _, _, _, _, rfl⟩

theorem updSet_programmed (s : State) (id : Nat) (f : StripeSet → StripeSet) : OnlyProgrammed s (updSet s id f) :=
  ⟨_, _, _, _, _, rfl⟩

theorem putParity_programmed (s : State) (id : Nat) (x : StripeSet) (row : Nat) : OnlyProgrammed s (putParity s id x row) :=
  putPage_programmed _ _ _ _ _ _ _ _ _

theorem closeParity_programmed (s : State) : OnlyProgrammed s (closeParity s) :=
  foldl_programmed _ (fun s _ => foldl_programmed _ (fun _ _ => (putParity_programmed _ _ _ _).trans (countProgram_programmed _ _)) _ s) _ s

theorem padRow_programmed (s : State) (id : Nat) (x : StripeSet) (row : Nat) : OnlyProgrammed s (padRow s id x row) :=
  foldl_programmed _ (fun _ _ => (putPage_programmed _ _ _ _ _ _ _ _ _).trans (countProgram_programmed _ _)) _ s

theorem putRow_programmed (id : Nat) (x : StripeSet) (s : State) (row : Nat) : OnlyProgrammed s (putRow id x s row) :=
  (foldl_programmed _ (fun _ _ => putPage_programmed _ _ _ _ _ _ _ _ _) _ s).trans (putParity_programmed _ _ _ _)

theorem putLine_programmed (id : Nat) (x : StripeSet) (s : State) (w : Nat) : OnlyProgrammed s (putLine id x s w) :=
  (foldl_programmed _ (putRow_programmed id x) _ s).trans
    (foldl_programmed _ (fun _ _ => ((charge_programmed _ _).trans (updDie_programmed _ _ _)).trans (countProgram_programmed _ _)) _ _)

theorem packTo_programmed (s : State) (id : Nat) (x : StripeSet) (units : Nat) : OnlyProgrammed s (packTo s id x units) :=
  (foldl_programmed _ (fun _ _ => putLine_programmed _ _ _ _) _ s).trans (updSet_programmed _ _ _)

theorem flushSet_programmed (s : State) (id : Nat) : OnlyProgrammed s (flushSet s id) := by
  unfold flushSet; split
  · split
    · exact OnlyProgrammed.refl s
    · exact packTo_programmed _ _ _ _
  · exact OnlyProgrammed.refl s

/-- What a loss of power leaves of the array: word lines that were begun are whole. -/
theorem flushSets_programmed (s : State) : OnlyProgrammed s ((s.flash.sets.map Prod.fst).foldl flushSet s) :=
  foldl_programmed _ flushSet_programmed _ s

/-- `t` is `s` but for what programming changes and the space accounts: what packing records or leaves may do (R274, R282). -/
def OnlyPacked (s t : State) : Prop :=
  ∃ p x d td r w, t = { s with flash := { s.flash with pages := p, sets := x }, dies := d, tide := td, regs := r, space := w }

theorem OnlyPacked.refl (s : State) : OnlyPacked s s := ⟨_, _, _, _, _, _, rfl⟩

theorem OnlyPacked.trans {s t u : State} (h : OnlyPacked s t) (k : OnlyPacked t u) : OnlyPacked s u := by
  obtain ⟨_, _, _, _, _, _, rfl⟩ := h; obtain ⟨_, _, _, _, _, _, rfl⟩ := k; exact ⟨_, _, _, _, _, _, rfl⟩

theorem OnlyProgrammed.packed {s t : State} (h : OnlyProgrammed s t) : OnlyPacked s t := by
  obtain ⟨_, _, _, _, _, rfl⟩ := h; exact ⟨_, _, _, _, _, _, rfl⟩

theorem noteProgram_packed (s : State) (h n : Nat) : OnlyPacked s (noteProgram s h n) := ⟨_, _, _, _, _, _, rfl⟩

theorem closeSet_packed (s : State) (id : Nat) : OnlyPacked s (closeSet s id) := ⟨_, _, _, _, _, _, rfl⟩

theorem packUnits_packed (s : State) (id csn ident : Nat) (bytes : List Byte) : OnlyPacked s (packUnits s id csn ident bytes).1 := by
  unfold packUnits; split
  · exact OnlyPacked.refl s
  · dsimp only
    split
    · exact (((updSet_programmed s id _).packed.trans (noteProgram_packed _ _ _)).trans (packTo_programmed _ _ _ _).packed).trans (closeSet_packed _ _)
    · exact ((updSet_programmed s id _).packed.trans (noteProgram_packed _ _ _)).trans (packTo_programmed _ _ _ _).packed

theorem packLeaves_packed (id bucket generation clean : Nat) (ls : List Leaf) :
    ∀ depth s, OnlyPacked s (packLeaves id bucket generation clean depth ls s).1 := by
  induction ls with
  | nil => intro d s; exact OnlyPacked.refl s
  | cons l r ih =>
    intro d s
    unfold packLeaves; split
    · exact OnlyPacked.refl s
    · exact (packUnits_packed _ _ _ _ _).trans (ih _ _)

end Sys2Proof.Machine
end

