-- ==== Sys2Proof/Laws/Lines.lean ====
section
/-! SUPPORT. Lines: what retransmission, acknowledgement and path moves may change (R103 to R108). -/

namespace Sys2Proof.Machine

theorem resend_frame (s : State) (l : Line) (seq : Nat) : OnlySent s (resend s l seq) := by
  unfold resend; split
  · exact OnlySent.refl s
  · split
    · exact OnlySent.refl s
    · obtain ⟨r, h⟩ := bump_frame (sendTagged (updTp s l _) l _ _ _ _ _ _) A.MO_RETX_COUNT
      exact ((updTp_frame s l _).trans (sendTagged_frame _ _ _ _ _ _ _ _)).trans ⟨_, _, _, r, h⟩

theorem movePath_frame (s : State) (l : Line) (f : Frame) : OnlySent s (movePath s l f) := updTp_frame _ _ _

theorem writeWaiting_frame (cs : List Completion) : ∀ (s : State) (n : Nat), OnlyCompleted s (writeWaiting cs s n) := by
  induction cs with
  | nil => intro s n; exact OnlyCompleted.refl s
  | cons c cs ih =>
    intro s n; unfold writeWaiting; split
    · exact OnlyCompleted.refl s
    · split
      · exact OnlyCompleted.refl s
      · exact (OnlyCompleted.trans ⟨_, _, _, _, _, _, rfl⟩ (writeCompletion_frame _ _ _ _)).trans (ih _ _)

theorem coverTicket_frame (s : State) (n ticket : Nat) : OnlyCompleted s (coverTicket s n ticket) := by
  unfold coverTicket; split
  · exact OnlyCompleted.refl s
  · exact OnlyCompleted.trans ⟨_, _, _, _, _, _, rfl⟩ (writeWaiting_frame _ _ _)

theorem foldl_completed {α : Type} (f : State → α → State) (h : ∀ s x, OnlyCompleted s (f s x)) (l : List α) (s : State) :
    OnlyCompleted s (l.foldl f s) := by
  induction l generalizing s with
  | nil => exact OnlyCompleted.refl s
  | cons x l ih => exact (h s x).trans (ih _)

/-- Acknowledgements act on transports, and on completion rings whose completions they cover (R103 to R105, R121). -/
theorem processAck_frame (s : State) (l : Line) (ack : Nat) (sack : BitVec 32) (window : Nat) (ece cwr : Bool) :
    OnlyCompleted s (processAck s l ack sack window ece cwr) := by
  unfold processAck; split
  · exact OnlyCompleted.refl s
  · dsimp only
    exact (((updTp_frame _ _ _).completed.trans (foldl_completed _ (fun _ _ => (resend_frame _ _ _).completed) _ _)).trans
      (foldl_completed _ (fun _ _ => coverTicket_frame _ _ _) _ _)).trans (pump_frame _ _).completed

end Sys2Proof.Machine
end

