-- ==== Sys2Proof/Laws/Time.lean ====
section
/-! SUPPORT. Time: what a microsecond with no command waiting may change (R221, R236, R328, R335). -/

namespace Sys2Proof.Machine

/-- `t` is `s` but for the index dies, what the flash dies are doing, the pipelines and the register file. -/
def OnlyTimed (s t : State) : Prop :=
  ∃ ix d pp r, t = { s with index := ix, dies := d, cipher := { s.cipher with pipes := pp }, regs := r }

theorem OnlyTimed.refl (s : State) : OnlyTimed s s := ⟨_, _, _, _, rfl⟩

theorem OnlyTimed.trans {s t u : State} (h : OnlyTimed s t) (k : OnlyTimed t u) : OnlyTimed s u := by
  obtain ⟨_, _, _, _, rfl⟩ := h; obtain ⟨_, _, _, _, rfl⟩ := k; exact ⟨_, _, _, _, rfl⟩

theorem OnlyRegs.timed {s t : State} (h : OnlyRegs s t) : OnlyTimed s t := by
  obtain ⟨_, rfl⟩ := h; exact ⟨_, _, _, _, rfl⟩

theorem foldl_timed {α : Type} (f : State → α → State) (h : ∀ s x, OnlyTimed s (f s x)) (l : List α) (s : State) :
    OnlyTimed s (l.foldl f s) := by
  induction l generalizing s with
  | nil => exact OnlyTimed.refl s
  | cons x l ih => exact (h s x).trans (ih _)

theorem updPipe_timed (s : State) (k : Nat) (f : Pipe → Pipe) : OnlyTimed s (updPipe s k f) := ⟨_, _, _, _, rfl⟩

theorem workPipe_timed (s : State) (k : Nat) : OnlyTimed s (workPipe s k) := by
  unfold workPipe; split
  · split
    · exact updPipe_timed _ _ _
    · exact (updPipe_timed _ _ _).trans (bumpBy_frame _ _ _).timed
  · exact OnlyTimed.refl s

theorem pipesWork_timed (s : State) : OnlyTimed s (pipesWork s) := foldl_timed _ workPipe_timed _ s

theorem endLines_timed (s : State) : OnlyTimed s (endLines s) := by
  unfold endLines; exact foldl_timed _ (fun _ _ => ⟨_, _, _, _, rfl⟩) _ s

theorem pairLoses_timed (s : State) (b cls : Nat) : OnlyTimed s (pairLoses s b cls) := by
  have h : ∀ (u : State) (x : Index), OnlyTimed u { u with index := x } := fun u x => ⟨_, _, _, _, rfl⟩
  unfold pairLoses; split
  · exact OnlyTimed.trans (OnlyTimed.trans (OnlyTimed.trans (h _ _) (h _ _)) (h _ _)) (OnlyRegs.timed (raise_frame _ _ _))
  · exact OnlyTimed.trans (h _ _) (OnlyRegs.timed (raise_frame _ _ _))

theorem fillPlace_timed (cls : Nat) (s : State) (b : Nat) : OnlyTimed s (fillPlace cls s b) := by
  unfold fillPlace; split
  · exact ⟨_, _, _, _, rfl⟩
  · split
    · exact pairLoses_timed _ _ _
    · exact OnlyTimed.refl s

theorem fillPair_timed (s : State) (k : Nat) : OnlyTimed s (fillPair s k) := by
  unfold fillPair; split
  · exact OnlyTimed.refl s
  · exact foldl_timed _ (fillPlace_timed _) _ s

theorem fillPairs_timed (s : State) : OnlyTimed s (fillPairs s) := foldl_timed _ fillPair_timed _ s

theorem timeDriven_frame (s : State) : OnlyTimed s (timeDriven s) := by
  unfold timeDriven; split
  · exact ((pipesWork_timed s).trans (endLines_timed _)).trans (fillPairs_timed _)
  · exact OnlyTimed.refl s

/-- With no replacement to fill, the index dies stay as they are. -/
theorem fillPairs_none (s : State) (h : ∀ p ∈ s.index.pairs, p.unfilled = []) : fillPairs s = s := by
  have one : ∀ k, fillPair s k = s := by
    intro k; unfold fillPair; split
    · rfl
    · rename_i p hp; rw [h p (List.mem_of_getElem? hp)]; rfl
  have key : ∀ l : List Nat, l.foldl fillPair s = s := by
    intro l
    induction l with
    | nil => rfl
    | cons k l ih => rw [List.foldl_cons, one k]; exact ih
  exact key _

/-- A register that counts no blocks keeps its word while the pipelines work. -/
theorem pipesWork_regGet (s : State) (k : Nat) (h : k % 2 ^ 24 ≠ A.CP_PIPE_BLOCKS) : regGet (pipesWork s) k = regGet s k := by
  have hne : ∀ n : Nat, regKey A.CP_PIPE_BLOCKS n ≠ k := by
    intro n e; apply h; rw [← e]; unfold regKey A.CP_PIPE_BLOCKS; omega
  have one : ∀ (u : State) (j : Nat), regGet (workPipe u j) k = regGet u k := by
    intro u j; unfold workPipe; split
    · split
      · rfl
      · exact regGet_regSet_ne _ _ _ _ (hne _)
    · rfl
  unfold pipesWork
  generalize (List.range 8).filter (pipeServes s) = l
  induction l generalizing s with
  | nil => rfl
  | cons j l ih => rw [List.foldl_cons, ih, one]

end Sys2Proof.Machine
end

