-- ==== Sys2Proof/Laws/Update.lean ====
section
/-! SUPPORT. Updates: what writing a bank marker and overwriting the inactive bank may change (R406, R407, R415). -/

namespace Sys2Proof.Machine

/-- `t` is `s` but for counters and the use of blocks: what erasing and programming mirrored blocks may change. -/
def OnlyWorn (s t : State) : Prop := ∃ r b, t = { s with regs := r, flash := { s.flash with blocks := b } }

theorem OnlyWorn.refl (s : State) : OnlyWorn s s := ⟨_, _, rfl⟩

theorem OnlyWorn.trans {s t u : State} (h : OnlyWorn s t) (k : OnlyWorn t u) : OnlyWorn s u := by
  obtain ⟨_, _, rfl⟩ := h; obtain ⟨_, _, rfl⟩ := k; exact ⟨_, _, rfl⟩

theorem foldl_worn {α : Type} (f : State → α → State) (h : ∀ s x, OnlyWorn s (f s x)) (l : List α) (s : State) :
    OnlyWorn s (l.foldl f s) := by
  induction l generalizing s with
  | nil => exact OnlyWorn.refl s
  | cons x l ih => exact (h s x).trans (ih _)

theorem eraseMirrored_worn (s : State) (g : Nat) : OnlyWorn s (eraseMirrored s g) := by
  unfold eraseMirrored
  obtain ⟨r, h⟩ := bump_frame (updBlock s g (fun x => { x with erases := x.erases + 1, wear := x.wear + (if mirroredSlc g then 1 else 10), reads := 0 }))
    (0x1008C + 0x1000 * chanOf (dieOfBlock g))
  rw [h]; exact ⟨_, _, rfl⟩

theorem countProgram_worn (s : State) (d : Nat) : OnlyWorn s (countProgram s d) := by
  unfold countProgram
  obtain ⟨r, h⟩ := bump_frame s (0x10088 + 0x1000 * chanOf d)
  rw [h]; exact ⟨_, _, rfl⟩

/-- Things put at distinct keys, none of them changed again. -/
theorem foldl_put {α : Type} (f : Nat → Nat) (v : Nat → α) (l : List Nat) (t : Tab α) (k : Nat) :
    (∀ g ∈ l, f g = k → tabGet (l.foldl (fun t g => tabPut t (f g) (v g)) t) k = some (v g) ∨
      ∃ h ∈ l, h ≠ g ∧ f h = k) ∧
    ((∀ g ∈ l, f g ≠ k) → tabGet (l.foldl (fun t g => tabPut t (f g) (v g)) t) k = tabGet t k) := by
  induction l generalizing t with
  | nil => simp
  | cons a l ih =>
    refine ⟨?_, ?_⟩
    · intro g hg hk
      by_cases h : ∃ h ∈ l, f h = k
      · obtain ⟨x, hx, hxk⟩ := h
        by_cases e : x = g
        · subst e
          rcases (ih (tabPut t (f a) (v a))).1 x hx hxk with h | ⟨y, hy, hn, hyk⟩
          · exact .inl h
          · exact .inr ⟨y, List.mem_cons_of_mem _ hy, hn, hyk⟩
        · exact .inr ⟨x, List.mem_cons_of_mem _ hx, e, hxk⟩
      · have hn : ∀ g ∈ l, f g ≠ k := fun g hg e => h ⟨g, hg, e⟩
        rcases List.mem_cons.1 hg with e | e
        · subst e
          left; rw [List.foldl_cons, (ih _).2 hn, tabGet_tabPut, if_pos hk]
        · exact absurd hk (hn g e)
    · intro h
      rw [List.foldl_cons, (ih _).2 (fun g hg => h g (List.mem_cons_of_mem _ hg)), tabGet_tabPut,
        if_neg (h a (List.mem_cons_self ..))]

/-- The banks after a marker is written: the block and the page the marker took. -/
def markedBanks (s : State) (b : Banks) : Banks := { b with
  block := if markerPages ≤ s.flash.banks.page then 1 - s.flash.banks.block else s.flash.banks.block
  page := if markerPages ≤ s.flash.banks.page then 1 else s.flash.banks.page + 1 }

/-- A marker is written: the banks, the marker's page in all four copies, counters and the use of blocks, and nothing else. -/
theorem writeMarker_all (s : State) (b : Banks) : ∃ r bl mk,
    writeMarker s b = { s with regs := r, flash := { s.flash with blocks := bl, banks := markedBanks s b, markers := mk } } ∧
    (∀ g ∈ markerBlocks (markedBanks s b).block, ∃ m,
      tabGet mk (4096 * g + (markedBanks s b).page - 1) = some (Page.of m (markerBytes b))) := by
  have hp : ∀ (k pg : Nat) (u : State), ∀ g ∈ markerBlocks k, ∃ m, tabGet ((markerBlocks k).foldl
      (fun (t : Tab Page) g => tabPut t (4096 * g + pg) (Page.of (markerMeta u g) (markerBytes b))) u.flash.markers) (4096 * g + pg) =
        some (Page.of m (markerBytes b)) := by
    intro k pg u g hg
    rcases (foldl_put (fun g => 4096 * g + pg) (fun g => Page.of (markerMeta u g) (markerBytes b)) (markerBlocks k) u.flash.markers
      (4096 * g + pg)).1 g hg rfl with h | ⟨x, _, hn, hx⟩
    · exact ⟨_, h⟩
    · exfalso; apply hn; omega
  by_cases hf : markerPages ≤ s.flash.banks.page
  · obtain ⟨r1, b1, h1⟩ := foldl_worn eraseMirrored eraseMirrored_worn (markerBlocks (1 - s.flash.banks.block))
      { s with flash := { s.flash with markers := s.flash.markers.filter (fun p => !(markerBlocks (1 - s.flash.banks.block)).contains (p.1 / 4096)) } }
    obtain ⟨r2, b2, h2⟩ := foldl_worn (fun s g => countProgram s (dieOfBlock g)) (fun s g => countProgram_worn s _)
      (markerBlocks (1 - s.flash.banks.block)) ((markerBlocks (1 - s.flash.banks.block)).foldl eraseMirrored
      { s with flash := { s.flash with markers := s.flash.markers.filter (fun p => !(markerBlocks (1 - s.flash.banks.block)).contains (p.1 / 4096)) } })
    have hm : markedBanks s b = { b with block := 1 - s.flash.banks.block, page := 1 } := by simp only [markedBanks, hf, if_true]
    rw [hm]; unfold writeMarker; simp only [hf, decide_true, if_true]; rw [h2, h1]
    exact ⟨_, _, _, rfl, fun g hg => hp _ 0 _ g hg⟩
  · obtain ⟨r2, b2, h2⟩ := foldl_worn (fun s g => countProgram s (dieOfBlock g)) (fun s g => countProgram_worn s _)
      (markerBlocks s.flash.banks.block) s
    have hm : markedBanks s b = { b with block := s.flash.banks.block, page := s.flash.banks.page + 1 } := by
      simp only [markedBanks, hf, if_false]
    rw [hm]; unfold writeMarker; simp only [hf, decide_false, Bool.false_eq_true, if_false]; rw [h2]
    exact ⟨_, _, _, rfl, fun g hg => hp _ _ _ g hg⟩

/-- Overwriting the inactive bank changes the images of that bank, the previous copy of the base, counters and the use of
blocks, and nothing else. -/
theorem overwriteBank_all (s : State) (x : Manifest) (r : ApplyReport) (prep : Bool) : ∃ g bl im p,
    overwriteBank s x r prep = { s with regs := g, flash := { s.flash with blocks := bl, images := im, config := { s.flash.config with previous := p } } } ∧
    (∀ k, k / 8 ≠ 1 - s.flash.banks.active → tabGet im k = tabGet s.flash.images k) := by
  unfold overwriteBank; split
  · obtain ⟨g, bl, h⟩ := foldl_worn eraseMirrored eraseMirrored_worn (bankBlocks (1 - s.flash.banks.active)) s
    dsimp only; rw [h]
    refine ⟨_, _, _, _, rfl, ?_⟩
    intro k hk
    have := (foldl_put (fun p => 8 * (1 - s.flash.banks.active) + p) (fun p => newImage s x p) [1, 2, 3, 4, 5] s.flash.images k).2
      (by intro g hg; simp at hg; omega)
    exact this
  · exact ⟨_, _, _, _, rfl, fun _ _ => rfl⟩

end Sys2Proof.Machine
end

