-- ==== Sys2Proof/WellFormed.lean ====
section
/-! DEFINITION. Which terms of Instr are commands that the drive's surroundings can send: every operand lies in the range
that the field, address or count carrying it can hold. exec is total, and answers for every term; a statement that
speaks of what may be sent asks for well-formedness. -/

namespace Sys2Proof

/-- The mooring field of a frame and a register write's mooring: 12 bits (R89). -/
def wfMooring (m : Nat) : Bool := decide (m < 4096)

/-- A global berth number (R43, R120). -/
def wfBerth (b : Nat) : Bool := decide (b < 16384)

/-- A page number (R42). -/
def wfPage (p : Nat) : Bool := decide (p < 4096)

/-- A die number (R15). -/
def wfDie (d : Nat) : Bool := decide (d < 1024)

/-- A frame's size on the wire: what R84 and R88 let a link carry. -/
def wfRx (r : Rx) : Bool := decide (r.size ≤ 9234) && r.vids.all (fun v => decide (v < 4096))

/-- Every header field fits its place in R89. -/
def wfHead (h : Head) : Bool :=
  decide (h.version < 256) && decide (h.typ < 256) && decide (h.mooring < 65536) && decide (h.berth < 65536) && decide (h.seq < 2 ^ 32) &&
  decide (h.ack < 2 ^ 32) && decide (h.length < 65536) && decide (h.window < 65536) &&
  decide (h.nonceCtr < 2 ^ 64)

/-- A received frame: envelope and header in range, payload no longer than a link carries. -/
def wfFrame (f : Frame) : Bool := wfRx f.rx && wfHead f.head && decide (f.payload.length ≤ 9216)

/-- A frame of some TYPE carries that TYPE, or one that R90 does not list. -/
def wfType (h : Head) (typ : Nat) : Bool :=
  h.typ == typ || !([1, 2, 3, 4, 5, 6, 0x10, 0x11, 0x12, 0x13, 0x14, 0x15].contains h.typ)

/-- A certificate takes 324 bytes (R94). -/
def wfCert (c : Cert) : Bool := decide (c.bytes.length = 324)

/-- A line names a mooring, or one of the 255 towlines (R97, R437). -/
def wfLine : Line → Bool
  | .mooring m => wfMooring m
  | .towline t => decide (t < 255)

/-- A register address is word-aligned and inside the 16 MiB register space (R42). -/
def wfAddress (a : Nat) : Bool := decide (a < 2 ^ 24) && decide (a % 4 = 0)

/-- The symbols in error are among the 36 of a codeword, each named once, and each differs (R27). -/
def wfPathWord (w : PathWord) : Bool :=
  w.errors.all (fun e => decide (e.1 < 36) && e.2 != 0) && decide (w.errors.map Prod.fst).Nodup

/-- Flipped bits of a codeword of 4,352 bytes (R227, R241). -/
def wfFlips (flips : List Nat) : Bool := flips.all (fun n => decide (n ≤ 34816))

/-- A careen verify reads two pages of four codewords, and then twelve codewords at each shift (R258). -/
def wfVerify (r : VerifyReport) : Bool :=
  [r.first, r.second, r.low, r.high, r.erase].all wfFlips && decide (r.low.length ≤ 12) && decide (r.high.length ≤ 12)

/-- The bank numbers (R203). -/
def wfBank (b : Nat) : Bool := decide (b < 64)

/-- Well-formedness of a command. -/
def Instr.wf : Instr → Bool
  | .hello rx h b => wfRx rx && wfHead h && wfType h 1 && decide (b.berths < 256) && decide (b.maxPayload < 65536)
  | .hostAuth f _ b => wfFrame f && wfType f.head 3 && decide (b.certCount < 256) && b.certs.all wfCert &&
      decide (b.hostSig.length = 96)
  | .data f => wfFrame f && wfType f.head 0x10
  | .ack f => wfFrame f && wfType f.head 0x11
  | .close f => wfFrame f && wfType f.head 0x12
  | .closed l => wfLine l
  | .teardownComplete m => wfMooring m
  | .arpRequest rx _ | .neighbourSolicitation rx _ | .beacon rx _ | .cohortTrigger rx _ => wfRx rx
  | .echoRequest e => wfRx e.rx
  | .ackDelayExpiry l | .idleAck l | .idleTimeout l | .oldEpochRelease l | .rekeyRefusalTimeout l
  | .driveRekey l => wfLine l
  | .retransmissionTimeout l q => wfLine l && decide (q < 2 ^ 32)
  | .handshakeTimeout _ p _ => decide (p < 65536)
  | .linkDetect _ | .training _ _ | .fecLock _ _ => true
  | .autonegotiation _ ks => ks.all (fun k => decide (k = 1 ∨ k = 2 ∨ k = 4))
  | .linkLost _ l => match l with
    | none => true
    | some k => decide (k < 4)
  | .capsuleFrameGapTimeout b | .get b _ | .put b | .delete b | .existsKey b | .cas b | .batch b | .scan b
  | .exportValue b _ | .tow b _ | .quayCreate b | .quaySet b | .quayDestroy b | .rulePut b | .ruleDel b | .ruleRead b
  | .sealWrites b | .abort b | .berthReset b | .berthResetEnd b | .deferredRead b | .deferredAck b | .mgmtRead b
  | .mgmtWrite b | .capability b | .lbRead b | .lbClear b _ _ | .quote b | .unlock b _ _ | .otpRequest b
  | .upOpen b | .upWrite b | .upCommit b | .upAbandon b | .upArm b | .upDisarm b | .upTrigger b => wfBerth b
  | .csnChunkReserve | .shutdownComplete => true
  | .commit m p | .abandon m p | .clrErr m p | .lock m p => wfMooring m && wfPage p
  | .pgEvtStatusClear m p _ => wfMooring m && wfPage p
  | .syModeReq m _ | .shutdown m | .cfOvlMode m _ | .cfDefaultsAccept m | .retrain m _ | .moKill m _
  | .cmTestStart m | .ckptNow m | .ackVolatile m | .newNonce m | .freeze m | .thaw m | .rebuildStart m
  | .rebuildEnd m | .hbIdWrite m _ | .writeExportKey m | .rekeyQuaySlot m | .eraseExportSlot m => wfMooring m
  | .pstateLimit m l => wfMooring m && decide (l < 2 ^ 32)
  | .moCertGenMin m r _ => wfMooring m && decide (r < 4)
  | .fcCalStart m c d => wfMooring m && decide (c < 64) && decide (d < 16)
  | .fcDiagStart m c o => wfMooring m && decide (c < 64) && decide (o < 2 ^ 32)
  | .enTestStart m e => wfMooring m && decide (e < 64)
  | .registerWrite m a _ => wfMooring m && wfAddress a
  | .shadowTimeout p => wfPage p
  | .i3cPrivateWrite w => decide (w.address < 2 ^ 24)
  | .lbSbNewest | .lbSbOlder | .i3cTransferTimeout | .enec | .disec | .rstdaa => true
  | .entdaa a | .setnewda a => decide (a < 128)
  | .getmwl | .getmrl | .getpid | .getbcr | .getdcr | .getstatus => true
  | .quoteReq n => decide (n.length = 32)
  | .sidebandQuoteReady | .detect | .bulkCharge | .rails | .holdUpReady | .holdUpTimeout | .finish => true
  | .inputRise v | .park v => decide (v < 2 ^ 17)
  | .powerFail _ | .pwrdis _ => true
  | .strapRead a b c => decide (a < 64) && decide (b < 64) && decide (c < 64)
  | .bootRom _ | .stageTwo _ => true
  | .mount | .fullScan | .postedDurable => true
  | .landingPageClose _ | .programFailed _ => true
  | .landingConfirmed p => wfFlips p.flips
  | .eraseSuspend d | .eraseResume d | .dryDockGrant d | .pulseTrain d | .release d | .careenRetry d => wfDie d
  | .arrayReadDone d b p k => wfDie d && decide (b < 4096) && decide (p < 4096) && decide (k < 10)
  | .eraseDone b f => decide (b < 4194304) && wfFlips f
  | .calibrationDue c p d => decide (c < 64) && decide (p < 2) && decide (d < 8)
  | .calibrationDone c d _ => decide (c < 64) && decide (d < 16)
  | .diagReadDone c k _ _ _ bs => decide (c < 64) && decide (k < 10) && decide (bs.length ≤ 18432)
  | .handshakeWatchdog _ _ => true
  | .dramScrub c r => decide (c < 8) && wfPathWord r.word
  | .campaignStart | .lifeRecompute | .surveyDeadlineEnd => true
  | .heaterCheck d _ | .ramp d _ | .cool d _ | .careenAbort d _ => wfDie d
  | .blockVerify d r => wfDie d && wfVerify r
  | .refresh _ | .setDissolve _ | .lostPageSweep _ => true
  | .patrolRead _ f => wfFlips f
  | .retentionSurvey c _ f => decide (c < 9) && wfFlips f
  | .leafFetch b => decide (b < 2 ^ 28)
  | .chainWriteback w => decide (w.bucket < 2 ^ 28)
  | .indexScrub b _ _ => wfBank b
  | .bankTest | .bankTestEnd _ => true
  | .engineTestEnd e _ => decide (e < 64)
  | .warehousing | .dredging | .checkpointBegin | .checkpointDone => true
  | .recordCopy c e _ _ => decide (c < 2 ^ 64) && decide (e < 256)
  | .sensorSample c n _ | .sensorFailed c n | .sensorReadmitted c n => decide (c < 8) && decide (n < 4096)
  | .ringMeasurement rs _ => decide (rs.length = 48)
  | .railLimit | .stepDown | .stepUp | .emergencyPersist | .lowTideReturn | .pstateEntry
  | .maintenanceExcursion | .poweredTime => true
  | .tideWindowEnd r => decide (r.classMj.length = 8)
  | .thermalTrip r => decide (r < 19)
  | .alarm _ _ | .alarmSettle | .entropyHealthFail | .rekeySweepEnd => true
  | .autoRekey k | .counterChunkReserve k => decide (k < 65536)
  | .cipherSuspend p | .cipherResume p | .pipeUncorrectable p | .parityFault p _ => decide (p < 8)
  | .logFlush | .coalesced | .wrapped _ | .logMediaFailed _ | .freezeTimeout => true
  | .stagingLockTimeout | .armingDeadline | .prepare _ | .switchTime | .drain _ | .drainBudget | .restart _
  | .revert | .beaconSend => true
  | .memberAge i => decide (i < 4096)
  | .towData t d => decide (t < 255) && decide (d.entries.length ≤ 256)
  | .towAck t st _ _ _ => decide (t < 255) && decide (st < 65536)
  | .towlineIdle t | .towlineClosed t => decide (t < 255)
  | .welcome t b _ => decide (t < 255) && wfCert b.cert && decide (b.sig.length = 96)
  | .i3cPrivateRead k => decide (k ≤ 64)
  | .moored t p w => decide (t < 255) && decide (p < 255) && decide (w < 65536)
  | .refuse t st | .refuseSealed t st | .gone t st => decide (t < 255) && decide (st < 65536)

end Sys2Proof
end

