-- ==== Sys2Proof/Tests/Slice0.lean ====
section
/-! SUPPORT. The model's own tests: the well-formedness checks, a witness for every hypothesis of every statement, and small
single-step tests whose expected values come from the spec. -/

namespace Sys2Proof.Tests

set_option Elab.async false

open Sys2Proof Sys2Proof.Machine

/-! ### Small states -/

/-- A path and the transport of a line. -/
def tp : Transport := Transport.fresh { port := .a, ethSrc := 1, ipSrc := 2, ipv6 := true, ipDst := 3, seq := 0 } 1024 512 600 0 false

/-- Mooring 1: an Operator's, with one berth, global number 5. -/
def moor : Mooring :=
  { st := .moored, role := 1, subject := 7, generation := 0, sendSlot := 20, recvSlot := 21, berths := [5], tp := tp, cause := 0,
    goneSent := false, discarded := [], finals := [] }

/-- Its berth. -/
def berth : Berth :=
  { index := 0, mooring := 1, tearing := false, sq := [], sqTail := 0, cq := [], cqTail := 0, cqWait := [], nextTicket := 0,
    tags := [], asm := none, rx := .clean, lastCsn := 0, deferreds := [], overflow := false, lostCount := 0, unlisted := [],
    reset := none, lastDelivered := 0, refused := 0, completed := 0 }

/-- A live slot of a kind. -/
def slot (kind owner : Nat) : Slot :=
  { kind := kind, st := .live, epoch := 0, owner := owner, ctr := 0, chunk := 0, refs := 0, key := .drawn 0, indexKey := 0,
    shadows := [] }

/-- Quay 2, open, committed mode, its key in slot 10. -/
def quay : Quay :=
  { erasing := false, posted := false, maxValue := 65536, guarGib := 1, limitGib := 0, used := 0, keys := 0, slot := 10,
    reserved := 0, createCsn := 1, refused := 0, lost := 0, indexKey := 0 }

/-- A drive in service, with mooring 1 and quay 2. -/
def up : State :=
  { State.reset with
    phase := 2
    sessionUs := 1000000000
    power := { State.reset.power with phase := .running, running := true, holdUpReady := true, strapValid := true }
    boot := { State.reset.boot with stage := .mounted, readyCore := true, readyUnits := true, readySpace := true, keyStore := ⟨1, 1⟩ }
    linkA := { LinkState.reset with phase := .up, lanes := 4 }
    moorings := [(1, moor)]
    berths := [(5, berth)]
    seqr := { State.reset.seqr with stopped := false, next := 100 }
    cipher := { State.reset.cipher with locked := false, kek := some [], wrapBase := some [], armed := true, slots := [(10, slot 1 2), (20, slot 2 1), (21, slot 3 1)] }
    flash := { Flash.reset with chunk := some 0, quays := [(2, quay)] } }

/-- The bytes of a capsule (R109). -/
def cap (op flags tag q : Nat) (key : List Byte) (len off ver param : Nat) (value : List Byte) : List Byte :=
  beBytes op 1 ++ beBytes flags 1 ++ beBytes tag 2 ++ beBytes q 2 ++ beBytes key.length 2 ++ beBytes len 4 ++ beBytes off 4 ++
    beBytes ver 8 ++ beBytes param 8 ++ key ++ value

/-- A capsule at the head of berth 5. -/
def due (s : State) (bs : List Byte) : State :=
  { s with
    berths := tabUpd s.berths 5 (fun b => { b with sq := [⟨.a, bs⟩] })
    seqr := { s.seqr with cycle := [⟨.a, 5, false, bs⟩] } }

/-- Berth 5 with a capsule in its ring. -/
def berthWith (bs : List Byte) : Berth := { berth with sq := [⟨.a, bs⟩] }

/-- The hypotheses of a statement about an admitted capsule, for berth 5 of mooring 1. -/
abbrev Ready (s : State) (op : Nat) (bs : List Byte) : Prop :=
  Admitted (due s bs) 5 op (berthWith bs) moor (parseCapsule bs)

/-! ### Witnesses: the hypotheses of each statement hold somewhere, clause by clause

Each theorem names a statement and shows, for each of its clauses that has hypotheses, a concrete state and operands that meet
them together, at a boundary where a clause has a range. -/

theorem wit_StepTakesTheFront : (({ State.reset with pending := [.bulkCharge, .rails] } : State).pending = .bulkCharge :: [.rails]) ∧
    State.reset.pending = [] ∧ (∀ p ∈ up.index.pairs, p.unfilled = []) ∧ State.reset.power.running = false ∧ 0x8010 ≠ 0x8014 := by
  decide +kernel

theorem wit_EveryStepKeepsConsistent : step State.reset = .next (idleStep State.reset) := rfl

theorem wit_RegistersAndEvents : (up.regs.Pairwise (fun p q => p.1 < q.1) ∧ (∀ p ∈ up.regs, p.2 ≠ regDefault p.1)) ∧
    (∀ k, regGet State.reset k = regGet up k) ∧ (31 < 32) ∧ nextRequest State.reset = none :=
  ⟨⟨by decide +kernel, by decide +kernel⟩, fun _ => rfl, by decide, by decide +kernel⟩

/-- Berth 5 with so many entries in its completion ring. -/
def ring (n : Nat) : Berth := { berth with cq := (List.range n).map (fun k => (k, false)) }

/-- A completion. -/
def done (csn : Nat) : Completion := Completion.plain 1 9 .ok csn

/-- A deferred error. -/
def dref (i : Nat) (told : Bool) : Deferred :=
  { csn := 40, index := i, tag := 3, quay := 2, status := 0x0403, digest := 0, announced := told }

theorem wit_CompletionsReachTheRing : berthOf State.reset 5 = none ∧
    (berthOf { up with berths := [(5, ring 1023)] } 5 = some (ring 1023) ∧ (ring 1023).tearing = false ∧
      (ring 1023).cq.length < 1024) ∧
    (berthOf { up with berths := [(5, ring 1024)] } 5 = some (ring 1024) ∧ (ring 1024).tearing = false ∧
      1024 ≤ (ring 1024).cq.length) ∧
    (berthOf { up with berths := [(5, { berth with tearing := true })] } 5 = some { berth with tearing := true } ∧
      (done 0).csn = 0 ∧ (done 1).csn ≠ 0 ∧ mooringOf up 1 = some moor) ∧
    ((done 1).status = 0 ∧ nextAnnounce { berth with deferreds := [dref 4 false, dref 3 false, dref 1 true] } = some 3) ∧
    nextAnnounce berth = none ∧ Quiet up := by decide +kernel

/-- The drive with a key group in the shadow of the CP page. -/
def keyed (op k ex : Nat) : State :=
  { up with shadows := [{ page := 6, owner := 1, lastWrite := 0, words := [(A.CP_KEY_OP, word op), (A.CP_KEY_SLOT, word k),
      (A.CP_KEY_DOMAIN, word ex)] }] }

theorem wit_KeyGroupCommit : ((keyGroup (keyed 1 65535 9)).1 = 1 ∧ slotOf (keyed 1 65535 9) (keyGroup (keyed 1 65535 9)).2.1 = none) ∧
    ((keyGroup (keyed 1 10 9)).1 = 1 ∧ slotOf (keyed 1 10 9) (keyGroup (keyed 1 10 9)).2.1 = some (slot 1 2)) ∧
    ((keyGroup (keyed 2 10 0)).1 = 2 ∧ slotOf (keyed 2 10 0) (keyGroup (keyed 2 10 0)).2.1 = some (slot 1 2) ∧
      (keyed 2 10 0).cipher.rekey = none) ∧
    ((keyGroup (keyed 3 10 0)).1 = 3 ∧ slotOf (keyed 3 10 0) (keyGroup (keyed 3 10 0)).2.1 = some (slot 1 2) ∧ (slot 1 2).kind ≠ 4) ∧
    (11 ≠ (keyGroup (keyed 3 10 0)).2.1) ∧ 3 < (keyGroup (keyed 4 10 0)).1 ∧
    ((keyGroup { keyed 1 10 9 with cipher := { up.cipher with locked := true } }).1 = 1 ∧
      ({ keyed 1 10 9 with cipher := { up.cipher with locked := true } } : State).cipher.locked = true) := by decide +kernel

/-! #### Power and boot -/

/-- The input stage in a phase, at an input voltage. -/
def inPhase (p : PowerPhase) (mv : Nat) : State :=
  { State.reset with boardUs := 50000, power := { State.reset.power with phase := p, inputMv := mv } }

/-- The controller running, boot at a stage. -/
def booting (st : BootStage) : State :=
  { State.reset with sessionUs := 2000000, power := { State.reset.power with phase := .running, running := true, holdUpReady := true },
                     boot := { State.reset.boot with stage := st } }

theorem wit_InputStageAndStraps :
    ((inPhase .unpowered 0).power.phase = .unpowered ∧ 36000 ≤ 36000 ∧ 75000 ≤ 75000 ∧ (inPhase .unpowered 0).power.pwrdis = false) ∧
    ((inPhase .detect 54000).power.phase = .detect ∧ 35999 < 36000) ∧
    ((inPhase .detect 36000).power.phase = .detect ∧ (inPhase .detect 36000).power.phaseSince + 50000 ≤ (inPhase .detect 36000).boardUs ∧
      36000 ≤ (inPhase .detect 36000).power.inputMv ∧ (inPhase .detect 36000).power.inputMv ≤ 75000 ∧
      (inPhase .detect 36000).power.pwrdis = false) ∧
    (inPhase .bulkCharge 54000).power.phase = .bulkCharge ∧ (inPhase .rails 54000).power.phase = .rails ∧ live up = true ∧
    (let s := { booting .stageTwo with power := { (booting .stageTwo).power with holdUpReady := false } }
     live s = true ∧ s.power.holdUpReady = false ∧ 2000000 ≤ s.sessionUs) ∧
    (live (booting .stageTwo) = true ∧ (booting .stageTwo).boot.stage = .stageTwo ∧ (booting .stageTwo).power.strapFailed = false ∧
      ¬(1 = 1 ∧ 1 = 2) ∧ (booting .stageTwo).power.strapMisses < 15) ∧
    (let s := { up with power := { up.power with strapMisses := 15 } }
     live s = true ∧ s.boot.stage = .mounted ∧ s.power.strapFailed = false ∧ 15 ≤ s.power.strapMisses) := by decide +kernel

/-- The input stage in a phase, PWRDIS having counted as one level and held at another for 1 ms. -/
def held (p : PowerPhase) (raw counted : Bool) : State :=
  let s := inPhase p 75000
  { s with power := { s.power with pwrdisRaw := raw, pwrdis := counted, pwrdisSince := 49000 } }

theorem wit_PowerFailAndPark :
    (up.power.phase = .running ∧ (FailCause.pwrdis = .pwrdis → ({ up with power := { up.power with pwrdis := true } } : State).power.pwrdis = true)) ∧
    (inPhase .stop 0).power.phase = .stop ∧
    (true ≠ (inPhase .rails 54000).power.pwrdisRaw ∧ (held .rails true false).boardUs < 49001 + 1000) ∧
    (∀ p ∈ [PowerPhase.rails, .detect], (held p true false).power.phase = p ∧ (held p true false).power.pwrdisRaw = true ∧
      (held p true false).power.pwrdis = false ∧ (held p true false).power.pwrdisSince + 1000 ≤ (held p true false).boardUs) ∧
    (let s := held .unpowered false true
     s.power.phase = .unpowered ∧ 36000 ≤ s.power.inputMv ∧ s.power.inputMv ≤ 75000 ∧ s.power.pwrdisRaw = false ∧
       s.power.pwrdis = true ∧ s.power.pwrdisSince + 1000 ≤ s.boardUs) ∧
    ((inPhase .park 0).power.phase = .park ∧ ∀ p ∈ (inPhase .park 0).flash.sets, p.2.pool = .landing ∨ p.2.packed = []) := by
  decide +kernel

/-- What the boot ROM found: the SEC_VERSION of a primary and of a mirror of stage two. -/
def rom (p m : Option Nat) : RomReport := { entropyOk := true, primary := p, mirror := m }

/-- The boot ROM running on two OTP rows. -/
def otpRows (a b : OtpRow) : State :=
  { booting .rom with flash := { (booting .rom).flash with row0 := a, row512 := b } }

/-- The row of a drive with another serial number, without the CRC that would go with it. -/
def otherRow : OtpRow := { OtpRow.reset with serial := 5 }

theorem wit_BootRomHandsOver :
    (live (booting .rom) = true ∧ (booting .rom).boot.stage = .rom ∧ (otpImage (booting .rom)).isSome = true ∧
      (rom (some 0) none).entropyOk = true ∧ (rom (some 0) none).primary = some 0 ∧
      (otpImage (booting .rom)).map Otp.secVersion = some 0) ∧
    ((rom none (some 0)).primary = none ∧ (rom none (some 0)).mirror = some 0) ∧
    otpImage (otpRows otherRow otherRow) = none ∧
    ((∀ sv, (rom none none).primary = some sv → sv < 1) ∧ (∀ sv, (rom none none).mirror = some sv → sv < 1)) ∧
    ((otpImage (otpRows OtpRow.reset otherRow)).isSome = true ∧
      factoryOk (booting .rom) OtpRow.reset = true ∧ factoryOk (booting .rom) otherRow = false ∧
      (otpImage (otpRows otherRow OtpRow.reset)).isSome = true) ∧
    ((otpImage (otpRows OtpRow.reset { OtpRow.reset with rollback := 2 ^ 128 - 2 })).isSome = true ∧
      ({ OtpRow.reset with rollback := 2 ^ 128 - 2 } : OtpRow).rollback.testBit 0 = false ∧ 0 < 128 ∧ 3 < 4) ∧
    (let b := State.reset.flash.banks
     b.active < 256 ∧ b.generation < 2 ^ 32 ∧ b.switchBoot < 2 ^ 32 ∧ b.release < 2 ^ 32 ∧ b.setDigest < 2 ^ 384 ∧ 4095 < 4096) := by
  refine ⟨by decide +kernel, by decide +kernel, by decide +kernel, ⟨?_, ?_⟩, by decide +kernel, by decide +kernel, by decide +kernel⟩ <;>
    (intro sv h; cases h)

/-- A ledger with one boot record. -/
def bootRec : LogRec :=
  { seq := 16384, typ := 0x0100, source := 0x0100, flags := 1, payload := leBytes 7 4 ++ zeroBytes 200, ledger := true,
    createdAt := 0, block := 0 }

theorem wit_StageTwoRuns :
    (let s := { booting .stageTwo with log := { State.reset.log with nextSeq := 1 } }
     live s = true ∧ s.boot.stage = .stageTwo ∧ s.boot.bootSeq = 0 ∧ s.power.holdUpReady = true ∧ s.log.nextSeq ≠ 0 ∧
      s.flash.update = none) ∧
    (live (booting .stageTwo) = true ∧ (booting .stageTwo).boot.stage = .stageTwo ∧ (booting .stageTwo).boot.bootSeq = 0 ∧
      (booting .stageTwo).power.holdUpReady = true ∧ (booting .stageTwo).log.nextSeq = 0 ∧ (booting .stageTwo).flash.update = none) ∧
    State.reset.power.holdUpReady = false ∧ State.reset.flash.ledger.blocks = [] ∧
    (let s := { up with flash := { up.flash with ledger := { LogStream.reset with blocks := [⟨0, false, 0⟩], recs := [bootRec] } } }
     s.flash.ledger.blocks ≠ [] ∧ ledgerBoots s ≠ []) ∧
    (startMedia State.reset = 0 ∧ State.reset.boot.rootsOut = [] ∧ State.reset.cipher.entropyFailed = false ∧ State.reset.flash.partialSet = none ∧
      State.reset.flash.armedCohort = none) := by decide +kernel

/-- A checkpoint on flash. -/
def saved : Saved := { seq := 1, csn := 90, horizon := 80, durablePseq := 0, clean := true, lowWater := 100, usable := true, tables := { Tables.unknown State.reset with logSeq := 7 } }

/-- A record of quay 2: the key `k` with a value, settled with CSN `csn`. -/
def posted1 (k : List Byte) (csn : Nat) (v : List Byte) : Item :=
  { quay := 2, digest := 0, key := k, csn := csn, kind := .value, version := 3, value := v, lostLen := 0, lostStatus := 0, taken := none,
    entry := 0, recordId := 1, pseq := 0, batch := false, marked := false, commit := false, berth := 5, tag := 9, settled := true,
    landed := true, durable := true, encrypted := true, epoch := 0, ctr := 1, setId := 0, spans := [⟨4096, 0, 0, 2⟩], badPages := [] }

theorem wit_MountOpensService :
    (let s := { booting .mounting with flash := { Flash.reset with saved := some saved } }
     live s = true ∧ s.boot.stage = .mounting ∧ s.power.holdUpReady = true ∧ s.flash.saved = some saved ∧ saved.usable = true) ∧
    (live (booting .mounting) = true ∧ (booting .mounting).boot.stage = .mounting ∧ (booting .mounting).power.holdUpReady = true ∧
      (booting .mounting).flash.saved = none) ∧
    up.flash.chunk = some 0 ∧
    (State.reset.flash.chunk = none ∧ State.reset.flash.pages = [] ∧ State.reset.flash.saved = none) ∧
    (let s := { State.reset with flash := { Flash.reset with pages := [(4096, { data := [], code := [], ident := [] })] } }
     s.flash.chunk = none ∧ s.flash.pages ≠ []) ∧
    (tabGet [(4194303, { Block.fresh with wear := fieldOf up A.CA_TRIGGER 15 0 })] 4194303 =
        some { Block.fresh with wear := fieldOf up A.CA_TRIGGER 15 0 } ∧
      planeOfBlock 4194303 = 4095) ∧
    (let s := { up with flash := { up.flash with planes := [(4095, { Plane.fresh with st := 2 })] } }
     (resumeCampaigns s).careen.campaigns.length = 1) := by decide +kernel

/-- Posted write 2^32 landed and 2^32 + 1 did not: P is 2^32, 2^32 + 2 is discarded, and the new base is 2^33 (R298). -/
theorem wit_RecoveryKeeps :
    let item := fun (csn n : Nat) => { posted1 [65] csn [1] with pseq := n, landed := true, marked := false, spans := [] }
    let s := { booting .mounting with flash := { Flash.reset with
      saved := some { saved with durablePseq := 2 ^ 32 - 1, horizon := 0 }, items := [item 50 (2 ^ 32), item 52 (2 ^ 32 + 2)] } }
    (s.flash.saved ≠ none ∧ basePseq s < 2 ^ 32 ∧ ∀ i ∈ s.flash.items, countsSoFar s (savedHorizon s) i = true ∧
      i.landed = true ∧ itemReads s i = true) ∧
    (replay s).space.durablePseq = 2 ^ 32 ∧ (replay s).space.durableCsn = 50 ∧ (replay s).space.discarded = 1 ∧
    (replay s).space.nextPseq = 2 ^ 33 := by decide +kernel

/-! #### Register writes -/

/-- The drive in a mode. -/
def inMode (k : Nat) : State := { up with mode := { up.mode with cur := k } }

/-- An Auditor's mooring. -/
def audit : Mooring := { moor with role := 2 }

theorem wit_RegisterWrites : WriteAccepted up 1 moor A.MO_IDLE_TMO 600 ∧
    (mooringOf up 1 = some moor ∧ moor.st ≠ .tearingDown ∧ csnReady up 1 = true ∧
      writeRefused { up with seqr := { up.seqr with barrier := true } } moor A.MO_IDLE_TMO 600 = some .busyActivating) ∧
    (writeRefused up moor A.MO_IDLE_TMO 601 = none ∧
      writeVerdict (takeCsn up).2 0 1 1 A.MO_IDLE_TMO [601] = some (A.MO_IDLE_TMO, .range, false)) ∧
    (1 ≤ 1 ∧ 1 ≤ 4 ∧ 4 ≤ 4) ∧ (63 < 64 ∧ 15 < 16 ∧ 3 < 4) ∧
    ((keyGroup (keyed 1 100 9)).1 = 1 ∧ (keyGroup (keyed 2 10 0)).1 = 2 ∧ (keyGroup (keyed 3 10 0)).1 = 3) := by decide +kernel

/-- A shadow of the BW page. -/
def shadow : Shadow := { page := 1, owner := 1, lastWrite := 0, words := [(A.HM_CLASS, 5)] }

theorem wit_PageHeaderWrites :
    (isRecordPage 5 = false ∧ WriteAccepted { up with shadows := [{ shadow with page := 5 }] } 1 moor (5 * 4096 + 0x10) 1) ∧
    (isRecordPage 1 = false ∧ WriteAccepted { up with shadows := [shadow] } 1 moor (1 * 4096 + 0x10) 2) ∧
    (isRecordPage 12 = false ∧ WriteAccepted up 1 moor (12 * 4096 + 0x10) 4) ∧
    (isRecordPage 8 = false ∧ WriteAccepted up 1 moor (8 * 4096 + 0x14) 3) ∧
    (isRecordPage 12 = false ∧ pageMapped 12 = true ∧ WriteAccepted up 1 moor (12 * 4096 + 0x20) 1) ∧
    (let s := { up with shadows := [shadow], sessionUs := 10000000 }
     shadowOf s 1 = some shadow ∧ shadow.lastWrite + 10000000 ≤ s.sessionUs ∧ (shadow.words.map Prod.fst).Nodup ∧
       (1 ≠ 5 ∧ 1 ≠ 6 ∧ 1 ≠ 12 ∧ 1 ≠ 13) ∧ (A.HM_CLASS < A.CP_KEY_DATA) ∧ 0x1040 ∉ shadow.words.map Prod.fst) := by decide +kernel

theorem wit_SystemAndMooringWrites :
    (WriteAccepted up 1 moor A.SY_MODE_REQ 5 ∧ WriteAccepted up 1 moor A.SY_MODE_REQ 2 ∧ 2 ≠ up.mode.cur) ∧
    (let w := insertBits (regWord up false A.SY_PWR_CTRL) 2 0 3
     3 ≤ 4 ∧ bit w 8 = false ∧ WriteAccepted up 1 moor A.SY_PWR_CTRL w) ∧
    (up.pstate.cur = 0 ∧ WriteAccepted up 1 moor A.SY_PWR_CTRL (withBit up A.SY_PWR_CTRL 8)) ∧
    WriteAccepted up 1 moor A.CF_OVL_MODE 4 ∧ WriteAccepted { up with flash := { up.flash with config := { up.flash.config with defaultsPending := true } } } 1 moor
      A.CF_DEFAULTS_ACCEPT 1 ∧
    WriteAccepted up 1 moor (npAddr .b A.NP_LINK_CTRL) (withBit up (npAddr .b A.NP_LINK_CTRL) 8) ∧
    WriteAccepted { up with moorings := [(1, moor), (2, audit)] } 1 moor A.MO_KILL 2 ∧
    WriteAccepted up 1 moor A.CF_BOOT_MODE 5 ∧ (1 ≤ 4 ∧ 4 ≤ 4 ∧ WriteAccepted up 1 moor (A.MO_CERT_GEN_MIN + 4 * (4 - 1)) 6) := by
  and_intros <;> decide +kernel

theorem wit_UnitControlWrites :
    WriteAccepted up 1 moor A.CM_TEST (withBit up A.CM_TEST 31) ∧
    (let w := insertBits (withBit up (fcBase 63 + 0xA4) 31) 27 24 15
     63 < 64 ∧ 15 < 16 ∧ WriteAccepted up 1 moor (fcBase 63 + 0xA4) w) ∧
    (let w := insertBits (withBit up (fcBase 0 + 0xBC) 31) 9 8 0
     0 < 64 ∧ 0 < 4 ∧ WriteAccepted up 1 moor (fcBase 0 + 0xBC) w) ∧
    (63 < 64 ∧ WriteAccepted up 1 moor (0x50064 + 0x1000 * 63) (withBit up (0x50064 + 0x1000 * 63) 31)) ∧
    WriteAccepted up 1 moor A.DR_CKPT (withBit up A.DR_CKPT 31) ∧
    (regWord up false A.LB_CONTROL = 0 ∧ WriteAccepted { up with log := { up.log with unacked := true, media := 3 } } 1 moor A.LB_CONTROL 0x80000000) ∧
    WriteAccepted up 1 moor A.LB_CONTROL 0x40000000 ∧
    (up.log.media ≠ 3 ∧ WriteAccepted up 1 moor A.LB_CONTROL 0x20000000) ∧
    WriteAccepted { up with log := { up.log with frozen := some { owner := 1, since := 0 } } } 1 moor A.LB_CONTROL 0x10000000 ∧
    (bit (withBit up A.HB_CTRL 31) 30 = false ∧ WriteAccepted up 1 moor A.HB_CTRL (withBit up A.HB_CTRL 31)) ∧
    (let s := { up with mode := { up.mode with cur := 4, rebuild := true, operatorRebuild := true } }
     bit (withBit s A.HB_CTRL 30) 31 = false ∧ WriteAccepted s 1 moor A.HB_CTRL (withBit s A.HB_CTRL 30)) ∧
    WriteAccepted up 1 moor A.HB_ID (insertBits (regWord up false A.HB_ID) 11 0 4095) ∧
    (WriteAccepted (keyed 1 100 9) 1 moor 0x6010 1 ∧ (keyGroup (keyed 1 100 9)).1 = 1) ∧
    (WriteAccepted (keyed 2 10 0) 1 moor 0x6010 1 ∧ (keyGroup (keyed 2 10 0)).1 = 2) ∧
    (let s := { keyed 3 30 0 with cipher := { up.cipher with slots := [(30, slot 4 9)] } }
     WriteAccepted s 1 moor 0x6010 1 ∧ (keyGroup s).1 = 3) := by
  and_intros <;> decide +kernel
/-! #### Capsules -/

def aKey : List Byte := [7]
def getCap := cap 0x01 0 1 2 aKey 0 0 0 0 []
def putCap := cap 0x02 0 1 2 aKey 1 0 0 0 [9]
def existsCap := cap 0x04 0 1 2 aKey 0 0 0 0 []

/-- An item of quay 2 on key 7. -/
def item (kind : ItemKind) (value : List Byte) : Item :=
  { quay := 2, digest := 0, key := aKey, csn := 50, kind := kind, version := 3, value := value, lostLen := 4, lostStatus := 0x19,
    taken := none, entry := 0, recordId := 1, pseq := 0, batch := false, marked := false, commit := false, berth := 5, tag := 1,
    settled := true, landed := true, durable := true, encrypted := true, epoch := 0, ctr := 1, setId := 0, spans := [], badPages := [] }

/-- A copy on flash of bucket 0's chain: one leaf with no entry, in the first page of set 0. -/
def leaf : LeafCopy := { cleanCsn := 10, generation := 1, setId := 0, locs := [7], leaves := [[]] }

/-- A drive in service with some items. -/
def upWith (is : List Item) : State := { up with flash := { up.flash with items := is } }

/-- A command of berth 5. -/
def cmd (op : Nat) (job : Job) : Cmd :=
  { csn := 100, berth := 5, tag := 1, opcode := op, quay := 2, job := job, stage := .waiting, granules := 0, keyCount := 0, epoch := 0,
    transferred := false, badSegs := [], badTags := [], parity := [], ctr := 1, looked := false, versions := [], voidFor := none, engine := 0 }

/-- A read that meets nothing bad. -/
def noFaults : ReadFaults := { tags := [], parity := [] }

theorem wit_CapsuleDecision :
    ((0x01, Instr.get 5 noFaults) ∈ capsuleCommands 5 0 false [] noFaults ∧ dueCapsule up 5 0x01 = none) ∧
    ((0x02, Instr.put 5) ∈ capsuleCommands 5 0 false [] noFaults ∧
      (let bs := cap 0x02 1 1 2 aKey 1 0 0 0 [9]
       Presented (due up bs) 5 0x02 (berthWith bs) moor (parseCapsule bs) ∧
         admission (due up bs) 5 (berthWith bs) moor (parseCapsule bs) = some .reservedBits)) ∧
    searchesRules (parseCapsule (cap 0x40 0 1 0 [] 0 0 0 0 [])) = false ∧
    berthOf (takeRequest (due up getCap)) 5 = some berth := by and_intros <;> decide +kernel

theorem wit_ReadsAreAdmitted :
    Ready up 0x01 getCap ∧ Ready up 0x04 existsCap ∧ Ready up 0x07 (cap 0x07 1 1 2 [] 16 0 0 0x080001 (zeroBytes 16)) ∧
    (Ready up 0x08 (cap 0x08 0 1 2 aKey 0 0 0 0x0001000A []) ∧
      slotOf (due up (cap 0x08 0 1 2 aKey 0 0 0 0x0001000A [])) 10 = some (slot 1 2)) ∧
    (up.cmds = [] ∧ (cmd 0x07 (.scan 0 1 8 false [])).stage = .waiting ∧ (cmd 0x07 (.scan 0 1 8 false [])).voidFor = none ∧
      pairLost up (cmd 0x07 (.scan 0 1 8 false [])).job = false ∧ wordAhead up (cmd 0x07 (.scan 0 1 8 false [])) = false) ∧
    (let x := cmd 0x01 (.get aKey 0 0 0)
     let v := fun (s : State) => pinLeaves (lookOnce s x) x.csn (leavesNeeded (lookOnce s x) x)
     (leavesNeeded (lookOnce up x) x = [0] ∧ leafIn (v up) 0 = true ∧ pagesWait (v up) x = false) ∧
       (let s := { up with flash := { up.flash with leaves := [(0, [leaf])] }, index := { up.index with dir := [(0, 7)] } }
        leafIn (v s) 0 = false)) ∧
    (cmd 0x01 (.get aKey 0 0 0)).job = .get aKey 0 0 0 ∧ (cmd 0x04 (.exist aKey 0)).job = .exist aKey 0 := by
  and_intros <;> decide +kernel

theorem wit_ReadResults :
    keyUnavailable up 3 = some .keyErased ∧ keyUnavailable up 2 = none ∧
    (keyUnavailable (upWith [item .deletion []]) 2 = none ∧
      newestItem (upWith [item .deletion []]).flash.items 2 aKey 100 = some (item .deletion [])) ∧
    newestItem up.flash.items 2 aKey 100 = none ∧
    (keyUnavailable (upWith [item .lost []]) 2 = none ∧
      newestItem (upWith [item .lost []]).flash.items 2 aKey 51 = some (item .lost [])) ∧
    (let i := { item .value [1] with spans := [⟨4096, 0, 0, 3⟩], badPages := [4096] }
     newestItem (upWith [i]).flash.items 2 aKey 51 = some i ∧ i.kind = .value ∧ headLost i = true) ∧
    (keyUnavailable (upWith [item .value [1]]) 2 = none ∧
      newestItem (upWith [item .value [1]]).flash.items 2 aKey 51 = some (item .value [1]) ∧
      headLost (item .value [1]) = false ∧ segmentLost (item .value [1]) 0 = false ∧
      epochHeld (upWith [item .value [1]]) 10 0 = true ∧ 0 ∉ (cmd 0x01 (.get aKey 0 0 0)).badSegs ∧
      0 ∈ ({ cmd 0x01 (.get aKey 0 0 0) with badTags := [0] } : Cmd).badTags ∧
      0 ∉ (cmd 0x01 (.get aKey 0 0 0)).badTags ∧ up.flash.otp.lineage = false ∧ 1 ≤ (item .value [1]).value.length ∧
      (item .value [1]).value.length ≤ 65536) := by and_intros <;> decide +kernel

/-- A drive whose quay 2 has lost its key. -/
def keyless : State := { up with cipher := { up.cipher with slots := [] } }

/-- A drive whose slot 10 has come to its limit. -/
def worn : State := { up with cipher := { up.cipher with slots := [(10, { slot 1 2 with ctr := 2 ^ 48 })] } }

def putCmd := cmd 0x02 (.write [⟨aKey, 0, .put [9], none⟩])

theorem wit_MutationsAreAdmitted :
    Ready up 0x02 putCap ∧ Ready up 0x03 (cap 0x03 0 1 2 aKey 0 0 0 0 []) ∧ Ready up 0x05 (cap 0x05 0 1 2 aKey 1 0 1 0 [9]) ∧
    Ready up 0x06 (cap 0x06 0 1 2 [] 24 0 0 1 ([1, 0, 0, 1] ++ [0, 0, 0, 1] ++ zeroBytes 8 ++ [7, 9] ++ zeroBytes 6)) ∧
    (Ready keyless 0x02 putCap ∧ keyUnavailable (due keyless putCap) 2 = some .keyLost) ∧
    (Ready worn 0x02 putCap ∧ keyUnavailable (due worn putCap) 2 = none ∧
      reserveCounter (admittedState (due worn putCap) 5 (parseCapsule putCap) false) 10 1 = none) ∧
    (keyUnavailable (due up putCap) 2 = none ∧ quaySlot (due up putCap) 2 = 10 ∧
      (reserveCounter (admittedState (due up putCap) 5 (parseCapsule putCap) false) 10 1).isSome = true) := by
  and_intros <;> decide +kernel

theorem wit_WritesRun :
    keyUnavailable keyless 2 = some .keyLost ∧
    (keyUnavailable up 2 = none ∧ failingEntry up 2 100 0 [⟨aKey, 0, .put [9], some 1⟩] = some (0, 0)) ∧
    (let ops := [⟨aKey, 0, .put [9], none⟩]
     keyUnavailable up 2 = none ∧ failingEntry up 2 100 0 ops = none ∧ putCmd.badSegs = [] ∧ postedAhead up 2 100 ops = false ∧
       ops.any opWrites = true ∧
       (placeOps putCmd (lostKeysOf up 100) 0 (ops.zip ((ops.map (entryVersion up 2 100)).zip (opCtrs putCmd.ctr ops))) up).isSome =
         true) ∧
    (let ops := [⟨aKey, 0, .check, some 0⟩]
     keyUnavailable up 2 = none ∧ failingEntry up 2 100 0 ops = none ∧ putCmd.badSegs = [] ∧ postedAhead up 2 100 ops = false ∧
       ops.any opWrites = false) ∧
    (newestItem (upWith [item .deletion []]).flash.items 2 aKey 51 = some (item .deletion [])) ∧
    (newestItem (upWith [item .value []]).flash.items 2 aKey 51 = some (item .value [])) ∧ putCmd.opcode ≠ 0x06 := by
  and_intros <;> decide +kernel

/-! A towline, a TOW and its destination. -/

def helloBody (berths : Nat) : HelloBody :=
  { random := 99, ephemeral := 1, onCurve := true, berths := berths, hflags := 0, maxPayload := 1024, reserved := 0 }

def towline : Towline :=
  { st := .open, source := true, peer := 0, peerId := 9, sendSlot := 30, recvSlot := 31, lastUse := 0, tp := tp, hello := helloBody 1, draw := 0, secrets := ([], []) }

def tow : Tow :=
  { csn := 100, berth := 5, tag := 1, quay := 2, dest := 9, destQuay := 2, towline := none, windowStart := 0, windowCsn := 100,
    windowKeys := 0, windowGranules := 0, keys := 0, granules := 0, firstCsn := 0, lastCsn := 0, nextSeq := 0, outstanding := [],
    toSend := [], pinned := [], badRecords := [], parity := [] }

def member : Member :=
  { st := .present, serial := 77, address := 2, mode := 1, space := 0, life := 100, fw := 1, seq := 0, at_ := 0, lostAt := 0, secondAt := 0 }

/-- A drive with a towline to drive 9. -/
def towed (t : Towline) : State := { up with harbour := { up.harbour with towlines := [(0, t)] } }

/-- A certificate of the drive's. -/
def cert : Cert :=
  { format := 1, role := 4, depth := 0, reservedZero := true, generation := 1, subject := 77, serial := 1, subjectKey := 5, issuerKey := 6,
    sigOk := true, bytes := zeroBytes 324 }

/-- A drive that knows drive 9 and can open a towline to it. -/
def canTow : State :=
  { up with harbour := { up.harbour with members := [(9, member)] }, flash := { up.flash with harbourCert := some cert } }

theorem wit_TowIsAdmitted :
    Ready up 0x09 (cap 0x09 0 1 2 [] 16 0 0 0x00020009 (zeroBytes 16)) ∧
    (towlineTo (towed towline) tow.dest = some (0, towline) ∧ towline.st = .open) ∧
    (towlineTo (towed { towline with st := .helloSent }) tow.dest = some (0, { towline with st := .helloSent })) ∧
    (towlineTo canTow tow.dest = none ∧ (openTowline canTow tow.dest).isOk = true) ∧
    (towlineTo up tow.dest = none ∧ (openTowline up tow.dest).isOk = false) := by and_intros <;> decide +kernel

/-- A legal quay block: committed mode, values up to 64 KiB, 1 GiB guaranteed, no limit. -/
def block : List Byte := zeroBytes 4 ++ beBytes 65536 4 ++ beBytes 1 4 ++ zeroBytes 20

theorem wit_QuayCommands :
    (Ready up 0x20 (cap 0x20 1 1 0 [] 32 0 0 0 ([2] ++ block.drop 1)) ∧ blockLegal ([2] ++ block.drop 1) = false) ∧
    (Ready up 0x20 (cap 0x20 1 1 0 [] 32 0 0 0 block) ∧ blockLegal block = true ∧ guaranteesFit up none block = true ∧
      (createTarget (due up (cap 0x20 1 1 0 [] 32 0 0 0 block)) (parseCapsule (cap 0x20 1 1 0 [] 32 0 0 0 block))).toOption = some 0 ∧
      up.cipher.locked = false ∧ up.cipher.entropyFailed = false ∧ lowestSlot up = some 0) ∧
    (Ready up 0x20 (cap 0x20 0 1 4095 [] 32 0 0 0 block) ∧ guaranteesFit up (some 4095) block = true ∧
      (createTarget up (parseCapsule (cap 0x20 0 1 4095 [] 32 0 0 0 block))).toOption = some 4095) ∧
    (4095 ≠ 2) ∧
    (Ready up 0x21 (cap 0x21 0 1 2 [] 32 0 0 0 ([2] ++ block.drop 1))) ∧
    (Ready up 0x21 (cap 0x21 0 1 3 [] 32 0 0 0 block) ∧ guaranteesFit up (some 3) block = true ∧ quayOpen up 3 = false) ∧
    (Ready up 0x21 (cap 0x21 0 1 2 [] 32 0 0 0 block) ∧ guaranteesFit up (some 2) block = true ∧ quayOpen up 2 = true) ∧
    (Ready up 0x22 (cap 0x22 0 1 3 [] 0 0 0 0 [])) ∧ (Ready up 0x22 (cap 0x22 0 1 2 [] 0 0 0 0 [])) ∧
    (plainPosted up 2 = [] ∧ tabGet up.flash.quays 2 = some quay ∧ 11 ≠ 10) := by and_intros <;> decide +kernel

/-- A rule of quay 2: Operator 7 may read keys that begin with a prefix of `k` zero bytes. -/
def ruleBody (k : Nat) : List Byte :=
  zeroBytes 4 ++ beBytes 2 2 ++ beBytes 1 2 ++ beBytes 7 8 ++ beBytes 1 2 ++ beBytes k 1 ++ zeroBytes 45

/-- A drive with rules of prefix lengths 0 to `n - 1`. -/
def ruled (n : Nat) : State :=
  { up with flash := { up.flash with
      rules := (List.range n).map (fun k => { id := k + 1, quay := 2, priority := 1, subject := 7, grants := 1, anySubject := false, pfx := zeroBytes k })
      topRule := n } }

theorem wit_RuleCommands :
    (Ready up 0x23 (cap 0x23 0 1 2 [] 64 0 0 0 (ruleBody 33)) ∧ ruleLegal (ruleBody 33) = false) ∧
    (Ready (ruled 4) 0x23 (cap 0x23 0 1 2 [] 64 0 0 0 (ruleBody 32)) ∧ ruleLegal (ruleBody 32) = true ∧
      4 ≤ (prefixLens (ruled 4) 2).length ∧ beAt (ruleBody 32) 18 1 ∉ prefixLens (ruled 4) 2) ∧
    (Ready (ruled 3) 0x23 (cap 0x23 0 1 2 [] 64 0 0 0 (ruleBody 32)) ∧ (prefixLens (ruled 3) 2).length < 4 ∧ quayOpen (ruled 3) 2 = true ∧
      (ruled 3).flash.rules.length < 65536 ∧ (ruled 3).flash.topRule + 1 ≤ 0xFFFFFFFF) ∧
    (Ready (ruled 4) 0x23 (cap 0x23 0 1 2 [] 64 0 0 0 (ruleBody 3)) ∧ beAt (ruleBody 3) 18 1 ∈ prefixLens (ruled 4) 2) ∧
    (tabGetD up.index.appendAt (2 % 2) 0 < 131072) ∧
    (Ready (ruled 1) 0x24 (cap 0x24 0 1 0 [] 0 0 0 1 []) ∧ ∃ r ∈ (ruled 1).flash.rules, r.id = 1) ∧
    (Ready up 0x24 (cap 0x24 0 1 0 [] 0 0 0 1 []) ∧ ∀ r ∈ up.flash.rules, r.id ≠ 1) ∧
    Ready (ruled 4) 0x25 (cap 0x25 0 1 0 [] 0 0 0 0x0100000001 []) := by and_intros <;> decide +kernel

/-- A drive whose berth has an outstanding tag 1 with CSN 100. -/
def tagged (committed : Bool) (cs : List Cmd) : State :=
  { up with cmds := cs, berths := [(5, { berth with tags := [⟨1, 100, committed⟩] })], seqr := { up.seqr with next := 101 } }

/-- The same for any further capsule of the berth. -/
abbrev ReadyTag (committed : Bool) (cs : List Cmd) (op : Nat) (bs : List Byte) : Prop :=
  Admitted (due (tagged committed cs) bs) 5 op { berthWith bs with tags := [⟨1, 100, committed⟩] } moor (parseCapsule bs)

def deferredBerth (overflow : Bool) : Berth :=
  { berth with overflow := overflow, deferreds := [⟨90, 63, 1, 2, 0x19, 0, true⟩] }

/-- A capsule at the head of a berth that holds a deferred error. -/
abbrev ReadyDeferred (overflow : Bool) (op : Nat) (bs : List Byte) : Prop :=
  Admitted (due { up with berths := [(5, deferredBerth overflow)] } bs) 5 op { deferredBerth overflow with sq := [⟨.a, bs⟩] } moor
    (parseCapsule bs)

theorem wit_BerthCommands :
    (Ready up 0x40 (cap 0x40 0 1 0 [] 0 0 0 0 []) ∧ Ready up 0x40 (cap 0x40 1 1 2 [] 0 0 0 0 []) ∧ Ready up 0x40 (cap 0x40 2 1 0 [] 0 0 0 0 [])) ∧
    Ready up 0x41 (cap 0x41 0 2 0 [] 0 0 0 1 []) ∧
    ReadyTag true [] 0x41 (cap 0x41 0 2 0 [] 0 0 0 1 []) ∧
    (ReadyTag false [putCmd] 0x41 (cap 0x41 0 2 0 [] 0 0 0 1 []) ∧ [putCmd].find? (fun x => x.csn == 100) = some putCmd) ∧
    (putCmd.transferred = false ∧ transferred (releaseWrite (dropPieces (tagged false [putCmd]) 100) putCmd false) 100 = false) ∧
    Ready up 0x42 (cap 0x42 0 1 0 [] 0 0 0 0 []) ∧ berthOf up 5 = some berth ∧
    (∃ t ∈ [(⟨1, 100, true⟩ : TagRec)], t.csn < 101) ∧ (∀ t ∈ [(⟨1, 101, true⟩ : TagRec)], 101 ≤ t.csn) ∧
    ReadyDeferred false 0x43 (cap 0x43 0 1 0 [] 0 0 0 0x0100 []) ∧ ReadyDeferred false 0x43 (cap 0x43 0 1 0 [] 0 0 0 0x403F []) ∧
    ReadyDeferred false 0x44 (cap 0x44 0 1 0 [] 0 0 0 1 []) ∧ ReadyDeferred false 0x44 (cap 0x44 1 1 0 [] 0 0 0 (2 ^ 63) []) ∧
    ReadyDeferred true 0x44 (cap 0x44 1 1 0 [] 0 0 0 (2 ^ 63) []) ∧
    deferredMask (deferredBerth true) = 2 ^ 63 := by and_intros <;> decide +kernel
/-- A drive with a log nonce, and one enabled root key in slot 0. -/
def rooted : State :=
  { up with log := { up.log with nonce := some { draw := 0, seq := 1, issuedAt := 1000000000 - 59999999 } }
            flash := { up.flash with otp := { up.flash.otp with roots := [some 11, none, none, none] } } }

def noKeys : State := { up with boot := { up.boot with keyStore := ⟨0, 0⟩ } }
def locked : State := { up with cipher := { up.cipher with locked := true }, flash := { up.flash with verifier := some [] } }

/-- A part of an update, a manifest, and the bytes of one. -/
def part : PartEntry :=
  { partId := 2, pflags := 0, version := 1, deltaOffset := 0, deltaLength := 4, baseDigest := 0, resultDigest := 0 }

def manifest : Manifest :=
  { hwType := 0x9256, revMin := 0x41, revMax := 0x5A, secVersion := 1, cold := false, atPowerOn := false, raiseFloor := false,
    release := 2, parts := [part], serials := [], rootSlot := 0, deltaTotal := 4, digest := 5, bytes := zeroBytes 340 }

def manifestBytes : List Byte :=
  leBytes 0x4D464B39 4 ++ leBytes 1 2 ++ leBytes 0x9256 2 ++ [0x41, 0x5A, 1, 0] ++ leBytes 2 4 ++ [1, 0, 0, 0] ++ leBytes 4 4 ++
    zeroBytes 8 ++ ([2, 0] ++ zeroBytes 10 ++ leBytes 4 4 ++ zeroBytes 96) ++ zeroBytes 196

/-- A drive with an update in a state. -/
def updating (st : UpState) (ph : SwitchPhase) : State :=
  { up with update := { up.update with
      st := st
      phase := ph
      owner := 1
      manifest := some manifest
      staged := 4
      lastAccepted := 400000000
      cohort := 3
      switchMs := 10000
      deadline := 1000000000
      switchAt := 1000000000
      barrierAt := 1000000000 } }

theorem wit_ManagementCommands :
    (Ready up 0x50 (cap 0x50 0 1 0 [] 0 0x1FFC 0 2 []) ∧ readStatus 0x1FFC 2 ≠ none) ∧
    (Ready up 0x50 (cap 0x50 0 1 0 [] 0 0x1000 0 64 []) ∧ readStatus 0x1000 64 = none) ∧
    (let s := { up with phase := 1 }
     let bs := cap 0x50 0 1 0 [] 0 0x1FFC 0 1 []
     Admissible (due s bs) 5 0x50 (berthWith bs) moor (parseCapsule bs) ∧ serviceOpen (due s bs) = false ∧ readStatus 0x1FFC 1 = none) ∧
    Ready up 0x51 (cap 0x51 0 1 0 [] 4 A.MO_IDLE_TMO 0 1 (beBytes 600 4)) ∧
    (writeVerdict up 0 1 1 A.MO_IDLE_TMO [600] = none ∧ writeVerdict up 0 1 1 A.MO_IDLE_TMO [601] = some (A.MO_IDLE_TMO, .range, false)) ∧
    Ready up 0x52 (cap 0x52 0 1 0 [] 0 0 0 0 []) ∧
    up.flash.chunk = some 0 ∧
    (let s := { up with seqr := { up.seqr with next := 2 ^ 23 } }
     s.flash.chunk = some 0 ∧ 0 * 2 ^ 24 + 2 ^ 23 ≤ s.seqr.next) := by and_intros <;> decide +kernel

theorem wit_LogAndIdentityCommands :
    Ready up 0x53 (cap 0x53 0 1 0 [] 4096 0 0 16384 []) ∧
    (Ready up 0x54 (cap 0x54 0 1 0 [] 196 0 0 0 (zeroBytes 196)) ∧ up.log.nonce = none) ∧
    (let s := { rooted with sessionUs := 1000000001 }
     Ready s 0x54 (cap 0x54 0 1 0 [] 196 0 0 0 (zeroBytes 196)) ∧ ∀ x, s.log.nonce = some x → x.issuedAt + 60000000 ≤ s.sessionUs) ∧
    (Ready rooted 0x54 (cap 0x54 0 1 0 [] 196 0 0 0 (zeroBytes 196)) ∧ rooted.log.nonce = some ⟨0, 1, 940000001⟩ ∧
      rooted.sessionUs < 940000001 + 60000000 ∧ (∀ r ∈ enabledRoots rooted, r.2 ≠ 12)) ∧
    (rooted.log.media ≠ 3 ∧ (enabledRoots rooted).find? (fun r => r.2 == 11) = some (0, 11)) ∧
    (Ready up 0x55 (cap 0x55 0 1 0 [] 32 0 0 0 (zeroBytes 32)) ∧ keysPresent up = true) ∧
    (Ready noKeys 0x55 (cap 0x55 0 1 0 [] 32 0 0 0 (zeroBytes 32)) ∧ keysPresent noKeys = false) ∧
    (Ready up 0x56 (cap 0x56 0 1 0 [] 32 0 0 0 (zeroBytes 32)) ∧ up.cipher.locked = false) ∧
    (Ready locked 0x56 (cap 0x56 0 1 0 [] 32 0 0 0 (zeroBytes 32)) ∧ locked.cipher.meshTripped = false ∧ locked.cipher.locked = true ∧
      locked.flash.verifier.isSome = true ∧ locked.cipher.alarm ≠ .settle) ∧
    (Ready up 0x57 (cap 0x57 0 1 0 [] 8 0 0 2 ([8] ++ zeroBytes 7)) ∧
      otpStatus up (parseCapsule (cap 0x57 0 1 0 [] 8 0 0 2 ([8] ++ zeroBytes 7))) = some .range) ∧
    (Ready up 0x57 (cap 0x57 0 1 0 [] 8 0 0 2 ([7] ++ zeroBytes 7)) ∧
      otpStatus up (parseCapsule (cap 0x57 0 1 0 [] 8 0 0 2 ([7] ++ zeroBytes 7))) = none) ∧
    (Ready up 0x57 (cap 0x57 0 1 0 [] 52 0 0 1 ([3] ++ zeroBytes 3 ++ beBytes 6 48)) ∧
      otpStatus up (parseCapsule (cap 0x57 0 1 0 [] 52 0 0 1 ([3] ++ zeroBytes 3 ++ beBytes 6 48))) = none) := by
  and_intros <;> decide +kernel

def openCap (keep : Nat) := cap 0x58 keep 1 0 [] 340 0 0 0 manifestBytes
def armCap := cap 0x5C 0 1 0 [] 0 60 0 (10000 * 2 ^ 32 + 3) []

theorem wit_UpdateCommands :
    (Ready (updating .armed .none) 0x58 (openCap 0) ∧
      upOpenStatus (due (updating .armed .none) (openCap 0)) 1 (parseCapsule (openCap 0)) = some .state) ∧
    (Ready up 0x58 (openCap 0) ∧ upOpenStatus (due up (openCap 0)) 1 (parseCapsule (openCap 0)) = none) ∧
    (Ready (updating .staged .none) 0x58 (openCap 1) ∧
      upOpenStatus (due (updating .staged .none) (openCap 1)) 1 (parseCapsule (openCap 1)) = none) ∧
    (let bs := cap 0x59 0 1 0 [] 1 4 0 0 [1]
     Ready (updating .staging .none) 0x59 bs ∧ upWriteStatus (updating .staging .none) 1 (parseCapsule bs) = some .badLength) ∧
    (let s := { updating .staging .none with update := { (updating .staging .none).update with staged := 3 } }
     let bs := cap 0x59 0 1 0 [] 1 3 0 0 [1]
     Ready s 0x59 bs ∧ upWriteStatus s 1 (parseCapsule bs) = none) ∧
    (Ready up 0x5A (cap 0x5A 0 1 0 [] 0 0 0 0 []) ∧ upCommitStatus up 1 = some .state) ∧
    (Ready (updating .staging .none) 0x5A (cap 0x5A 0 1 0 [] 0 0 0 0 []) ∧ upCommitStatus (updating .staging .none) 1 = none ∧
      (updating .staging .none).update.manifest = some manifest) ∧
    (Ready up 0x5B (cap 0x5B 0 1 0 [] 0 0 0 0 []) ∧ upAbandonStatus up 1 = some .state) ∧
    (Ready (updating .staging .none) 0x5B (cap 0x5B 0 1 0 [] 0 0 0 0 []) ∧ upAbandonStatus (updating .staging .none) 1 = none) ∧
    (Ready (updating .armed .none) 0x5B (cap 0x5B 0 1 0 [] 0 0 0 0 []) ∧ upAbandonStatus (updating .armed .none) 1 = none) ∧
    (Ready up 0x5C armCap ∧ upArmStatus up = some .state) ∧
    (Ready (updating .staged .none) 0x5C armCap ∧ upArmStatus (updating .staged .none) = none) ∧
    (Ready (updating .armed .none) 0x5D (cap 0x5D 0 1 0 [] 0 0 0 0 []) ∧ (updating .armed .none).update.st = .armed) ∧
    (Ready up 0x5D (cap 0x5D 0 1 0 [] 0 0 0 0 []) ∧ up.update.st ≠ .armed) ∧
    Ready (updating .armed .none) 0x5E (cap 0x5E 0 1 0 [] 0 0 0 3 []) ∧
    (let s := { updating .armed .none with sessionUs := 999999999 }
     s.update.st = .armed ∧ s.update.cohort = 3 ∧ s.sessionUs < s.update.deadline ∧ s.pstate.cur < 2) ∧
    ((updating .preparing .none).update.st ≠ .armed ∧ activating (updating .preparing .none) = true ∧ (updating .preparing .none).update.cohort = 3) ∧
    (up.update.st ≠ .armed ∧ activating up = false) := by and_intros <;> decide +kernel

/-- What Prepare finds of a staged set, whose bytes can be read or not. -/
def report (readable : Bool) : ApplyReport :=
  { readable := readable, imageFail := none, handoverOk := true, programOk := true, roles := none, newSchema := 1 }

/-- The drive of `updating`, before the switch time. -/
def preparing : State := { updating .preparing .none with sessionUs := 999999999 }

/-- A set of one whole image of part 2, of no bytes, whose delta is END alone, and the drive that prepares it, with its key in
ROOT slot 0. -/
def whole : Manifest := { manifest with parts := [{ part with pflags := 1, deltaLength := 1, resultDigest := Config.sha384 [] }] }

def preparingWhole : State :=
  { preparing with
    update := { preparing.update with manifest := some whole }
    flash := { up.flash with
      deltas := [0]
      otp := { up.flash.otp with roots := [some (Config.sha384 (manifestKey whole)), none, none, none] } } }

/-- Where the set's signature verifies, which no drive can say of bytes it does not know, every check of R415 passes. -/
theorem wit_applies (h : manifestSigOk whole = true) : applyStatus preparingWhole whole (report true) true = none := by
  have h1 : (rootSlots preparingWhole).getD whole.rootSlot none = some (Config.sha384 (manifestKey whole)) := rfl
  have h2 : deltaFail preparingWhole whole.parts = none := by
    show (if Config.sha384 [] = Config.sha384 [] then none else some 2) = none
    rw [if_pos rfl]
  have h3 : newBaseStatus preparingWhole whole (report true) = none := rfl
  have h4 : bit (installedRoots preparingWhole) whole.rootSlot = true := by decide +kernel
  have h5 : baseMismatch preparingWhole whole.parts = none := rfl
  unfold applyStatus
  rw [h1, h, h2, h3, h4, h5, if_neg (by decide), if_neg (by simp), if_neg (by decide), if_neg (by decide)]
  rfl

theorem wit_UpdateStages :
    (let s := updating .staging .none
     s.update.st = .staging ∧ s.update.lastAccepted + 600000000 ≤ s.sessionUs) ∧
    (let s := updating .armed .none
     s.update.st = .armed ∧ s.update.deadline ≤ s.sessionUs) ∧
    (preparing.update.st = .preparing ∧ preparing.update.manifest = some manifest ∧ preparing.sessionUs < preparing.update.switchAt ∧
      applyStatus preparing manifest (report false) true = some (.media, 0)) ∧
    (let s := updating .preparing .none
     s.update.manifest = some manifest ∧ s.update.switchAt ≤ s.sessionUs ∧ s.update.st = .preparing) ∧
    (let s := updating .prepared .none
     s.update.manifest = some manifest ∧ s.update.switchAt ≤ s.sessionUs ∧ s.update.st = .prepared) ∧
    (let s := { updating .switching .draining with update := { (updating .switching .draining).update with sealed := true } }
     s.update.phase = .draining ∧ s.update.manifest = some manifest ∧ s.update.sealed = true ∧ allComplete s = true ∧
       s.sessionUs ≤ s.update.barrierAt + 1000 * fieldOf s A.UP_BUDGET 9 0) ∧
    (let s := { updating .switching .draining with sessionUs := 1000000000 + 1000 * fieldOf up A.UP_BUDGET 9 0 }
     s.update.phase = .draining ∧ s.update.manifest = some manifest ∧
       s.update.barrierAt + 1000 * fieldOf s A.UP_BUDGET 9 0 ≤ s.sessionUs) ∧
    ((updating .switching .committed).update.phase = .committed ∧ (updating .switching .committed).update.manifest = some manifest ∧
      (∃ e ∈ manifest.parts, e.partId = 2) ∧ ¬∃ e ∈ manifest.parts, e.partId = 3) ∧
    (let m := { manifest with parts := [{ part with partId := 3 }] }
     (∃ e ∈ m.parts, e.partId = 3) ∧ ∃ d ∈ ({ up with dies := [(0, { Die.fresh with op := 2 })] } : State).dies, d.2.op ≠ 0) ∧
    ((updating .switching .reverting).update.phase = .reverting ∧ (updating .switching .reverting).update.manifest = some manifest) := by
  and_intros <;> decide +kernel
/-! #### Flash -/

def piece : Piece :=
  { kind := .record, csn := 100, entry := 0, posted := true, units := 2, first := 0, bytes := zeroBytes 128, fails := 0 }

/-- Landing page 0, on die 16 (stripe position 1 of stripe 0), in set 0. -/
def page (closed : Bool) : LandingPage :=
  { die := 16, setId := 0, row := 0, firstAt := 1000000000 - 12, free := 200, closed := closed, pieces := [piece] }

def set0 : StripeSet :=
  { pool := .landing, blocks := (List.range 16).map (fun k => 65536 * k), isOpen := true, rows := 1, closedAt := 0, units := 0, packed := [],
    refreshDue := none, sweepPending := false, moving := false, moved := [], ckptNeeded := 0, topCsn := 0 }

/-- A drive with an open landing page. -/
def landing (closed : Bool) (is : List Item) : State :=
  { up with
    space := { up.space with pages := [(0, page closed)], nextPage := 1 }
    flash := { up.flash with sets := [(0, set0)], items := is } }

/-- A posted item with a CSN. -/
def posted (csn : Nat) (marked : Bool) : Item :=
  { item .value [1] with csn := csn, pseq := csn, durable := false, marked := marked, landed := true }

theorem wit_LandingCommands :
    (tabGet (landing false []).space.pages 0 = some (page false) ∧ (page false).closed = false ∧ live (landing false []) = true ∧
      (landing false []).power.holdUpReady = true ∧ pageCloses (landing false []) 0 (page false) = true ∧
      lowerOpen (landing false []) (page false) = false ∧ dieTakes (landing false []) (page false).die = true ∧
      dieNext (landing false []) (page false).die = some 1 ∧ (1 : Nat) ≠ 0 ∧ (17 : Nat) ≠ 16) ∧
    (State.reset.power.holdUpReady = false) ∧
    (tabGet (landing true []).space.pages 0 = some (page true) ∧ (page true).closed = true ∧ live (landing true []) = true ∧
      (blockOf (landing true []) (pageBlock (landing true []) (page true))).firstCycle = true ∧ (32 : Nat) ≤ 32 ∧ (32 : Nat) < 33) ∧
    (let s := { landing true [] with flash := { (landing true []).flash with blocks := [(65536, { Block.fresh with firstCycle := false })] } }
     (blockOf s (pageBlock s (page true))).firstCycle = false) ∧
    (piece.kind = .record ∧ pieceLeft (landing true []) .record piece.csn piece.entry = true) ∧
    (piece.kind = .record ∧ piece.posted = true ∧ pieceLeft up .record piece.csn piece.entry = false ∧
      ∀ i ∈ (upWith [posted 100 false]).flash.items, i.csn = piece.csn → i.marked = false) ∧
    (({ piece with kind := PieceKind.commitMarker } : Piece).kind = .commitMarker ∧ piece.posted = true) ∧
    tabGet (landing true []).flash.sets (page true).setId = some set0 := by
  and_intros <;> decide +kernel

/-- A page of zeros at position 1 of row 0 of set 0, alone in its row: the parity page is yet to come. -/
def zeros : Page := { data := List.replicate 16384 0, code := [], ident := [] }

def rowed : State := { up with flash := { up.flash with sets := [(0, set0)], pages := [(rowPage set0 0 1, zeros)] } }

theorem wit_rebuilt : (1 : Nat) < 16 ∧ (1 : Nat) ≠ 0 % 16 ∧
    (∀ p < 16, ∀ z, tabGet rowed.flash.pages (rowPage set0 0 p) = some z → z.data.length = 16384) ∧
    (∀ z, tabGet rowed.flash.pages (rowPage set0 0 (0 % 16)) = some z → z.data = rowParity rowed set0 0) ∧
    tabGet rowed.flash.pages (rowPage set0 0 1) = some zeros := by
  have one : ∀ k z, tabGet rowed.flash.pages k = some z → k = rowPage set0 0 1 ∧ z = zeros := by
    intro k z h
    have e : tabGet rowed.flash.pages k = if rowPage set0 0 1 = k then some zeros else none := rfl
    rw [e] at h
    split at h
    · next hk => exact ⟨hk.symm, (Option.some.inj h).symm⟩
    · cases h
  refine ⟨by decide, by decide, ?_, ?_, ?_⟩
  · intro p _ z h; rw [(one _ z h).2]; exact List.length_replicate
  · intro z h; exact absurd (one _ z h).1 (by decide)
  · show (if rowPage set0 0 1 = rowPage set0 0 1 then some zeros else none) = _; rw [if_pos rfl]

/-- Of two posted writes, the first awaits its commit marker: neither becomes durable; with it there, both do. -/
theorem wit_DurabilityIsAPrefix :
    durablePrefix (sortBy Item.csn (undurable (upWith [posted 60 false, posted 59 true]))) = [] ∧
    durablePrefix (sortBy Item.csn (undurable (upWith [posted 60 false, { posted 59 true with commit := true }]))) =
      [{ posted 59 true with commit := true }, posted 60 false] := by decide +kernel

/-- A drive with one die in a state. -/
def withDie (d : Nat) (x : Die) : State := { up with dies := [(d, x)] }

def die (op : Nat) : Die := { Die.fresh with op := op, queuedReads := 1, suspendedAt := 1000000000 }

/-- A drive whose activation has fired, with a diagnostic read of channel 0 and a test of engine 0 held, or without. -/
def firedTests (held : List Nat) : State :=
  let s := updating .prepared .none
  { s with update := { s.update with held := held } }

theorem wit_barrier :
    up.seqr.barrier = false ∧ ({ up with seqr := { up.seqr with barrier := true } } : State).seqr.barrier = true ∧
    (activating (firedTests [64, 0]) = true ∧ 64 + 0 ∈ (firedTests [64, 0]).update.held ∧ 0 ∈ (firedTests [64, 0]).update.held) ∧
    (64 + 0 ∉ (firedTests []).update.held ∧ 0 ∉ (firedTests []).update.held) := by decide +kernel

theorem wit_DieCommands :
    (live (withDie 3 (die 6)) = true ∧ (dieOf (withDie 3 (die 6)) 3).op = 6) ∧ (dieOf (withDie 3 (die 4)) 3).op = 4 ∧
    (let s := withDie 1023 { die 5 with runSince := 1000000000 - fieldOf up (fcBase 63 + 0xA0) 31 16 }
     (dieOf s 1023).op = 5 ∧ (dieOf s 1023).suspends < fieldOf s (fcBase (chanOf 1023) + 0xA0) 4 0 ∧
       (dieOf s 1023).runSince + fieldOf s (fcBase (chanOf 1023) + 0xA0) 31 16 ≤ s.sessionUs) ∧
    ((dieOf (withDie 0 (die 3)) 0).op = 3 ∧ (dieOf (withDie 0 (die 3)) 0).suspends < fieldOf up (fcBase (chanOf 0) + 0xA0) 10 8) ∧
    (dieOf (withDie 3 { die 6 with queuedReads := 0 }) 3).queuedReads = 0 ∧
    16 ≤ (dieOf (withDie 3 { die 6 with readsServed := 16 }) 3).readsServed ∧
    (dieOf (withDie 3 { die 6 with suspendedAt := 999999600 }) 3).suspendedAt + 400 ≤ up.sessionUs ∧
    (live up = true ∧ readServed up 1023 4095 = true ∧ readWaits up 4194303 9 = false) ∧
    ((dieOf (withDie 3 (die 5)) 3).op = 5 ∧ maySuspend (withDie 3 { die 5 with runSince := 1000000000 }) 3 = false) ∧
    ((dieOf up (dieOfBlock 5)).st = 0 ∧ 1 < readLimit up 5 ∧ (blockOf up 5).reads = 0) ∧
    (let s := withDie 1023 { die 5 with plane := 3, block := 1023 }
     live s = true ∧ (dieOf s (dieOfBlock 4194303)).op = 5 ∧ (dieOf s (dieOfBlock 4194303)).plane = 4194303 / 1024 % 4 ∧
       (dieOf s (dieOfBlock 4194303)).block = 4194303 % 1024) ∧
    (let s := { withDie 7 { die 0 with calDue := true } with poweredUs := 1 }
     calibrationDue s 7 = true ∧ calGrant (updDie s 7 (fun x => { x with calDue := true })) 7 = true) ∧
    (let s := withDie 7 { die 1 with calDue := true }
     calibrationDue s 7 = true ∧ calGrant (updDie s 7 (fun x => { x with calDue := true })) 7 = false) ∧
    (live (withDie 7 { die 7 with st := 2 }) = true ∧ (dieOf (withDie 7 { die 7 with st := 2 }) 7).st = 2) ∧
    (let s := regSet up (fcBase 63 + 0xC4) 0x80000000
     live s = true ∧ bit (regGet s (fcBase 63 + 0xC4)) 31 = true ∧
       readServed s (dieOfBlock (diagBlock s 63)) (diagBlock s 63 % 4096) = true ∧ readWaits s (diagBlock s 63) 9 = false) := by and_intros <;> decide +kernel

/-! #### Careening -/

/-- A worn block 4095 of die 1023. -/
def wornOut : State :=
  { up with flash := { up.flash with blocks := [(4194303, { Block.fresh with wear := fieldOf up A.CA_TRIGGER 15 0 })] } }

/-- A sensor that reads a temperature, in 0.1 °C. -/
def reads (t : Int) : Sensor := { Sensor.fresh true 0 with median := some t }

/-- A dock in a phase. -/
def dock (phase : Nat) : Dock := { Dock.fresh with phase := phase }

def withDock (d : Nat) (k : Dock) : State := { up with careen := { up.careen with docks := [(d, k)] } }

/-- Die 0 asks for dry dock, and it and its neighbours are cool. -/
def asking : State := { withDock 0 (dock 1) with sensors := [(sensorKey 2 0, reads 300), (sensorKey 2 2, reads 300)] }

/-- A die in dry dock whose heater's sensor reads `t`. -/
def heated (k : Dock) (t : Int) : State := { withDock 3 k with sensors := [(sensorKey 3 12, reads t)] }

/-- A die whose heater's sensor has failed. -/
def sensorless : State := { withDock 3 (dock 4) with sensors := [(sensorKey 3 12, { reads 300 with failed := true })] }

theorem wit_DryDockPhases :
    (live wornOut = true ∧ serviceOpen wornOut = true ∧ activating wornOut = false ∧
      firstDue wornOut = some (255, fieldOf up A.CA_TRIGGER 15 0) ∧ wornOut.careen.campaigns.length < fieldOf wornOut A.CA_CTRL 22 16 ∧
      wornOut.space.state = 0 ∧ paused wornOut = false) ∧
    firstDue up = none ∧ ({ wornOut with space := { wornOut.space with state := 1 } } : State).space.state ≠ 0 ∧
    paused (regSet wornOut A.CA_CTRL 0x80000000) = true ∧
    (live asking = true ∧ activating asking = false ∧ dockGrant (reviewCampaigns asking) 0 = true) ∧
    dockGrant (reviewCampaigns up) 0 = false ∧
    (let s := withDock 3 { dock 2 with since := 999998000 }
     live s = true ∧ (dockOf s 3).phase = 2 ∧ (dockOf s 3).since + 2000 ≤ s.sessionUs) ∧
    (withDock 3 { dock 2 with since := 999998001 }).sessionUs < (dockOf (withDock 3 { dock 2 with since := 999998001 }) 3).since + 2000 ∧
    ((dockOf (heated (dock 3) 4500) 3).phase = 3 ∧ heaterAtLeast (heated (dock 3) 4500) 12 (fieldOf up A.CA_ANNEAL 27 16) = true ∧
      heaterAtLeast (heated (dock 3) 300) 12 (fieldOf up A.CA_ANNEAL 27 16) = false) ∧
    (let s := withDock 3 { dock 3 with since := 999949999 }
     (dockOf s 3).phase = 3 ∧ (dockOf s 3).since + 50000 < s.sessionUs ∧ (dockOf s 3).overran = false) ∧
    (let s := withDock 3 { dock 4 with since := 1000000000 - 12000 * fieldOf up A.CA_ANNEAL 15 8 }
     (dockOf s 3).phase = 4 ∧ (dockOf s 3).since + 12000 * fieldOf s A.CA_ANNEAL 15 8 ≤ s.sessionUs) ∧
    ((dockOf (heated (dock 5) 1000) 3).phase = 5 ∧ heaterAtMost (heated (dock 5) 1000) 12 1000 = true ∧
      heaterAtMost (heated (dock 5) 1001) 12 1000 = false ∧ sensorDown (heated (dock 5) 1001) (sensorKey 3 12) = false) ∧
    (let s := withDock 3 { dock 5 with since := 999919999 }
     (dockOf s 3).phase = 5 ∧ (dockOf s 3).since + 80000 < s.sessionUs ∧ (dockOf s 3).overran = false) ∧
    (let s := withDock 3 { dock 6 with since := 999996000 }
     (dockOf s 3).phase = 6 ∧ (dockOf s 3).since + 4000 ≤ s.sessionUs) ∧
    (2 ≤ (dockOf sensorless 3).phase ∧ (dockOf sensorless 3).phase ≤ 4 ∧ abortHolds sensorless 3 .sensorFailed = true ∧
      AbortCause.sensorFailed ≠ .overTemp) ∧
    (let s := withDock 3 { dock 0 with aborted := true, retryAt := 1000000000 }
     live s = true ∧ activating s = false ∧ paused s = false ∧ (dockOf s 3).aborted = true ∧ (dockOf s 3).phase = 0 ∧
       (dockOf s 3).retryAt ≤ s.sessionUs ∧ emergency s = false ∧ sensorDown s (sensorKey 3 (dockPlane s 3)) = false) := by
  and_intros <;> decide +kernel

/-- A drive with set 0 closed, due for refresh. -/
def refreshing : State :=
  { up with flash := { up.flash with sets := [(0, { set0 with isOpen := false, refreshDue := some 15 })] } }

def surveying : State :=
  { up with careen := { up.careen with survey := { up.careen.survey with
      active := true
      work := [(7, 4095)] } } }

theorem wit_VerifyAndSurvey :
    (live (withDock 3 (dock 7)) = true ∧ (dockOf (withDock 3 (dock 7)) 3).phase = 7 ∧ nextVerify (withDock 3 (dock 7)) 3 = some 0) ∧
    nextVerify (withDock 3 { dock 7 with next := 1023 }) 3 = some 1023 ∧
    nextVerify (withDock 3 { dock 7 with next := 1024 }) 3 = none ∧
    ((0 : Nat) < 576 ∧ (575 : Nat) < 576 ∧ 576 ≤ 576 ∧ 574 ≤ 575 ∧ 575 < 576) ∧
    (let s := { up with careen := { up.careen with lifeAt := 940000000 } }
     live s = true ∧ s.boot.readySpace = true ∧ s.careen.lifeAt + 60000000 ≤ s.sessionUs) ∧
    (tabGet refreshing.flash.sets 0 = some { set0 with isOpen := false, refreshDue := some 15 } ∧ live refreshing = true ∧
      serviceOpen refreshing = true ∧ 15 < 16) ∧
    ([96].all (fun n => decide (n ≤ 96)) = true) ∧
    (0 < patrolMirror ∧ patrolNext refreshing = some 0 ∧ patrolNext refreshing ≠ some 1) ∧
    (let s := { refreshing with poweredUs := 86400000000 * fieldOf up A.CA_PATROL 23 16
                                flash := { refreshing.flash with patrolAt := patrolMirror + 4194303 }
                                careen := { refreshing.careen with patrolCount := 1, patrolStart := 0 } }
     patrolNext s = some 0 ∧ 0 < s.careen.patrolCount ∧ 0 ≤ s.flash.patrolAt) ∧
    (live surveying = true ∧ serviceOpen surveying = true ∧ surveying.careen.survey.active = true ∧
      (7, 4095) ∈ surveying.careen.survey.work ∧ (7, 4094) ∉ surveying.careen.survey.work) ∧
    600000000 ≤ up.sessionUs := by and_intros <;> decide +kernel
/-! #### The index and the space -/

def chain (dirty : Option Nat) (used : Nat) : Chain :=
  { leaves := [{ entries := [], dirty := dirty.isSome }], dirtySince := dirty, cleanCsn := 10, generation := 1, pending := [], readers := [],
    fetching := false, usedAt := used }

/-- A drive with a leaf on flash for bucket 0, and chains of buckets in cache set 0. -/
def cached (cs : Tab Chain) : State :=
  { up with index := { up.index with chains := cs, dir := [(0, 7)] }, flash := { up.flash with leaves := [(0, [leaf])] } }

/-- Four chains in cache set 0, the one used longest ago dirty or clean. -/
def full (dirty : Option Nat) : State :=
  cached [(12000000, chain dirty 1), (24000000, chain none 2), (36000000, chain none 3), (48000000, chain none 4)]

/-- An open set of the index pool. -/
def indexSet : State :=
  { cached [(0, chain (some 0) 1)] with flash := { up.flash with sets := [(5, { set0 with pool := .index })] } }

/-- A drive long powered, with the index on. -/
def aged : State := { up with poweredUs := 2 ^ 62, index := { up.index with powered := true } }

def testing : State := { aged with index := { aged.index with test := some { bank := 0, target := 1 } } }

theorem wit_IndexCommands :
    (live (cached []) = true ∧ (cached []).boot.readySpace = true ∧ (fetched (cached []) 0).isSome = true ∧
      (fetched (cached []) 0).map waysOf = some 1 ∧ (makeRoom 5 (cached []) (0 % cacheSets) 1).isSome = true ∧
      (makeRoom 5 (full (some 5)) (0 % cacheSets) 1).isSome = false) ∧
    (waysIn (cached []) (0 % cacheSets) + 4 ≤ 4 ∧ 4 < waysIn (full none) (0 % cacheSets) + 1 ∧
      evictable (full none) (0 % cacheSets) = some (12000000, chain none 1) ∧
      evictable (full (some 5)) (0 % cacheSets) = some (12000000, chain (some 5) 1)) ∧
    ((24000000, chain none 2) ∈ framesIn (full none) (0 % cacheSets)) ∧
    (∀ l ∈ (chain none 1).leaves, ∀ e ∈ l.entries, quayErasing up e.quay = false) ∧
    (tabGet indexSet.index.chains 0 = some (chain (some 0) 1) ∧ live indexSet = true ∧ indexSet.power.holdUpReady = true ∧
      (chain (some 0) 1).fetching = false ∧ writebackDue indexSet 0 (chain (some 0) 1) = true ∧
      (roomIn indexSet .index 64).map Prod.snd = some 5) ∧
    ((∃ l ∈ (chain none 1).leaves, l.entries.length < 100) ∧ (∀ l ∈ ([] : List Leaf), 100 ≤ l.entries.length)) ∧
    (let s := { up with index := { up.index with hot := [(131072 * 30 + 131071, ⟨2, 0, 0, [], 50, true⟩)] } }
     live s = true ∧ s.boot.readyUnits = true ∧ 1 ≤ s.index.banks.getD 30 0 ∧ entryAt s 30 131071 = true ∧
       scrubDue s 30 (131072 * 30 + 131071) = true ∧
       (let u := strikeCell s (131072 * 30 + 131071) 1
        cellAt u (131072 * 30 + 131071) ≠ tableCell s (131072 * 30 + 131071)) ∧
       (let v := { s with index := { s.index with scrubbed := [(131072 * 30 + 131071, 0)] } }
        scrubDue v 30 (131072 * 30 + 131071) = false)) ∧
    (live testing = true ∧ testing.boot.readyUnits = true ∧ testing.index.powered = true ∧ activating testing = false ∧
      testing.index.test = some ⟨0, 1⟩ ∧ testing.index.banks.getD 0 0 ≠ 5) ∧
    (live aged = true ∧ aged.boot.readyUnits = true ∧ aged.index.powered = true ∧ activating aged = false ∧ aged.index.test = none ∧
      testDue aged = true ∧ (startBankTest aged).index.test.isSome = true ∧
      ∀ t, (startBankTest aged).index.test = some t → (startBankTest aged).index.banks.getD t.bank 0 ≠ 5) ∧
    (let s := { testing with index := { testing.index with banks := testing.index.banks.set 0 5 } }
     live s = true ∧ s.index.test = some ⟨0, 1⟩ ∧ s.index.banks.getD 0 0 = 5) ∧
    (let s := updEngine up 15 (fun e => { e with testing := true })
     live s = true ∧ (engineOf s 15).testing = true ∧ engineCmds s 15 = []) := by and_intros <;> decide +kernel

def closedSet : StripeSet := { set0 with isOpen := false, pool := .landing }

/-- A drive with one closed set of a pool. -/
def withSet (x : StripeSet) (is : List Item) : State :=
  { up with flash := { up.flash with sets := [(0, x)], items := is } }

/-- A drive that is short of free blocks. -/
def short : State :=
  { withSet { closedSet with pool := .warehouse } [] with flash := { (withSet { closedSet with pool := .warehouse } []).flash with
      freeBlocks := 100 } }

def moved : StripeSet := { closedSet with moving := true }

theorem wit_SpaceCommands :
    (foldNext (withSet closedSet []) = some (0, closedSet) ∧ live (withSet closedSet []) = true ∧ serviceOpen (withSet closedSet []) = true ∧
      allApplied (withSet closedSet []) 0 = true) ∧
    (freeQuays (walkErasing (reviewDredging up))).space.dredging = false ∧
    (let u := freeQuays (walkErasing (reviewDredging short))
     u.space.dredging = true ∧ dredgeBusy u = false ∧ dredgeVictim u = some 0) ∧
    (let s := { withSet moved [item .value [1]] with index := { up.index with chains := [(0, chain none 1)] } }
     (validOn s 0).find? (fun i => i.csn == 50 && i.entry == 0 && !itemUnread i) = some (item .value [1]) ∧ live s = true ∧
       s.power.holdUpReady = true ∧ setMoves s 0 = true ∧ leafCached s (item .value [1]) = true) ∧
    (sweepEpoch (withSet moved [item .value [1]]) (item .value [1]) = none ∧
      (roomIn (withSet moved [item .value [1]]) .warehouse (itemUnits (item .value [1]))).isSome = true) ∧
    (tabGet (withSet moved []).flash.sets 0 = some moved ∧ live (withSet moved []) = true ∧ mayDissolve (withSet moved []) 0 moved = true) ∧
    (let x := { closedSet with sweepPending := true }
     tabGet (withSet x []).flash.sets 0 = some x ∧ live (withSet x []) = true ∧ x.sweepPending = true) ∧
    (let s := { up with space := { up.space with ckptAt := 998000000 } }
     live s = true ∧ s.power.holdUpReady = true ∧ s.boot.readySpace = true ∧ s.space.ckpt = none ∧ ckptOver s = false ∧ ckptDue s = true) ∧
    (let k : Ckpt := { begunAt := 0, csn := 100, horizon := 100, durablePseq := 0, clean := false, mount := false, preUsed := []
                       tables := tablesNow up }
     let s := { up with space := { up.space with ckpt := some k } }
     live s = true ∧ s.space.ckpt = some k) := by and_intros <;> decide +kernel
/-! #### The tide, the cipher -/

/-- Sensor 3 of class 2 has read 300 twice more; and has failed. -/
def warm : Sensor := { reads 300 with samples := [300, 300, 300] }
def failed : Sensor := { reads 300 with failed := true, goodSince := some 999000000, lastGood := 999950000 }
def sensing (x : Sensor) : State := { up with sensors := [(sensorKey 2 3, x)] }

theorem wit_SensorCommands :
    (live up = true ∧ 143 < sensorCount 2 ∧ 2 < 8 ∧ (sensorOf up 2 143).sampling = true ∧
      ∀ t, (sensorOf up 2 143).sampledAt = some t → t + sampleInterval 2 143 ≤ up.sessionUs) ∧
    (let s := sensing { warm with sampledAt := some 999999001 }
     (sensorOf s 2 3).sampledAt = some 999999001 ∧ s.sessionUs < 999999001 + sampleInterval 2 3) ∧
    (sensorOf (sensing warm) 2 3).samples = [300, 300, 300] ∧ plausible up 2 (median3 300 300 301) = true ∧
    plausible up 2 (median3 300 100000 100000) = false ∧ ((300 : Int) ≤ 300 ∧ (300 : Int) ≤ 301) ∧
    (let s := sensing { warm with lastGood := 999949999 }
     live s = true ∧ 3 < sensorCount 2 ∧ (sensorOf s 2 3).sampling = true ∧ (sensorOf s 2 3).failed = false ∧
       (sensorOf s 2 3).lastGood + 50000 < s.sessionUs) ∧
    (live (sensing failed) = true ∧ (sensorOf (sensing failed) 2 3).failed = true ∧
      (sensorOf (sensing failed) 2 3).goodSince = some 999000000 ∧ 999000000 + 1000000 ≤ up.sessionUs ∧
      up.sessionUs ≤ (sensorOf (sensing failed) 2 3).lastGood + 50000 ∧ failed.lastGood + 50000 < 1000000001 ∧ warm.goodSince = none ∧
      (faultCount (sensing failed) 13 (sensorKey 2 3)).lasting = false) := by and_intros <;> decide +kernel

def tide (f : Tide → Tide) : State := { up with tide := f up.tide }

def window : WindowReport :=
  { spentMj := 0, standingMj := 0, powerDw := 0, classMj := [], indexMw := 0, searches := 0, hitPermille := 0, engineBusy := [],
    engineMj := [], counts := [], classQueued := [] }

/-- A hard deadline and two operations that have none. -/
def works : List Work := [⟨1, 10, none⟩, ⟨2, 5, some 7⟩, ⟨3, 5, some 8⟩]

/-- A drive whose pool has come to an end. -/
def spent : State := tide (fun t => { t with ledger := some { floors := List.replicate 8 0, shared := 4 } })

theorem wit_RailAndTide :
    (live up = true ∧ (∀ t, up.tide.fsiAt = some t → t + 100 ≤ up.sessionUs) ∧ 48 ≤ (List.replicate 48 7).length ∧
      ringsDue (tide (fun t => { t with fsiAt := some 999999901 })) = false) ∧
    (oldestDeadline works = some ⟨2, 5, some 7⟩ ∧ ⟨3, 5, some 8⟩ ∈ works ∧ fits up ⟨2, 5, some 7⟩ = true ∧ fits spent ⟨2, 5, some 7⟩ = false) ∧
    (oldestDeadline [⟨1, 10, none⟩] = none ∧ nextOp up [⟨1, 10, none⟩] = some ⟨1, 10, none⟩ ∧ nextOp spent [⟨1, 10, none⟩] = none ∧
      1 < 8 ∧ [(⟨1, 10, none⟩ : Work)].find? (fun w => w.cls == 1) = some ⟨1, 10, none⟩) ∧
    ((⟨2, 5, some 7⟩ : Work).due.isSome = true ∧ (⟨2, 5, some 7⟩ : Work).cost ≤ ({ floors := [], shared := 5 } : Ledger).shared) ∧
    (let s := tide (fun t => { t with fsi := fieldOf up A.HM_FSI 31 16 + 1 })
     s.pstate.cur < 2 ∧ s.tide.step < 2 ∧ fieldOf s A.HM_FSI 31 16 < s.tide.fsi ∧ s.tide.full = false) ∧
    (let s := tide (fun t => { t with fsi := fieldOf up A.HM_FSI 31 16 - 41 })
     s.pstate.cur < 2 ∧ s.tide.step < 2 ∧ s.tide.fsi + 40 < fieldOf s A.HM_FSI 31 16) ∧
    (let s := tide (fun t => { t with atMaxSince := some (999000000, false) })
     live s = true ∧ s.tide.atMaxSince = some (999000000, false) ∧ 999000000 + 1000000 ≤ s.sessionUs) ∧
    (let s := tide (fun t => { t with windowAt := 999999000 })
     live s = true ∧ s.tide.windowAt + 1000 ≤ s.sessionUs) ∧ inputDown up = false := by and_intros <;> decide +kernel

theorem wit_StepsAndEmergencies :
    (let s := tide (fun t => { t with trigger := true })
     live s = true ∧ s.tide.trigger = true ∧ s.tide.step = 0) ∧
    (let s := tide (fun t => { t with trigger := true, step := 3, steppedAt := 999990000 })
     s.tide.trigger = true ∧ s.tide.steppedAt + 10000 ≤ s.sessionUs) ∧
    (let s := tide (fun t => { t with trigger := false, step := 1, undoAt := 1000000000 })
     live s = true ∧ s.tide.trigger = false ∧ 1 ≤ s.tide.step ∧ s.tide.undoAt ≤ s.sessionUs) ∧
    ((tide (fun t => { t with step := 0 })).tide.step = 0 ∧ (tide (fun t => { t with step := 1 })).tide.step = 1 ∧
      (tide (fun t => { t with step := 2 })).tide.step = 0 + 2 ∧ (tide (fun t => { t with step := 3 })).tide.step = 3) ∧
    (let s := tide (fun t => { t with emThermal := true, emPersisted := false, emSince := 1000000000 - 1000 * fieldOf up A.HM_EMERG 15 0 })
     live s = true ∧ emergency s = true ∧ s.tide.emPersisted = false ∧ s.tide.emSince + 1000 * fieldOf s A.HM_EMERG 15 0 ≤ s.sessionUs) ∧
    (let s := { tide (fun t => { t with emClearedAt := some 940000000 }) with mode := { up.mode with cur := 1, autoLow := some 0 } }
     live s = true ∧ s.mode.autoLow = some 0 ∧ s.tide.emClearedAt = some 940000000 ∧ emergency s = false ∧ s.mode.cur = 1 ∧
       940000000 + 60000000 ≤ s.sessionUs) ∧
    (let s := tide (fun t => { t with hotSince := [(18, 995000000)] })
     live s = true ∧ tabGet s.tide.hotSince 18 = some 995000000 ∧ 18 ∉ s.tide.hotTripped ∧ 995000000 + 5000000 ≤ s.sessionUs ∧ s.phase = 2) ∧
    (let s := { tide (fun t => { t with hotSince := [(0, 995000000)] }) with phase := 1, boot := { up.boot with stage := .stageTwo } }
     live s = true ∧ tabGet s.tide.hotSince 0 = some 995000000 ∧ s.phase ≠ 2 ∧ s.boot.stage = .stageTwo) := by
  and_intros <;> decide +kernel

def inState (k : Nat) (since ex : Option Nat) : State := { up with pstate := { up.pstate with cur := k, idleSince := since, excursion := ex } }

theorem wit_PowerStates :
    (let s := regSet (inState 0 (some (1000000000 - 1000 * (regGet up A.HM_IDLE_T).toNat)) none) A.SY_PWR_CTRL 4
     live s = true ∧ serviceOpen s = true ∧ s.pstate.excursion = none ∧
       s.pstate.idleSince = some (1000000000 - 1000 * (regGet up A.HM_IDLE_T).toNat) ∧ mayEnter s (s.pstate.cur + 1) = true ∧
       (1000000000 - 1000 * (regGet up A.HM_IDLE_T).toNat) + 1000 * (regGet s (A.HM_IDLE_T + 4 * s.pstate.cur)).toNat ≤ s.sessionUs) ∧
    (inState 0 none none).pstate.idleSince = none ∧
    (live (inState 4 none none) = true ∧ (inState 4 none none).pstate.excursion = none ∧ 2 ≤ (inState 2 none none).pstate.cur ∧
      ckptDue (inState 4 none none) = true ∧ workDue (inState 4 none none) = true) ∧
    (let v := inState 1 none (some 4)
     let s := { v with space := { v.space with ckptAt := 1000000000 }, careen := { v.careen with patrolCount := 1 } }
     live s = true ∧ activating s = false ∧ s.pstate.excursion = some 4 ∧ workDue s = false ∧ workRuns s = false) ∧
    (let s := { up with persistedAt := 5, poweredUs := 60000005 }
     live s = true ∧ s.persistedAt + 60000000 ≤ s.poweredUs) := by and_intros <;> decide +kernel

def cipher (f : Cipher → Cipher) : State := { up with cipher := f up.cipher }

theorem wit_AlarmsZeroise :
    (live up = true ∧ up.cipher.armed = true ∧ detectorTrips up .glitch = true) ∧ State.reset.cipher.armed = false ∧
    (∀ n < 16, (sensorOf up 4 n).samples = []) ∧
    ((10, slot 1 2) ∈ up.cipher.slots ∧ (slot 1 2).kind = 1) ∧
    (let s := { cipher (fun c => { c with alarm := .settle }) with cmds := [{ putCmd with stage := .marking }] }
     s.cipher.alarm = .settle ∧ ∀ c ∈ s.cmds, pastCipher s c = true) ∧
    up.cipher.alarm ≠ .settle ∧
    (let s := { cipher (fun c => { c with alarm := .settle }) with cmds := [putCmd] }
     s.cipher.alarm = .settle ∧ ∃ c ∈ s.cmds, pastCipher s c = false) := by and_intros <;> decide +kernel

def msg (prio left : Nat) : Msg :=
  { id := 1, prio := prio, done := 0, left := left, slot := 10, epoch := 0, ctr := 1, suspendedAt := 0 }
def pipe (r : Option Msg) (saved waiting : List Msg) : Pipe := { deconfigured := false, running := r, saved := saved, waiting := waiting, mask := { seeds := 1, requests := 0 } }
def piped (p : Pipe) : State := cipher (fun c => { c with pipes := p :: c.pipes.drop 1 })
def lineage (s : State) : State := { s with flash := { s.flash with otp := { s.flash.otp with lineage := true } } }
def slotted (x : Slot) : State := cipher (fun c => { c with slots := [(10, x)] })

theorem wit_CipherCommands :
    (live up = true ∧ up.cipher.entropyFailed = false ∧ up.cipher.entropyStreak < 2) ∧
    (let s := cipher (fun c => { c with entropyStreak := 2 })
     live s = true ∧ s.cipher.entropyFailed = false ∧ 2 ≤ s.cipher.entropyStreak) ∧
    (let x := { slot 1 2 with ctr := 2 ^ 47 + 1, chunk := 2 ^ 47 + 1 - 2 ^ 19 }
     slotOf (slotted x) 10 = some x ∧ x.kind = 1 ∧ x.st = .live ∧ 2 ^ 47 < x.ctr ∧ rekeyFits (slotted x) 10 x = true ∧ (slotted x).cipher.entropyFailed = false ∧
       x.chunk + 2 ^ 19 ≤ x.ctr) ∧
    (let s := cipher (fun c => { c with rekey := some (2, 10) })
     s.cipher.rekey = some (2, 10) ∧ slotOf s 10 = some (slot 1 2) ∧ oldEpochItems s 2 0 = [] ∧ s.cipher.rekeyCkpt ≤ s.space.ckptSeq) ∧
    (let p := pipe (some (msg 3 257)) [] [msg 2 10]
     pipeServes (piped p) 0 = true ∧ (piped p).cipher.pipes[0]? = some p ∧ suspender p = some (msg 3 257, msg 2 10)) ∧
    (let p := pipe none [msg 3 257] []
     pipeServes (piped p) 0 = true ∧ (piped p).cipher.pipes[0]? = some p ∧ resumer (piped p).sessionUs p = some (msg 3 257)) ∧
    (up.flash.otp.lineage = false ∧ pipeServes up 7 = true) ∧
    (freestPipe up = some 0 ∧ freestPipe (piped (pipe none [] [msg 2 10])) = some 1 ∧
      ((piped (pipe none [] [msg 2 10])).cipher.pipes[0]?).isSome = true) ∧
    (({ seeds := 1, requests := 0 } : MaskGen).requests + 1 < 2 ^ 32 ∧ 2 ^ 32 ≤ ({ seeds := 1, requests := 2 ^ 32 - 1 } : MaskGen).requests + 1) ∧
    (let s := lineage (piped (pipe (some (msg 3 257)) [] []))
     s.flash.otp.lineage = true ∧ pipeServes s 0 = true ∧ (s.cipher.pipes[0]?).bind Pipe.running = some (msg 3 257)) ∧
    ((lineage up).flash.otp.lineage = true ∧ ((lineage up).cipher.pipes[7]?).bind Pipe.running = none) := by
  and_intros <;> decide +kernel

theorem wit_WatchdogAndScrub :
    (live up = true ∧ watchUnitOk (.engine 63) = true ∧ watchUnitOk (.indexDie 7) = true ∧ watchUnitOk .other = true) ∧ 7 < 8 ∧
    ((⟨0x5A, []⟩ : PathWord).errors = [] ∧ pathRead ⟨0x5A, []⟩ = .clean ∧ (⟨0x5A, [(35, 8)]⟩ : PathWord).errors = [(35, 8)] ∧
      (⟨0x5A, [(35, 8), (0, 1)]⟩ : PathWord).errors = [(35, 8), (0, 1)] ∧ 35 < 36 ∧ (8 : BitVec 4) ≠ 0) ∧
    (63 < 64) ∧
    (let s := { up with index := { up.index with chains := [(5, chain none 1)] } }
     tabGet s.index.chains 5 = some (chain none 1) ∧ (chain none 1).dirtySince = none ∧ (chain none 1).pending = [] ∧
       (chain none 1).readers = []) := by
  and_intros <;> decide +kernel
/-! #### The logbook and the sideband -/

def rec (seq : Nat) (ledger crit : Bool) : LogRec :=
  { seq := seq, typ := 7, source := 1, flags := if crit then 1 else 0, payload := [1], ledger := ledger, createdAt := 1000000000, block := 0 }

def logging (f : Logbook → Logbook) : State := { up with log := f up.log }

/-- A ring of 8,192 staged records, and of 512 held. -/
def fullRing : List LogRec := List.replicate 8192 (rec 1 false true)

theorem wit_RecordsAreNumbered :
    (up.log.frozen = none ∧ up.log.media ≠ 3 ∧ stagingRoom up.log 24 true = true) ∧
    (let s := logging (fun l => { l with frozen := some ⟨1, 0⟩ })
     s.log.frozen ≠ none ∧ holdingRoom s.log false = true) ∧
    (let s := logging (fun l => { l with frozen := some ⟨1, 0⟩, holding := List.replicate 512 (rec 1 false true) })
     s.log.frozen ≠ none ∧ holdingRoom s.log true = false) ∧
    (let s := logging (fun l => { l with staging := fullRing, coalesce := [⟨7, 1, 1⟩] })
     s.log.frozen = none ∧ s.log.media ≠ 3 ∧ stagingRoom s.log 24 true = false ∧ ∃ c ∈ s.log.coalesce, c.typ = 7 ∧ c.source = 1) ∧
    (let s := logging (fun l => { l with staging := fullRing, coalesce := List.replicate 255 ⟨7, 1, 1⟩ })
     (∀ c ∈ s.log.coalesce, c.typ = 7 → c.source ≠ 2) ∧ s.log.coalesce.length < 256) ∧
    (let s := logging (fun l => { l with staging := fullRing, coalesce := List.replicate 256 ⟨7, 1, 1⟩ })
     (∀ c ∈ s.log.coalesce, c.typ = 7 → c.source ≠ 2) ∧ 256 ≤ s.log.coalesce.length) := by and_intros <;> decide +kernel

theorem wit_WordLinesKeepOrder :
    packLine true [rec 1 false true, rec 2 true true, rec 3 true false] 0 0 = ([rec 2 true true, rec 3 true false], [rec 1 false true]) := by
  decide +kernel

/-- A drive with one record staged for the logbook, in a state of the media. -/
def staged (media : Nat) : State := logging (fun l => { l with staging := [rec 1 false true], media := media })

/-- The same with every block of the log's stream in use. -/
def wrapping : State :=
  { staged 0 with flash := { up.flash with general := { up.flash.general with
      blocks := (List.range 28).map (fun k => ⟨k, false, k⟩)
      lines := 1365 } } }

theorem wit_LogbookCommands :
    ((staged 0).log.staging = [rec 1 false true] ∧ flushDue (staged 0) = true ∧ (staged 0).power.holdUpReady = true ∧
      needsWrap (staged 0) false = false ∧ lineLost (staged 0) false = false) ∧
    State.reset.power.holdUpReady = false ∧
    (up.log.staging.length < 3584 ∧ stagedBytes up.log.staging < 1835008) ∧
    (wrapping.log.media ≠ 3 ∧ wrapping.power.holdUpReady = true ∧ wrapping.log.frozen = none ∧
      needsWrap wrapping false = true ∧ (∃ r ∈ wrapping.log.staging, r.ledger = false) ∧
      oldestBlock wrapping false = some ⟨0, false, 0⟩) ∧
    ((staged 1).log.media ≤ 1 ∧ lineBlock (staged 1) false = some 0 ∧ copyRetired (staged 1) 2 0 = false ∧
      copyRetired (staged 1) 0 0 = false) ∧
    ((staged 2).log.media = 2 ∧ flushDue (staged 2) = true ∧ lineBlock (staged 2) false = some 0) ∧
    (let s := logging (fun l => { l with frozen := some ⟨1, 1000000000 - 1000000 * fieldOf up A.LB_FREEZE 15 0⟩ })
     s.log.frozen = some ⟨1, 1000000000 - 1000000 * fieldOf up A.LB_FREEZE 15 0⟩ ∧
       (1000000000 - 1000000 * fieldOf up A.LB_FREEZE 15 0) + 1000000 * fieldOf s A.LB_FREEZE 15 0 ≤ s.sessionUs) := by
  and_intros <;> decide +kernel

def onBus : State := { up with sideband := { up.sideband with dynamicAddr := some 8 } }

def busWrite (d : Option Word) (ok : Bool) : I3cWrite := { address := 0x1010, data := d, wellFormed := ok, tookUs := 9, stop := true }

theorem wit_SidebandTransfers :
    addressed onBus = true ∧ sbPage (0x2FFC / 0x1000) = false ∧ (sbPage (0x1FFE / 0x1000) = true ∧ 0x1FFE % 4 ≠ 0) ∧
    (sbPage (0x1FFC / 0x1000) = true ∧ 0x1FFC % 4 = 0 ∧ 0x1FFC ≠ A.LB_SB_NEWEST ∧ 0x1FFC ≠ A.LB_SB_OLDER) ∧
    ((busWrite none true).wellFormed = true ∧ (busWrite none true).data = none) ∧ (busWrite (some 1) true).data = some 1 ∧
    ((busWrite none false).wellFormed = false ∧ 9 ≤ fieldOf onBus A.BW_I3C_TMO 15 0 ∧
      fieldOf onBus A.BW_I3C_TMO 15 0 < ({ busWrite none true with tookUs := 65536 } : I3cWrite).tookUs ∧
      (busWrite none true).stop = true ∧ ({ busWrite none true with stop := false } : I3cWrite).stop = false) ∧
    (let s := { onBus with sideband := { onBus.sideband with openSince := some 0 } }
     addressed s = true ∧ s.sideband.openSince = some 0 ∧ 0 + fieldOf s A.BW_I3C_TMO 15 0 < s.sessionUs) ∧
    (let s := { onBus with sideband := { onBus.sideband with openSince := some 1000000000 } }
     s.sideband.openSince = some 1000000000 ∧ s.sessionUs ≤ 1000000000 + fieldOf s A.BW_I3C_TMO 15 0) ∧
    onBus.sideband.openSince = none ∧
    ({ up with sideband := { up.sideband with cursor := some 3 } } : State).sideband.cursor = some 3 ∧ addressed up = false := by
  and_intros <;> decide +kernel

theorem wit_SidebandCodes :
    (sidebandUp up = true ∧ up.sideband.dynamicAddr = none ∧ up.power.strapValid = true) ∧
    (let s := { up with power := { up.power with strapValid := false, strapFailed := true } }
     sidebandUp s = true ∧ s.power.strapFailed = true) ∧
    addressed onBus = true ∧ ((zeroBytes 32).length = 32 ∧ onBus.boot.quoteBusy = false) ∧ (zeroBytes 31).length ≠ 32 ∧
    (let s := { onBus with boot := { onBus.boot with quoteBusy := true } }
     addressed s = true ∧ s.boot.quoteBusy = true ∧ keysPresent s = true) ∧
    (let s := { onBus with boot := { onBus.boot with quoteBusy := true, keyStore := ⟨0, 0⟩ } }
     s.boot.quoteBusy = true ∧ keysPresent s = false) := by and_intros <;> decide +kernel

theorem wit_SidebandLeavesData : Instr.getstatus ∈ [Instr.i3cTransferTimeout, .getstatus] := by decide +kernel
/-! #### Links and lines -/

def link (f : LinkState → LinkState) : State := { up with linkA := f up.linkA }
def linkAt (p : LinkPhase) : State := link (fun l => { l with phase := p, tryLanes := 4 })

/-- A drive whose fault of lane 3 is one short of lasting. -/
def weakLane : State := (List.range (faultN up 3 - 1)).foldl (fun s _ => (faultOccur s 3 3 0).1) up

theorem wit_LinkBringUp :
    ((linkOf (linkAt .detect) .a).phase = .detect ∧ portUsable (linkAt .detect) .a = true) ∧
    ((linkOf (linkAt .autoneg) .a).phase = .autoneg ∧ modeUsable (linkAt .autoneg) .a 4 = true ∧
      4 ∉ (linkOf (linkAt .autoneg) .a).dropped ∧ modeUsable (linkAt .autoneg) .a 1 = true) ∧
    ((linkOf (linkAt .training) .a).phase = .training ∧ (linkOf (linkAt .training) .a).trainFails < 2) ∧
    2 ≤ (linkOf (link (fun l => { l with phase := .training, trainFails := 2 })) .a).trainFails ∧
    (linkOf (linkAt .fecLock) .a).phase = .fecLock ∧
    ((linkOf up .a).phase = .up ∧ (faultOccur up 3 (4 * portNum .a + 0) 0).2 = false) ∧
    ((linkOf weakLane .a).phase = .up ∧ (faultOccur weakLane 3 (4 * portNum .a + 3) 0).2 = true) ∧
    (linkOf up .b).phase ≠ .up := by and_intros <;> decide +kernel

/-- A drive whose port A holds an IPv4 address. -/
def v4 : State := regSet (regSet up (npAddr .a A.NP_IPV4_ADDR) 0x0A000001) (npAddr .a A.NP_IP_CTRL) 7

/-- A received frame of some kind, to an IP address. -/
def rx (e : EtherType) (proto : Nat) (dst : Nat) (udp : Nat) : Rx :=
  { port := .a, fcsOk := true, size := 9216, vids := [], ether := e, ipHeaderOk := true, fragment := false, proto := proto, ipDst := dst,
    ethSrc := 1, ipSrc := 2, ce := false, srcUdpPort := udp, dstUdpPort := udp, udpSum := .good, udpLengthOk := true, fecCorr := 0,
    fecUncorr := 0 }

/-- Port A's link-local address, and the IPv4 address of `v4`. -/
def ll : Nat := linkLocal up .a
def own4 : Nat := 0x0A000001

def part1 : Partial := { bytes := [1], entry := true, lastFrameAt := 1000000000 - 1000 * fieldOf up A.BW_CAPSULE_TMO 15 0 }

theorem wit_AnswersAndFrameGap :
    (let u := arrive v4 (rx .arp 0 own4 0)
     vlanOk u (rx .arp 0 own4 0) = true ∧ (rx .arp 0 own4 0).size ≤ 9216 ∧ own4 ≠ 0 ∧ own4 = ipv4Of u .a ∧
       bit (regGet u (npAddr .a A.NP_IP_CTRL)) 1 = true) ∧
    9216 < ({ rx .arp 0 own4 0 with size := 9217 } : Rx).size ∧
    (let u := arrive v4 (rx .ipv6 58 ll 0)
     vlanOk u (rx .ipv6 58 ll 0) = true ∧ ownsIpv6 u .a ll = true ∧ bit (regGet u (npAddr .a A.NP_IP_CTRL)) 0 = true) ∧
    ipCheck (arrive v4 (rx .ipv6 17 ll 0)) (rx .ipv6 17 ll 0) [58] = some 3 ∧
    ipCheck (arrive v4 (rx .ipv6 58 ll 0)) (rx .ipv6 58 ll 0) [58] = none ∧
    ipCheck (arrive v4 (rx .ipv4 1 own4 0)) (rx .ipv4 1 own4 0) [1] = none ∧ linkUp v4 .a = true ∧
    (let s := link (fun l => { l with echoSecond := 1000, echoCount := 100 })
     ipCheck (arrive s (rx .ipv6 58 ll 0)) (rx .ipv6 58 ll 0) [58] = none ∧ (linkOf s .a).echoSecond = s.sessionUs / 1000000 ∧
       100 ≤ (linkOf s .a).echoCount) ∧
    (linkUp up .a = true ∧ linkUp up .b = false) ∧
    (A.MO_HS_TMO ∉ [npAddr .a A.NP_FEC_CORR, npAddr .a A.NP_FEC_UNCORR, npAddr .a A.NP_CE_RX]) ∧
    (let s := { up with berths := [(5, { berth with asm := some part1 })] }
     berthOf s 5 = some { berth with asm := some part1 } ∧ part1.lastFrameAt + 1000 * fieldOf s A.BW_CAPSULE_TMO 15 0 ≤ s.sessionUs) := by
  and_intros <;> decide +kernel

def head (typ m seq len : Nat) (fl : BitVec 16) : Head :=
  { version := 2, typ := typ, mooring := m, berth := 0, seq := seq, ack := 1, sack := 0, flags := fl, length := len, window := 16,
    reserved := 0, nonceCtr := 0 }

/-- A DATA frame of mooring 1 on the port that serves moorings, whose tag verifies under some key. -/
def frame (m seq : Nat) (key : TagKey) : Frame :=
  { rx := rx .ipv6 17 ll (fieldOf up (npAddr .a A.NP_UDP) 15 0), head := head 0x10 m seq 1 0, payload := [1], tag := key }

/-- The same as an ACK. -/
def ackFrame : Frame := { frame 1 1 .current with head := head 0x11 1 1 1 0 }

/-- The drive once a frame's envelope is counted. -/
def heard : State := arrive up (frame 1 1 .current).rx

theorem wit_FramesAreChecked :
    frameCheck heard (frame 1 1 .current).rx { (frame 1 1 .current).head with version := 1 } 0x10 1 = some 5 ∧
    (ipCheck up (frame 1 1 .current).rx [17] = none ∧ udpOk (frame 1 1 .current).rx (servedPort up (frame 1 1 .current).rx) = true ∧
      (head 0x14 1 1 1 0).typ ≠ 0x10) ∧
    (frameCheck heard (frame 9 1 .current).rx (frame 9 1 .current).head 0x10 1 = none ∧ lineServes heard (frame 9 1 .current) = false) ∧
    (frameCheck heard (frame 1 1 .current).rx (frame 1 1 .current).head 0x10 1 = none ∧ frameCheck heard ackFrame.rx ackFrame.head 0x11 1 = none ∧
      lineServes heard (frame 1 1 .current) = true ∧ tpOf heard (lineOf up (frame 1 1 .current)) = some tp) ∧
    received tp 0 = true ∧ (received tp 1 = false ∧ inWindow tp 1 = true) ∧ (received tp 512 = false ∧ inWindow tp 512 = true) ∧
    (received tp 513 = false ∧ inWindow tp 513 = false) ∧
    (tagPasses tp (frame 1 1 .current) = true ∧ (frame 1 1 .current).tag ≠ .next ∧ tagPasses tp (frame 1 1 .none) = false ∧
      tagPasses tp (frame 1 1 .previous) = false) ∧
    (receive up 0x10 true (frame 1 0 .current)).2 = none ∧ (receive up 0x10 true (frame 1 1 .current)).2 = some (.mooring 1) ∧
    (receive up 0x11 false ackFrame).2 = some (.mooring 1) ∧
    (let s := { up with moorings := [(1, { moor with st := .closing })] }
     mooringOf s 1 = some { moor with st := .closing } ∧ closable s { moor with st := .closing } = true) ∧
    (let x := { towline with st := .peerClosing }
     tabGet (towed x).harbour.towlines 0 = some x ∧ towlineClosable (towed x) 0 x = true) := by and_intros <;> decide +kernel

def hand (t : Bool) : Handshake :=
  { ipSrc := 2, udpPort := fieldOf up (npAddr .a A.NP_UDP) 15 0, random := 99, port := .a, ethSrc := 1, ipv6 := true, ipDst := ll,
    helloAt := 1000000000, berths := 1, ecn := false, maxPayload := 1024, towline := t, towId := 0, draw := 0, hello := helloBody 1,
    cert := zeroBytes 324, sendCtr := 0 }

def shaking (n : Nat) : State := { rooted with handshakes := List.replicate n (hand false) }

/-- An Operator's certificate under root key 11. -/
def operator : Cert :=
  { format := 0x46434331, role := 1, depth := 0, reservedZero := true, generation := 2 ^ 32 - 1, subject := 7, serial := 0, subjectKey := 5,
    issuerKey := 11, sigOk := true, bytes := zeroBytes 324 }

def auth (ok : Bool) : AuthBody := { certCount := 1, reserved := 0, certs := [operator], hostSig := zeroBytes 96, hostSigOk := ok }

/-- A HELLO that step 1 refused, and whose answer is kept. -/
def refused : State := refuseHello (shaking 0) (frame 0 0 .none).rx 99 .range

theorem wit_Handshakes :
    (let r := (frame 0 0 .none).rx
     let s := arrive (shaking 1) r
     (frameCheck s r (head 1 0 0 136 0) 1 136 = none ∧ answersHello s .a = true ∧ s.phase < 3 ∧
       s.cipher.meshTripped = false ∧ s.cipher.entropyFailed = false ∧ s.cipher.alarm ≠ .settle ∧
       handshakeOf s 2 r.srcUdpPort 99 = some (hand false)) ∧
     (handshakeOf refused 2 r.srcUdpPort 99 = none ∧ (answeredOf refused 2 r.srcUdpPort 99).isSome = true) ∧
     (handshakeOf s 2 r.srcUdpPort 98 = none ∧ answeredOf s 2 r.srcUdpPort 98 = none ∧ (shaking 63).handshakes.length < 64 ∧
       helloStatus (shaking 63) (helloBody 16) (onTowPort (shaking 63) r) = none ∧
       helloStatus (shaking 63) (helloBody 17) (onTowPort (shaking 63) r) = some .range) ∧
     64 ≤ (shaking 64).handshakes.length ∧ frameCheck s r (head 1 0 0 136 1) 1 136 = some 5 ∧
     (frameCheck s r (head 3 0 0 424 0) 3 (100 + 324 * 1) = none ∧
       chainOk (dropHandshake s (hand false)) [operator] false = true ∧ chainOk s [cert] false = false)) ∧
    (frame 0 0 .current).tag = .current ∧ (frame 0 0 .none).tag ≠ .current ∧
    (auth true).certCount = (auth true).certs.length ∧ (auth false).hostSigOk = false ∧
    (let s := { shaking 1 with sessionUs := 1000000000 + 1000 * fieldOf up A.MO_HS_TMO 15 0 }
     handshakeOf s 2 (hand false).udpPort 99 = some (hand false) ∧ (hand false).helloAt + 1000 * fieldOf s A.MO_HS_TMO 15 0 ≤ s.sessionUs) := by
  and_intros <;> decide +kernel

/-- A drive with the transport of mooring 1 changed. -/
def lined (f : Transport → Transport) : State := { up with moorings := [(1, { moor with tp := f tp })] }

def sent (k : Nat) : TxFrame :=
  { typ := 0x12, seq := 1, berth := 0, first := true, last := true, payload := [], ticket := none, sentAt := 999999000, sends := 1,
    expiries := k, sacked := false }

/-- A slot with four shadows. -/
def shadowed : Slot := { slot 2 1 with shadows := List.replicate 4 ⟨0, 0, .drawn 0⟩ }

theorem wit_LineTimers :
    (let s := lined (fun t => { t with ackPending := 1, ackSince := 999999980, lastTx := 997500000 })
     ∃ t, tpOf s (.mooring 1) = some t ∧ lineUp s (.mooring 1) = true ∧ 0 < t.ackPending ∧ t.ackSince + 20 ≤ s.sessionUs ∧
       t.lastTx + 2500000 ≤ s.sessionUs) ∧
    (∀ k ∈ [10, 11], ∃ t, tpOf (lined (fun t => { t with unacked := [sent k] })) (.mooring 1) = some t ∧
      t.unacked.find? (fun f => f.seq == 1 && !f.sacked && decide (f.sentAt + t.rtoUs ≤ 1000000000)) = some (sent k)) ∧
    (let s := lined (fun t => { t with lastRx := 1000000000 - 1000000 * fieldOf up A.MO_IDLE_TMO 15 0, oldEpoch := some (999900000, 5),
                                       rekeyRefusedSince := some 999900000, framesUnderKey := 2 ^ 30 })
     ∃ t, tpOf s (.mooring 1) = some t ∧ t.lastRx + 1000000 * fieldOf s A.MO_IDLE_TMO 15 0 ≤ s.sessionUs ∧
       t.oldEpoch = some (999900000, 5) ∧ 999900000 + 100000 ≤ s.sessionUs ∧ t.rekeyRefusedSince = some 999900000 ∧
       2 ^ 30 ≤ t.framesUnderKey ∧ (rekeySend s (.mooring 1) (sendSlotOf s (.mooring 1))).isSome = true) ∧
    seqLt 5 5 = false ∧
    (let s := { lined (fun t => { t with framesUnderKey := 2 ^ 30 }) with cipher := { up.cipher with slots := [(20, shadowed)] } }
     rekeySend s (.mooring 1) (sendSlotOf s (.mooring 1)) = none ∧ slotOf s 20 = some shadowed ∧ 4 ≤ shadowed.shadows.length ∧
       tp.sendRefusedSince = none ∧ 999900000 + 100000 ≤ s.sessionUs ∧ s.sessionUs < 999900001 + 100000) ∧
    (let m := { moor with st := .tearingDown }
     mooringOf { up with moorings := [(1, m)] } 1 = some m ∧ m.st = .tearingDown ∧ mooringDrained { up with moorings := [(1, m)] } m = true) ∧
    (slotOf up 10 = some (slot 1 2) ∧ (slot 1 2).shadows.length < 4) := by
  and_intros <;> decide +kernel
/-! #### The harbour -/

def beaconRx : Rx := rx .ipv6 17 harbourGroup (fieldOf up A.HB_PORTS 15 0)

def beaconBody9 (serial seq : Nat) : BeaconBody :=
  { bflags := 7, harbourId := 9, serial := serial, seq := seq, bootNumber := 1, fw := 1,
    mode := 1, space := 0, life := 100, towFree := 1, members := 1, pstate := 0, towPort := 0 }

/-- A drive that knows drive 9, in a state, of serial 77 and number 5. -/
def knows (st : MemberState) : State :=
  { up with harbour := { up.harbour with members := [(9, { member with st := st, seq := 5, at_ := 999000000, lostAt := 940000000 })] } }

theorem wit_BeaconsAndMembers :
    (let s := regSet up A.HB_CTRL 1
     bit (regGet s A.HB_CTRL) 0 = true ∧ (harbourId s).1 = true ∧ s.power.running = true ∧ s.harbour.beaconAt + 100000 + s.harbour.beaconDelay ≤ s.sessionUs) ∧
    up.sessionUs < up.sessionUs + 100000 + up.harbour.beaconDelay ∧
    bit (regGet (regSet up A.HB_CTRL 0) A.HB_CTRL) 0 = false ∧
    beaconCheck up (rx .ipv6 17 harbourGroup 1) = some 3 ∧ beaconCheck up beaconRx = none ∧
    beaconForm (beaconBytes { beaconBody9 77 6 with bflags := 8 }) = false ∧ beaconForm (beaconBytes (beaconBody9 77 6)) = true ∧
    (beaconOf (beaconBytes (beaconBody9 up.flash.otp.serial 6))).serial = up.flash.otp.serial ∧
    (beaconOf (beaconBytes (beaconBody9 77 6))).serial ≠ up.flash.otp.serial ∧
    (∀ st ∈ [MemberState.present, .conflict, .lost],
      (tabGet (knows st).harbour.members 9).map Member.st = some st ∧ (tabGet (knows st).harbour.members 9).map Member.serial = some 77) ∧
    (seqLt 5 6 = true ∧ seqLt 5 5 = false ∧ 78 ≠ 77) ∧ tabGet up.harbour.members 9 = none ∧
    (up.harbour.selfConflictAt = none ∧ 940000000 + 60000000 ≤ up.sessionUs ∧ up.sessionUs < 940000001 + 60000000 ∧
      999000000 + 1000000 ≤ up.sessionUs ∧ up.sessionUs < 999000001 + 1000000) ∧
    (let s := { up with harbour := { up.harbour with selfConflictAt := some 999000000 } }
     s.harbour.selfConflictAt = some 999000000 ∧ (harbourId s).2.2 = 0 ∧ 999000000 + 1000000 ≤ s.sessionUs) := by
  and_intros <;> decide +kernel

/-- The bytes of a trigger of a version for a cohort, whose set prefix, key and signature are zero. -/
def trigger (version cohort : Nat) : List Byte :=
  beBytes 0x43545239 4 ++ beBytes version 1 ++ zeroBytes 3 ++ beBytes cohort 4 ++ zeroBytes 224

/-- An armed drive that heeds triggers, with the key of `trigger` in ROOT slot 0. -/
def heeding (checked : Nat) : State :=
  let s := regSet (updating .armed .none) A.HB_CTRL 2
  { s with
    update := { s.update with trigSecond := 1000, trigChecked := checked }
    flash := { s.flash with otp := { s.flash.otp with roots := [some (Config.sha384 (zeroBytes 97)), none, none, none] } } }

theorem wit_CohortTriggers :
    beaconCheck up (rx .ipv6 17 harbourGroup 1) = some 3 ∧
    (beaconCheck (regSet up A.HB_CTRL 5) beaconRx = none ∧ bit (regGet (countAccepted (regSet up A.HB_CTRL 5) .a) A.HB_CTRL) 1 = false) ∧
    (beaconCheck (heeding 0) beaconRx = none ∧ bit (regGet (countAccepted (heeding 0) .a) A.HB_CTRL) 1 = true ∧
      triggerForm (trigger 2 3) = false ∧ triggerForm (trigger 1 3) = true) ∧
    (triggerMatches (countAccepted (heeding 0) .a) (trigger 1 4) = false ∧ activating (countAccepted (heeding 0) .a) = false) ∧
    (let u := countAccepted (updating .prepared .none) .a
     triggerMatches u (trigger 1 3) = false ∧ activating u = true ∧ u.update.cohort = 3) ∧
    (let u := countAccepted (heeding 100) .a
     triggerMatches u (trigger 1 3) = true ∧ u.update.trigSecond = u.sessionUs / 1000000 ∧ 100 ≤ u.update.trigChecked) ∧
    (let u := countAccepted (heeding 99) .a
     triggerMatches u (trigger 1 3) = true ∧ u.update.trigChecked < 100 ∧ triggerKey (trigger 1 3) = zeroBytes 97 ∧
       enabledRoots { up with flash := { up.flash with otp := { up.flash.otp with roots := [none, none, none, none] } } } = []) := by and_intros <;> decide +kernel

theorem wit_CohortTriggers_root : (0, Config.sha384 (zeroBytes 97)) ∈ enabledRoots (countAccepted (heeding 99) .a) := List.mem_cons_self ..

/-- A towline in a state, on a drive with root key 11 that knows drive 9. -/
def sailing (st : TowlineState) : State :=
  { towed { towline with st := st } with
    harbour := { up.harbour with towlines := [(0, { towline with st := st })], members := [(9, member)] }
    flash := { up.flash with otp := { up.flash.otp with roots := [some 11, none, none, none] } } }

def peerCert : Cert := { operator with role := 4, serial := 77 }

def welcome : WelcomeBody := { random := 1, ephemeral := 2, cert := peerCert, sig := zeroBytes 96 }

theorem wit_TowlineLife :
    (towlineOf (sailing .helloSent) 0 = some { towline with st := .helloSent } ∧ towline.source = true ∧
      peerCertOk (sailing .helloSent) 9 welcome.cert = true ∧ (false = false) ∧
      peerCertOk (sailing .helloSent) 9 operator = false) ∧
    (towlineOf (sailing .authSent) 0 = some { towline with st := .authSent } ∧ ∀ y ∈ (sailing .authSent).harbour.tows, y.towline ≠ some 0) ∧
    (towlineOf (sailing .open) 0 = some towline ∧ towlineUp towline = true) ∧
    (towlineOf (sailing .open) 0 = some towline ∧ towline.st = .open ∧ (∀ y ∈ (sailing .open).harbour.towIns, y.towline ≠ 0) ∧
      towline.lastUse + 1000000 * fieldOf (sailing .open) A.HB_TOW_IDLE 15 0 ≤ (sailing .open).sessionUs) ∧
    towlineOf (sailing .closing) 0 = some { towline with st := .closing } ∧ (0 ≠ 1) ∧ towlineOf up 0 = none := by
  and_intros <;> decide +kernel

def towEntry : TowEntry :=
  { key := aKey, lost := false, eflagsOk := true, valueLen := 1, sourceVersion := 1, value := [9], paddingZero := true }

def towData (declared : Nat) : TowData :=
  { reservedZero := true, quay := 2, msgSeq := 0, window := 0, declared := declared, size := 83886080, entries := [towEntry] }

/-- A drive that is the destination of towline 0. -/
def arriving : State := towed { towline with source := false }

theorem wit_TowWindows :
    (let x := { tow with towline := some 0, outstanding := [7] }
     let s := { up with harbour := { up.harbour with towlines := [(0, towline)], tows := [x] } }
     towlineOf s 0 = some towline ∧ towlineUp towline = true ∧ towline.source = true ∧
       s.harbour.tows.find? (fun x => x.towline == some 0 && x.outstanding.contains 7) = some x) ∧
    (towlineOf arriving 0 = some { towline with source := false } ∧ towlineUp { towline with source := false } = true ∧
      arriving.seqr.stopped = false ∧ towRefusal arriving (towData 2) = some .badLength ∧ towRefusal arriving (towData 1) = none) ∧
    ((towData 2).entries.length ≠ (towData 2).declared) ∧
    ((towData 1).entries.length = (towData 1).declared ∧ (towData 1).size ≤ 83886080 ∧
      ({ towData 1 with reservedZero := false } : TowData).reservedZero = false) ∧
    (towForm (towData 1) = none ∧ arriving.seqr.barrier = false ∧ (2 : Nat) = 2) := by and_intros <;> decide +kernel
/-! ### Well-formedness: one ill-formed term for each check -/

theorem smoke_frames :
    Instr.wf (.arpRequest { rx .arp 0 own4 0 with size := 9235 } 0) = false ∧
    Instr.wf (.echoRequest ⟨{ rx .ipv6 58 ll 0 with vids := [4096] }, []⟩) = false ∧
    Instr.wf (.hello (rx .ipv6 17 ll 0) { head 1 0 0 136 0 with version := 256 } (helloBody 1)) = false ∧
    Instr.wf (.hello (rx .ipv6 17 ll 0) (head 1 65536 0 136 0) (helloBody 1)) = false ∧
    Instr.wf (.hello (rx .ipv6 17 ll 0) (head 1 0 (2 ^ 32) 136 0) (helloBody 1)) = false ∧
    Instr.wf (.hello (rx .ipv6 17 ll 0) (head 1 0 0 136 0) (helloBody 65536)) = false ∧
    Instr.wf (.hello (rx .ipv6 17 ll 0) (head 256 0 0 136 0) (helloBody 1)) = false ∧
    Instr.wf (.hello (rx .ipv6 17 ll 0) (head 3 0 0 136 0) (helloBody 1)) = false ∧
    Instr.wf (.hostAuth { frame 1 1 .current with head := head 3 1 1 424 0 } 0 { auth true with certCount := 256 }) = false ∧
    Instr.wf (.hostAuth { frame 1 1 .current with head := head 3 1 1 424 0 } 0 { auth true with hostSig := [] }) = false ∧
    Instr.wf (.hostAuth { frame 1 1 .current with head := head 3 1 1 424 0 } 0 { auth true with certs := [{ operator with bytes := [] }] }) =
      false ∧
    Instr.wf (.hostAuth { frame 1 1 .current with head := head 3 1 1 424 0 } 0 (auth true)) = true ∧
    Instr.wf (.data { frame 1 1 .current with payload := List.replicate 9217 0 }) = false ∧
    Instr.wf (.closed (.towline 255)) = false ∧ Instr.wf (.idleTimeout (.mooring 4096)) = false ∧
    Instr.wf (.retransmissionTimeout (.mooring 1) (2 ^ 32)) = false ∧ Instr.wf (.handshakeTimeout 1 65536 1) = false ∧
    Instr.wf (.data (frame 1 1 .current)) = true := by and_intros <;> decide +kernel

theorem smoke_units :
    Instr.wf (.autonegotiation .a [4, 3]) = false ∧ Instr.wf (.linkLost .a (some 4)) = false ∧ Instr.wf (.get 16384 noFaults) = false ∧
    Instr.wf (.commit 1 4096) = false ∧ Instr.wf (.pstateLimit 1 (2 ^ 32)) = false ∧ Instr.wf (.moCertGenMin 1 4 0) = false ∧
    Instr.wf (.fcCalStart 1 64 0) = false ∧ Instr.wf (.fcCalStart 1 0 16) = false ∧ Instr.wf (.fcDiagStart 1 0 (2 ^ 32)) = false ∧
    Instr.wf (.enTestStart 1 64) = false ∧ Instr.wf (.registerWrite 1 (2 ^ 24) 0) = false ∧ Instr.wf (.registerWrite 1 0x1002 0) = false ∧
    Instr.wf (.i3cPrivateWrite { busWrite none true with address := 2 ^ 24 }) = false ∧ Instr.wf (.entdaa 128) = false ∧
    Instr.wf (.quoteReq []) = false ∧ Instr.wf (.inputRise (2 ^ 17)) = false ∧ Instr.wf (.strapRead 64 0 0) = false ∧
    Instr.wf (.pulseTrain 1024) = false ∧ Instr.wf (.arrayReadDone 0 4096 0 0) = false ∧ Instr.wf (.arrayReadDone 0 0 4096 0) = false ∧
    Instr.wf (.arrayReadDone 0 0 0 10) = false ∧ Instr.wf (.eraseDone 4194304 []) = false ∧ Instr.wf (.eraseDone 0 [34817]) = false ∧
    Instr.wf (.calibrationDue 64 0 0) = false ∧ Instr.wf (.calibrationDue 0 2 0) = false ∧ Instr.wf (.calibrationDue 0 0 8) = false ∧
    Instr.wf (.calibrationDone 64 0 []) = false ∧ Instr.wf (.calibrationDone 0 16 []) = false ∧
    Instr.wf (.landingConfirmed ⟨0, [34817]⟩) = false ∧ Instr.wf (.diagReadDone 64 0 false true 0 []) = false ∧
    Instr.wf (.diagReadDone 0 10 false true 0 []) = false ∧ Instr.wf (.dramScrub 8 ⟨.elsewhere, ⟨0, []⟩⟩) = false ∧ Instr.wf (.dramScrub 0 ⟨.elsewhere, ⟨0, [(36, 1)]⟩⟩) = false ∧
    Instr.wf (.dramScrub 0 ⟨.elsewhere, ⟨0, [(0, 0)]⟩⟩) = false ∧ Instr.wf (.dramScrub 0 ⟨.elsewhere, ⟨0, [(0, 1), (0, 2)]⟩⟩) = false := by and_intros <;> decide +kernel

theorem smoke_services :
    Instr.wf (.blockVerify 0 { first := [], second := [], low := [34817], high := [], erase := [] }) = false ∧
    Instr.wf (.blockVerify 0 { first := [], second := [], low := List.replicate 13 0, high := [], erase := [] }) = false ∧
    Instr.wf (.retentionSurvey 9 0 []) = false ∧ Instr.wf (.leafFetch (2 ^ 28)) = false ∧ Instr.wf (.chainWriteback ⟨2 ^ 28, true⟩) = false ∧ Instr.wf (.indexScrub 64 0 1) = false ∧
    Instr.wf (.engineTestEnd 64 true) = false ∧ Instr.wf (.recordCopy (2 ^ 64) 0 0 true) = false ∧ Instr.wf (.recordCopy 0 256 0 true) = false ∧
    Instr.wf (.sensorSample 8 0 0) = false ∧ Instr.wf (.sensorFailed 0 4096) = false ∧ Instr.wf (.ringMeasurement [] 0) = false ∧
    Instr.wf (.tideWindowEnd window) = false ∧ Instr.wf (.thermalTrip 19) = false ∧ Instr.wf (.autoRekey 65536) = false ∧
    Instr.wf (.cipherSuspend 8) = false ∧ Instr.wf (.memberAge 4096) = false ∧ Instr.wf (.towData 255 (towData 1)) = false ∧
    Instr.wf (.towAck 0 65536 0 0 0) = false ∧ Instr.wf (.i3cPrivateRead 65) = false ∧ Instr.wf (.moored 0 255 0) = false ∧
    Instr.wf (.moored 0 0 65536) = false ∧ Instr.wf (.refuse 255 0) = false ∧ Instr.wf (.towlineIdle 255) = false := by
  and_intros <;> decide +kernel

/-! ### Single steps: what the spec's tables and worked figures give -/

/-- A fact about the state that a command leads to. -/
def leads (s : State) (i : Instr) (p : State → Bool) : Bool :=
  match exec i s with
  | .next t => p t
  | _ => false

/-- The payloads of the DATA frames (TYPE 0x10, R90) that the drive has sent. -/
def dataSent (s : State) : List (List Byte) :=
  s.out.filterMap (fun o => match o with
    | .sent _ _ (.frame 0x10 _ _ _ _ _ _ _ _ _ p) => some p
    | _ => none)

/-- The types of the frames that the drive has sent. -/
def typesSent (s : State) : List Nat :=
  s.out.filterMap (fun o => match o with
    | .sent _ _ (.frame k _ _ _ _ _ _ _ _ _ _) => some k
    | _ => none)

/-- R109: the fields of a header written out byte by byte. -/
theorem test_capsule_header :
    let c := parseCapsule [0x05, 0, 0x12, 0x34, 0x0A, 0xBC, 0, 1, 0, 0, 0, 2, 0, 0, 0, 3, 0, 0, 0, 0, 0, 0, 0, 4, 0, 0, 0, 0, 0, 0, 0, 5, 0x61, 0x62, 0x63]
    c.opcode = 5 ∧ c.tag = 0x1234 ∧ c.quay = 0xABC ∧ c.keyLen = 1 ∧ c.valueLen = 2 ∧ c.segOff = 3 ∧ c.expVer = 4 ∧ c.param = 5 ∧
      c.key = [0x61] ∧ c.value = [0x62, 0x63] := by decide +kernel

/-- R110, R160: a GET of an absent key answers E_NOT_FOUND (0x0A02) with its CSN, no bytes, and VERIFIED 0xFFFF_FFFF. -/
theorem test_get_absent :
    dataSent (runGet up (cmd 0x01 (.get aKey 0 0 0)) aKey 0 0) = [[0x01, 0, 0, 1, 0x0A, 0x02, 0, 0, 0, 0, 0, 0, 0, 0, 0, 100] ++ zeroBytes 8 ++
      [0, 0, 0, 0, 0xFF, 0xFF, 0xFF, 0xFF] ++ zeroBytes 16] := by decide +kernel

/-- R32: a PUT takes the next CSN at admission, and its tag stays outstanding until it completes. -/
theorem test_put_admitted :
    let t := admittedState (due up putCap) 5 (parseCapsule putCap) false
    t.seqr.next = 101 ∧ (berthOf t 5).map Berth.tags = some [⟨1, 100, false⟩] := by decide +kernel

/-- R178: QUAY_CREATE with ANY takes quay 0, the lowest that is free, and RESULT names it. -/
theorem test_quay_create_any :
    leads (due up (cap 0x20 1 1 0 [] 32 0 0 0 block)) (.quayCreate 5) (fun t =>
      (tabGet t.flash.quays 0).map Quay.createCsn == some 100 && (dataSent t).map (fun p => (p.drop 32).take 2) == [[0, 0]]) = true := by
  decide +kernel

/-- R182: the first rule has RULE_ID 1. -/
theorem test_rule_put :
    leads (due up (cap 0x23 0 1 2 [] 64 0 0 0 (ruleBody 32))) (.rulePut 5) (fun t =>
      t.flash.rules.map Rule.id == [1] && (dataSent t).map (fun p => (p.drop 32).take 4) == [[0, 0, 0, 1]]) = true := by decide +kernel

/-- MO_IDLE_TMO reads 10 after reset and takes 1 to 600: a write of 601 completes with E_RANGE (0x0101) and changes nothing. -/
theorem test_register_write :
    regGet State.reset 0xC048 = 10 ∧ leads up (.registerWrite 1 0xC048 600) (fun t => regGet t 0xC048 == 600) = true ∧
    leads up (.registerWrite 1 0xC048 601) (fun t => regGet t 0xC048 == 10 && t.out == [.writeDone 1 100 0x0101]) = true := by
  and_intros <;> decide +kernel

/-- R158: granules; R269: units of a record with a key of 7 bytes, of a value of 65,537 bytes in two segments. -/
theorem test_units : granules 1 0 = 1 ∧ granules 64 1 = 2 ∧ recordUnits 7 (some 65537) = 1 + 1 + (1 + 1024) + (1 + 1) ∧
    recordUnits 7 none = 2 := by decide +kernel

/-- R259: residue at the ends of its range and halfway. -/
theorem test_residue : residueOf 5 10 = 0 ∧ residueOf 288 0 = 32768 ∧ residueOf 576 240 = 65535 := by decide +kernel

/-- R68: CRC-32C of the nine digits, by the polynomial's published check value. -/
theorem test_crc : crc32c [0x31, 0x32, 0x33, 0x34, 0x35, 0x36, 0x37, 0x38, 0x39] = 0xE3069283 := by decide +kernel

/-- R474: GETMRL, and GETSTATUS in service with no quote and no error. -/
theorem test_common_codes :
    leads onBus .getmrl (fun t => t.out == [.i3cBytes [0x01, 0x00]]) = true ∧
    leads onBus .getstatus (fun t => t.out == [.i3cBytes [0x02, 0x00]]) = true := by and_intros <;> decide +kernel

/-- R56, R66: a write without its STOP is held from its START; 1 µs past BW_I3C_TMO it is abandoned and counted. -/
theorem test_open_transfer :
    leads onBus (.i3cPrivateWrite { busWrite (some 1) true with stop := false })
      (fun t => t.sideband.openSince == some (t.sessionUs - 9) && t.out.isEmpty) = true ∧
    leads { onBus with sideband := { onBus.sideband with openSince := some (onBus.sessionUs - fieldOf onBus A.BW_I3C_TMO 15 0 - 1) } }
      .i3cTransferTimeout (fun t => t.sideband.openSince == none && t.sideband.protocolError &&
        regGet t (A.BW_REJ_COUNT + 28) == 1) = true := by and_intros <;> decide +kernel

/-- R460: an input that rises to 36 V begins Detect, one of 35.999 V does not. -/
theorem test_input_rise :
    leads (inPhase .unpowered 0) (.inputRise 36000) (fun t => t.power.phase == .detect) = true ∧
    leads (inPhase .unpowered 0) (.inputRise 35999) (fun t => t.power.phase == .detect) = false := by and_intros <;> decide +kernel

/-- R103, R90: an ACK frame leaves 20 µs after the first frame that it acknowledges, and not before. -/
theorem test_ack_delay :
    leads (lined (fun t => { t with ackPending := 1, ackSince := 999999980 })) (.ackDelayExpiry (.mooring 1))
      (fun t => typesSent t == [0x11]) = true ∧
    leads (lined (fun t => { t with ackPending := 1, ackSince := 999999981 })) (.ackDelayExpiry (.mooring 1))
      (fun t => typesSent t == []) = true := by and_intros <;> decide +kernel

/-- R410: COPY of two bytes at 1 of the base, DATA of one byte, END; and a COPY that would pass the base's end. -/
theorem test_delta :
    runDelta [1, 2, 3] 65536 99 [1, 1, 0, 0, 0, 2, 0, 0, 0, 2, 1, 0, 0, 0, 9, 0] [] = some [2, 3, 9] ∧
    runDelta [1, 2, 3] 65536 99 [1, 2, 0, 0, 0, 2, 0, 0, 0, 0] [] = none := by decide +kernel

/-- R85: the link-local address is formed from NP_MAC by EUI-64. -/
theorem test_link_local : linkLocalOf 0x001122334455 = 0xFE80000000000000021122FFFE334455 := by decide +kernel

/-- R82: the highest mode that both ends advertise is trained. -/
theorem test_autonegotiation :
    leads (linkAt .autoneg) (.autonegotiation .a [1, 2]) (fun t => (linkOf t .a).tryLanes == 2) = true ∧
    leads (linkAt .autoneg) (.autonegotiation .a []) (fun t => (linkOf t .a).phase == .detect) = true := by
  and_intros <;> decide +kernel

/-- R101: a frame of the old phase passes while its epoch is kept, and not after it is released. -/
theorem test_old_phase :
    let f := { frame 1 1 .previous with head := head 0x10 1 1 1 (2 ^ 15) }
    tagPasses { tp with oldEpoch := some (0, 1) } f = true ∧ tagPasses tp f = false := by decide +kernel

/-- R249: an erase adds 1 to the wear of an SLC block and 10 to that of a TLC one. -/
theorem test_erase_wear :
    leads (withDie 0 (die 5)) (.eraseDone 0 [8]) (fun t => (blockOf t 0).wear == 1) = true ∧
    leads { withDie 0 (die 5) with flash := { up.flash with blocks := [(0, { Block.fresh with tlc := true })] } } (.eraseDone 0 [8])
      (fun t => (blockOf t 0).wear == 10) = true := by and_intros <;> decide +kernel

/-- R103: sequence numbers wrap. -/
theorem test_sequence_wraps : seqLt 0xFFFFFFFF 0 = true ∧ seqLt 0 0xFFFFFFFF = false := by decide +kernel

/-- R419: a trigger fires the armed activation, whose switch time lies SWITCH_MS ahead. -/
theorem test_trigger_fires :
    leads (due { updating .armed .none with sessionUs := 999999999 } (cap 0x5E 0 1 0 [] 0 0 0 3 [])) (.upTrigger 5)
      (fun t => t.update.st == .preparing && t.update.switchAt == 999999999 + 10000000) = true := by decide +kernel

/-- R433: a beacon leaves on a port whose link is up. -/
theorem test_beacon :
    leads up .beaconSend (fun t => t.harbour.beaconSeq == 1 && t.out.length == 1) = true := by decide +kernel

/-- R366: a record takes the next number. -/
theorem test_record_number :
    (logRecord up 0x0002 1 false []).log.nextSeq = up.log.nextSeq + 1 := by decide +kernel

/-- A step with nothing waiting is 1 µs (log entry 2); a waiting command is taken from the front. -/
theorem test_step :
    (match step up with
      | .next t => t.sessionUs == 1000000001
      | _ => false) = true ∧
    (match step { onBus with pending := [.getmrl, .getmwl] } with
      | .next t => t.pending == [.getmwl] && t.out == [.i3cBytes [0x01, 0x00]]
      | _ => false) = true := by and_intros <;> decide +kernel

end Sys2Proof.Tests
end

section
/-! PROOFS. How a request crosses the drive: the statements of the family of chapter 01, each with the lemmas about the model's
functions that it rests on. -/

namespace Sys2Proof.Machine

/-! ### Tables, lists and folds -/

/-- What a table finds stands in it. -/
theorem mem_of_tabGet {α : Type} {t : Tab α} {k : Nat} {v : α} (h : tabGet t k = some v) : (k, v) ∈ t := by
  induction t with
  | nil => cases h
  | cons p t ih =>
    obtain ⟨a, w⟩ := p
    unfold tabGet at h
    split at h
    next e => subst e; cases h; exact List.mem_cons_self ..
    next => exact List.mem_cons_of_mem _ (ih h)

theorem foldl_max_ge (l : List Nat) : ∀ a, a ≤ l.foldl max a ∧ ∀ x ∈ l, x ≤ l.foldl max a := by
  induction l with
  | nil => simp
  | cons y l ih =>
    intro a
    obtain ⟨h1, h2⟩ := ih (max a y)
    refine ⟨le_trans (le_max_left _ _) h1, fun x hx => ?_⟩
    rcases List.mem_cons.1 hx with rfl | hx
    · exact le_trans (le_max_right _ _) h1
    · exact h2 x hx

/-- No number of a list lies above its greatest. -/
theorem le_listMax {l : List Nat} {x : Nat} (h : x ∈ l) : x ≤ listMax l := (foldl_max_ge l 0).2 x h

/-- The greatest of a list that is not empty stands in it. -/
theorem listMax_mem {l : List Nat} (h : l ≠ []) : listMax l ∈ l := by
  have key : ∀ (l : List Nat) (a : Nat), l.foldl max a = a ∨ l.foldl max a ∈ l := by
    intro l
    induction l with
    | nil => exact fun a => .inl rfl
    | cons x l ih =>
      intro a
      rcases ih (max a x) with e | e
      · rcases max_choice a x with m | m
        · exact .inl (by rw [List.foldl_cons, e, m])
        · exact .inr (by rw [List.foldl_cons, e, m]; exact List.mem_cons_self ..)
      · exact .inr (List.mem_cons_of_mem _ e)
  obtain ⟨x, l, rfl⟩ := List.exists_cons_of_ne_nil h
  rcases key (x :: l) 0 with e | e
  · have hx := le_listMax (l := x :: l) (List.mem_cons_self ..)
    have h0 : listMax (x :: l) = 0 := e
    rw [h0]; rw [h0] at hx
    rw [Nat.le_zero.1 hx]; exact List.mem_cons_self ..
  · exact e

/-- A fold whose steps change only registers changes only registers. -/
theorem foldl_onlyRegs {α : Type} (f : State → α → State) (h : ∀ s x, OnlyRegs s (f s x)) (l : List α) (s : State) :
    OnlyRegs s (l.foldl f s) :=
  List.foldlRecOn l f (OnlyRegs.refl s) (fun _ ht x _ => ht.trans (h _ x))

/-! ### A command that may let the sequencer go on -/

/-- A command that may let the sequencer go on decides what came behind it (check 1 of R126). -/
theorem concludeSeq_eq (u : State) : concludeSeq u = .next (decided u) := rfl

/-! ### Reset (O2) -/

/-- Every register has its Reset value at reset (R32). -/
theorem regGet_reset (k : Nat) : regGet State.reset k = regDefault k := rfl

/-- Settles O2: the register file is empty at reset, so that every register reads its Reset value. -/
theorem resetValues : Obligations.ResetValues := by
  unfold Obligations.ResetValues
  refine ⟨rfl, rfl, rfl, rfl, rfl, rfl, rfl, regGet_reset, rfl, ?_⟩
  simp only [regGet_reset]
  and_intros <;> decide +kernel

/-! ### The decision of a capsule (O19) -/

/-- Every capsule command is the shared decision, with its own work for a capsule that passes (R35, R126). -/
theorem exec_capsuleCommand {n op k : Nat} {ok : Bool} {ks : List Nat} {f : ReadFaults} {i : Instr}
    (h : (op, i) ∈ capsuleCommands n k ok ks f) : ∃ run, ∀ s, exec i s = capsule s n op run := by
  have key : ∀ p ∈ capsuleCommands n k ok ks f, ∃ run, ∀ s, exec p.2 s = capsule s n p.1 run := by
    simp only [capsuleCommands, List.forall_mem_cons, List.not_mem_nil, false_implies, implies_true, and_true]
    and_intros <;> exact ⟨_, fun _ => rfl⟩
  exact key _ h

/-- With no capsule of its opcode at the head there is nothing to decide. -/
theorem capsule_of_none (s : State) (n op : Nat) (run : State → Berth → Mooring → Capsule → State)
    (h : dueCapsule s n op = none) : capsule s n op run = .next (settle s) := by
  unfold capsule decideCapsule; rw [h]; rfl

/-- The capsule that is due is the one that the front request spells. -/
theorem nextRequest_of_dueCapsule {s : State} {n op : Nat} {c : Capsule} (h : dueCapsule s n op = some c) :
    ∃ r, nextRequest s = some r ∧ parseCapsule r.bytes = c := by
  unfold dueCapsule at h
  split at h
  · cases h
  next r hr =>
    dsimp only at h
    split at h
    · exact ⟨r, hr, Option.some.inj h⟩
    · cases h

@[simp] theorem refusalHint_csn (s : State) (c : Capsule) (st : Status) : (refusalHint s c st).csn = 0 := by
  unfold refusalHint refusal Completion.plain; dsimp only; (repeat' split) <;> rfl

@[simp] theorem refusalHint_status (s : State) (c : Capsule) (st : Status) : (refusalHint s c st).status = statusCode st := by
  unfold refusalHint refusal Completion.plain; dsimp only; (repeat' split) <;> rfl

/-- What counting a refusal may change: a register and the count of the quay that the capsule names (R33, R176). -/
theorem refuseCapsule_frame (s : State) (n : Nat) (c : Capsule) (st : Status) : ∃ r q u,
    u = { s with regs := r, flash := { s.flash with quays := q } } ∧ refuseCapsule s n c st = complete u n (refusalHint u c st) := by
  have hb : ∀ (p : Prop) [Decidable p] (a : Nat), ∃ r, (if p then bump s a else s) = { s with regs := r } := by
    intro p _ a; split
    · exact bump_frame s a
    · exact ⟨_, rfl⟩
  obtain ⟨r, hr⟩ := hb ((formatStatus s n c).isSome)
    (A.BW_REJ_COUNT + (if c.opcode = 0x50 ∨ c.opcode = 0x51 ∨ c.opcode = 0x52 then 8 else 4))
  unfold refuseCapsule; dsimp only; rw [hr]
  split
  · exact ⟨_, _, _, rfl, rfl⟩
  · exact ⟨r, s.flash.quays, _, rfl, rfl⟩

/-- A refusal leaves what the drive stores and does as it is. -/
theorem refuseCapsule_leaves (s : State) (n : Nat) (c : Capsule) (st : Status) :
    (refuseCapsule s n c st).seqr = s.seqr ∧ (refuseCapsule s n c st).cmds = s.cmds ∧
    (refuseCapsule s n c st).flash.items = s.flash.items ∧ (refuseCapsule s n c st).flash.rules = s.flash.rules ∧
    (refuseCapsule s n c st).cipher = s.cipher ∧ (refuseCapsule s n c st).mode = s.mode ∧
    (refuseCapsule s n c st).update = s.update ∧ (refuseCapsule s n c st).space = s.space ∧
    (refuseCapsule s n c st).index = s.index ∧ (refuseCapsule s n c st).log = s.log := by
  obtain ⟨r, q, u, hu, h⟩ := refuseCapsule_frame s n c st
  rw [h]; subst hu; simp

theorem popRequest_index_log (s : State) : (popRequest s).index = s.index ∧ (popRequest s).log = s.log := by
  obtain ⟨q, b, h⟩ := popRequest_frame s; rw [h]; exact ⟨rfl, rfl⟩

/-- The taking of a capsule that makes no rule search leaves the index dies and the logbook. -/
theorem takeRequest_index_log {s : State} {n op : Nat} {c : Capsule} (h : dueCapsule s n op = some c)
    (hs : searchesRules c = false) : (takeRequest s).index = s.index ∧ (takeRequest s).log = s.log := by
  obtain ⟨r, hr, rfl⟩ := nextRequest_of_dueCapsule h
  rw [takeRequest_plain s r hr hs]; exact popRequest_index_log s

/-- An admitted capsule has the next CSN, and its tag is outstanding on its berth (R32, R33). -/
theorem admittedState_admits (s : State) (n : Nat) (c : Capsule) (k : Bool) (b : Berth)
    (h : berthOf (takeRequest s) n = some b) :
    (admittedState s n c k).seqr.next = s.seqr.next + 1 ∧ (admittedState s n c k).seqr.last = s.seqr.next ∧
    (admittedState s n c k).boot = { s.boot with lastAdmitted := some s.sessionUs } ∧
    berthOf (admittedState s n c k) n =
      some { b with tags := b.tags ++ [⟨c.tag, s.seqr.next, k⟩], lastCsn := s.seqr.next } := by
  unfold berthOf at h
  simp [admittedState, admitTag, takeCsn, updBerth, berthOf, takeRequest_next, h]

/-- Settles O19: each capsule command is one shared decision, of which the three outcomes are the lemmas above. -/
theorem capsuleDecision : Obligations.CapsuleDecision := by
  unfold Obligations.CapsuleDecision
  refine ⟨?_, ?_, admittedState_admits⟩
  · intro s n op k ok ks f i hi hd
    obtain ⟨run, h⟩ := exec_capsuleCommand hi
    rw [h]; exact capsule_of_none s n op run hd
  · intro s n op k ok ks f i b m c st hi hp hs
    obtain ⟨run, h⟩ := exec_capsuleCommand hi
    obtain ⟨h1, h2, h3, h4, h5, h6, h7, h8, h9, h10⟩ := refuseCapsule_leaves (takeRequest s) n c st
    refine ⟨?_, refusalHint_csn s c st, refusalHint_status s c st, ?_⟩
    · rw [h]; exact capsule_refused s n op run b m c st hp hs
    · dsimp only
      rw [h1, h2, h3, h4, h5, h6, h7, h8, h9, h10]
      refine ⟨takeRequest_next s, ?_⟩
      simp only [takeRequest_cmds, takeRequest_flash_items, takeRequest_flash_rules, takeRequest_cipher, takeRequest_mode,
        takeRequest_update, takeRequest_space, true_and]
      exact takeRequest_index_log hp.1

/-! ### What a write of registers comes to (R55, R57) -/

/-- An access whose words all pass is applied whole. -/
theorem writeRegs_accepted {s : State} {path m role addr : Nat} {ws : List Word} (csn : Nat) (tag : Option (Nat × Nat))
    (h : writeVerdict s path m role addr ws = none) :
    writeRegs s path m role addr csn tag ws = (reviewSpace (applyWords m csn tag s addr ws), .ok, anyWaits s addr ws) := by
  unfold writeRegs; rw [h]

/-- An access of which a word fails is recorded and counted. -/
theorem writeRegs_rejected {s : State} {path m role addr a : Nat} {ws : List Word} {st : Status} (csn : Nat)
    (tag : Option (Nat × Nat)) (h : writeVerdict s path m role addr ws = some (a, st, false)) :
    writeRegs s path m role addr csn tag ws = (bump (recordReject s path a st) (A.BW_REJ_COUNT + 20), st, false) := by
  unfold writeRegs; rw [h]; rfl

/-! ### The single write of a mooring -/

/-- The single write once admission is past: the mooring stands and a CSN is to be had. -/
theorem singleWrite_standing {s : State} {m : Nat} {x : Mooring} {addr : Nat} {w : Word} (hm : mooringOf s m = some x)
    (ht : x.st ≠ .tearingDown) (hc : serviceOpen s = true → csnReady s 1 = true) :
    singleWrite s m addr w = match writeRefused s x addr w with
      | some st => writeOut s m 0 st
      | none =>
        let r := writeRegs (takeCsn s).2 0 m x.role addr s.seqr.next none [w]
        if r.2.2 then r.1 else writeOut r.1 m s.seqr.next r.2.1 := by
  have h : ¬ (x.st = .tearingDown ∨ (serviceOpen s && !csnReady s 1) = true) := by
    rintro (h | h)
    · exact ht h
    · simp only [Bool.and_eq_true, Bool.not_eq_true'] at h
      rw [hc h.1] at h; exact Bool.noConfusion h.2
  unfold singleWrite
  simp only [hm, h, if_false]; rfl

theorem exec_registerWrite_accepted (s : State) (m : Nat) (x : Mooring) (addr : Nat) (w : Word)
    (h : WriteAccepted s m x addr w) :
    exec (.registerWrite m addr w) s = .next (decided (
      let u := trigger (wordPlaced s m addr w) addr w m s.seqr.next none
      if completionWaits s addr w then reviewSpace u else writeDone u m s.seqr.next)) := by
  obtain ⟨hm, ht, hc, hr, hv⟩ := h
  show concludeSeq (singleWrite s m addr w) = _
  rw [concludeSeq_eq, singleWrite_standing hm ht (fun _ => hc), hr]
  dsimp only
  rw [writeRegs_accepted _ _ hv]
  have hw : anyWaits (takeCsn s).2 addr [w] = completionWaits s addr w := Bool.or_false _
  dsimp only
  rw [hw]; rfl

theorem exec_registerWrite_refused (s : State) (m : Nat) (x : Mooring) (addr : Nat) (w : Word) (st : Status)
    (hm : mooringOf s m = some x) (ht : x.st ≠ .tearingDown) (hc : serviceOpen s = true → csnReady s 1 = true)
    (hr : writeRefused s x addr w = some st) :
    exec (.registerWrite m addr w) s = .next (decided (writeOut s m 0 st)) := by
  show concludeSeq (singleWrite s m addr w) = _
  rw [concludeSeq_eq, singleWrite_standing hm ht hc, hr]

theorem exec_registerWrite_rejected (s : State) (m : Nat) (x : Mooring) (addr a : Nat) (w : Word) (st : Status)
    (hm : mooringOf s m = some x) (ht : x.st ≠ .tearingDown) (hc : csnReady s 1 = true)
    (hr : writeRefused s x addr w = none) (hv : writeVerdict (takeCsn s).2 0 m x.role addr [w] = some (a, st, false)) :
    exec (.registerWrite m addr w) s = .next (decided (
      writeOut (bump (recordReject (takeCsn s).2 0 a st) (A.BW_REJ_COUNT + 20)) m s.seqr.next st)) := by
  show concludeSeq (singleWrite s m addr w) = _
  rw [concludeSeq_eq, singleWrite_standing hm ht (fun _ => hc), hr]
  dsimp only
  rw [writeRegs_rejected _ _ hv]; rfl

/-! ### The commands that write one register -/

/-- A key group command is the COMMIT of page 6 where its shadow holds that command's OP (R361). -/
theorem keyGroupWrite_eq {s : State} {op : Nat} (m : Nat) (h : (keyGroup s).1 = op) :
    keyGroupWrite s m op = singleWrite s m 0x6010 1 := if_pos h

/-- Settles O15: the three outcomes of a single write; every command that writes one register is that write of its word. -/
theorem registerWrites : Obligations.RegisterWrites := by
  unfold Obligations.RegisterWrites
  refine ⟨exec_registerWrite_accepted, exec_registerWrite_refused, exec_registerWrite_rejected, fun _ _ _ => rfl, fun _ _ _ => rfl,
    fun _ _ _ => rfl, fun _ _ _ _ => rfl, fun _ _ _ => rfl, fun _ _ _ => rfl, fun _ _ => rfl, fun _ _ _ => rfl, fun _ _ _ => rfl,
    fun _ _ => rfl, fun _ _ _ => rfl, fun _ _ _ => rfl, ?certGen, fun _ _ => rfl, ?cal, ?diag, ?test, fun _ _ => rfl,
    fun _ _ => rfl, fun _ _ => rfl, fun _ _ => rfl, fun _ _ => rfl, fun _ _ => rfl, fun _ _ => rfl, fun _ _ _ => rfl,
    ?exportKey, ?rekey, ?erase⟩
  case certGen => exact fun s m r w h1 h4 => if_pos ⟨h1, h4⟩
  case cal => exact fun s m c d hc hd => if_pos ⟨hc, hd⟩
  case diag => exact fun s m c k hc hk => if_pos ⟨hc, hk⟩
  case test =>
    intro s m e he
    have ha : 0x50064 + 0x1000 * e = 0x50000 + 0x1000 * e + 0x64 := by omega
    rw [ha]; exact if_pos he
  case exportKey => exact fun s m h => congrArg concludeSeq (keyGroupWrite_eq m h)
  case rekey => exact fun s m h => congrArg concludeSeq (keyGroupWrite_eq m h)
  case erase => exact fun s m h => congrArg concludeSeq (keyGroupWrite_eq m h)

/-! ### MGMT_READ (R43, R44, R55, R111) -/

/-- A register read is accepted where its words are mapped, aligned and within a page (R44, R55). -/
theorem readStatus_eq_none_iff (addr count : Nat) : readStatus addr count = none ↔
    pageMapped (addr / 4096) = true ∧ addr % 4 = 0 ∧ 1 ≤ count ∧ count ≤ 64 ∧ addr % 4096 + 4 * count ≤ 4096 := by
  unfold readStatus
  by_cases hp : pageMapped (addr / 0x1000) = true ∧ addr % 4 = 0
  · by_cases hc : count = 0 ∨ 64 < count ∨ 0x1000 < addr % 0x1000 + 4 * count
    · simp only [hp, hc]; simp; omega
    · simp only [hp, hc]; simp; omega
  · have h : (!pageMapped (addr / 0x1000) || decide (addr % 4 ≠ 0)) = true := by
      cases hm : pageMapped (addr / 0x1000) with
      | false => rfl
      | true => simpa [hm] using hp
    rw [if_pos h]
    exact iff_of_false (Option.some_ne_none _) (fun e => hp ⟨e.1, e.2.1⟩)

/-- The completion of an accepted MGMT_READ: its words in network order (R111). -/
def readReply (c : Capsule) (csn : Nat) (ws : List Word) : Completion :=
  { statusOnly c csn .ok with valueLen := 4 * (c.param % 256), value := ws.flatMap (fun w => beBytes w.toNat 4) }

theorem mgmtRead_rejected {c : Capsule} {st : Status} (h : readStatus c.segOff (c.param % 256) = some st) (s : State) (csn : Nat) :
    mgmtRead s c csn = (recordReject s 0 c.segOff st, statusOnly c csn st) := by
  unfold mgmtRead; simp only [h]

theorem mgmtRead_accepted {c : Capsule} (h : readStatus c.segOff (c.param % 256) = none) (s : State) (csn : Nat) :
    mgmtRead s c csn = ((readRegs false (c.param % 256) s c.segOff).1,
      readReply c csn (readRegs false (c.param % 256) s c.segOff).2) := by
  unfold mgmtRead; simp only [h]; rfl

/-- MGMT_READ in service takes a CSN. -/
theorem exec_mgmtRead_admitted (s : State) (n : Nat) (b : Berth) (m : Mooring) (c : Capsule) (h : Admitted s n 0x50 b m c) :
    exec (.mgmtRead n) s = .next (decided (complete (mgmtRead (admittedState s n c true) c s.seqr.next).1 n
      (mgmtRead (admittedState s n c true) c s.seqr.next).2)) := by
  show capsule s n 0x50 _ = _
  rw [capsule_admissible s n 0x50 _ b m c h.1, serveAt_open s n c _ h.2]

/-- A capsule that is served before service opens runs with CSN 0 (R386). -/
theorem serveAt_closed (s : State) (n : Nat) (c : Capsule) (run : State → Nat → State × Completion) (h : serviceOpen s = false) :
    serveAt (takeRequest s) n c run = complete (run (takeRequest s) 0).1 n (run (takeRequest s) 0).2 := by
  have ht : serviceOpen (takeRequest s) = false := by
    unfold serviceOpen at *; rw [takeRequest_phase]; exact h
  unfold serveAt; rw [ht]; rfl

theorem exec_mgmtRead_closed (s : State) (n : Nat) (b : Berth) (m : Mooring) (c : Capsule) (h : Admissible s n 0x50 b m c)
    (ho : serviceOpen s = false) :
    exec (.mgmtRead n) s = .next (decided (complete (mgmtRead (takeRequest s) c 0).1 n (mgmtRead (takeRequest s) c 0).2)) := by
  show capsule s n 0x50 _ = _
  rw [capsule_admissible s n 0x50 _ b m c h, serveAt_closed s n c _ ho]

/-! ### MGMT_WRITE and CAPABILITY (R55, R111, R112) -/

theorem exec_mgmtWrite_admitted (s : State) (n : Nat) (b : Berth) (m : Mooring) (c : Capsule) (h : Admitted s n 0x51 b m c) :
    let r := writeRegs (admittedState s n c true) 0 b.mooring m.role c.segOff s.seqr.next (some (n, c.tag)) (capsuleWords c)
    exec (.mgmtWrite n) s = .next (decided (if r.2.2 then r.1 else complete r.1 n (statusOnly c s.seqr.next r.2.1))) := by
  show capsule s n 0x51 _ = _
  rw [capsule_admissible s n 0x51 _ b m c h.1, ← takeRequest_next s]; rfl

theorem exec_capability_admitted (s : State) (n : Nat) (b : Berth) (m : Mooring) (c : Capsule) (h : Admitted s n 0x52 b m c) :
    exec (.capability n) s = .next (decided (complete (admittedState s n c true) n { statusOnly c s.seqr.next .ok with
      valueLen := 64
      value := capability (admittedState s n c true) m.tp.maxPayload m.berths.length m.tp.recvWindow })) := by
  show capsule s n 0x52 _ = _
  rw [capsule_admissible s n 0x52 _ b m c h.1, serveAt_open s n c _ h.2]

/-- Half a chunk before the recorded CSNs run out, the next chunk is recorded, and the chunk of RECORD_IDs with it (R36, R271). -/
theorem exec_csnChunkReserve (s : State) (k : Nat) (h : s.flash.chunk = some k) :
    exec .csnChunkReserve s = .next (settle (if k * 2 ^ 24 + 2 ^ 23 ≤ s.seqr.next
      then { s with flash := { s.flash with chunk := some (k + 1), recChunk := some (s.space.nextRecord / 2 ^ 24 + 1) } }
      else s)) := by
  show execCsnChunkReserve s = _
  unfold execCsnChunkReserve
  simp only [h]
  split <;> rfl

/-- Settles O28: the management capsules, clause by clause from the lemmas above. -/
theorem managementCommands : Obligations.ManagementCommands := by
  unfold Obligations.ManagementCommands
  refine ⟨?read, ?readClosed, readStatus_eq_none_iff, exec_mgmtWrite_admitted, ?writeRegs, exec_capability_admitted,
    exec_csnChunkReserve⟩
  case read =>
    intro s n b m c h
    refine ⟨fun st hs => ?_, fun hs => ?_⟩
    · rw [exec_mgmtRead_admitted s n b m c h, mgmtRead_rejected hs]
    · rw [exec_mgmtRead_admitted s n b m c h, mgmtRead_accepted hs]; rfl
  case readClosed =>
    intro s n b m c h ho hs
    rw [exec_mgmtRead_closed s n b m c h ho, mgmtRead_accepted hs]; rfl
  case writeRegs =>
    exact fun s path m role addr csn tag ws => ⟨writeRegs_accepted csn tag, fun a st => writeRegs_rejected csn tag⟩

/-! ### Admission of a read (R31, R129) -/

/-- A read is admitted with the next CSN, its in-flight searches are made, and it starts (R31, R203, R209). -/
theorem admitRead_eq (s : State) (n : Nat) (c : Capsule) (f : ReadFaults) (job : State → Job) :
    admitRead (takeRequest s) n c f job = (let u := admittedState s n c true
      startCmd (inflightSearches u c.quay ((jobKeys (job u)).map Prod.snd))
        { cmdOf n c s.seqr.next (slotEpoch u (quaySlot u c.quay)) (job u) 0 0 with badTags := f.tags, parity := f.parity }) := by
  rw [← takeRequest_next s]; rfl

/-- An admitted capsule whose work is a read. -/
theorem exec_read_admitted {s : State} {n op : Nat} {b : Berth} {m : Mooring} {c : Capsule} (f : ReadFaults)
    (job : Capsule → State → Job) (h : Admitted s n op b m c) :
    capsule s n op (fun s _ _ c => admitRead s n c f (job c)) = .next (decided (let u := admittedState s n c true
      startCmd (inflightSearches u c.quay ((jobKeys (job c u)).map Prod.snd))
        { cmdOf n c s.seqr.next (slotEpoch u (quaySlot u c.quay)) (job c u) 0 0 with badTags := f.tags, parity := f.parity })) := by
  rw [capsule_admissible s n op _ b m c h.1, admitRead_eq]

/-- EXPORT carries the kind that its slot has at its CSN (R173). -/
theorem exec_exportValue_admitted (s : State) (n : Nat) (b : Berth) (m : Mooring) (c : Capsule) (x : Slot) (f : ReadFaults)
    (h : Admitted s n 0x08 b m c) (hx : slotOf s (natBits c.param 15 0) = some x) :
    exec (.exportValue n f) s = .next (decided (let u := admittedState s n c true
      let d := digestOf u c.quay c.key
      startCmd (inflightSearches u c.quay [d]) { cmdOf n c s.seqr.next (slotEpoch u (quaySlot u c.quay))
        (.exportSegs c.key d c.segOff (natBits c.param 15 0) (natBits c.param 31 16)
          (slotEpoch u (natBits c.param 15 0)) x.kind) 0 0 with badTags := f.tags, parity := f.parity })) := by
  have hu : slotOf (admittedState s n c true) (natBits c.param 15 0) = some x := by
    unfold slotOf at *; rw [admittedState_cipher]; exact hx
  refine (exec_read_admitted f (fun c s => .exportSegs c.key (digestOf s c.quay c.key) c.segOff (natBits c.param 15 0)
    (natBits c.param 31 16) (slotEpoch s (natBits c.param 15 0)) (match slotOf s (natBits c.param 15 0) with
      | some x => x.kind
      | none => 0)) h).trans ?_
  dsimp only
  rw [hu]; rfl

/-! ### A command alone on the drive -/

/-- No command holds itself back: only an earlier one does (R129). -/
theorem holdsBack_self (c : Cmd) : holdsBack c c = false := by
  simp [holdsBack]

/-- With no other command in progress and no posted word of its keys, nothing blocks a command. -/
theorem blocked_alone {u : State} {c x : Cmd} (hu : u.cmds = [x]) (hj : x = { c with engine := x.engine })
    (hp : pairLost u c.job = false) (hw : wordAhead u c = false) : blocked u x = false := by
  have h1 : pairLost u x.job = false := by rw [hj]; exact hp
  have h2 : wordAhead u x = false := by rw [hj]; exact hw
  simp [blocked, hu, holdsBack_self, h1, h2]

/-- The only command in progress runs where nothing blocks it. -/
theorem resumeCmds_single {u : State} {x : Cmd} (hu : u.cmds = [x]) (hs : x.stage = .waiting) (hv : x.voidFor = none)
    (hb : blocked u x = false) : resumeCmds u = runCmd u x := by
  simp [resumeCmds, hu, sortBy, insertBy, hs, hv, hb]

/-- Such a command runs in the step that admits it. -/
theorem startCmd_alone (u : State) (c : Cmd) (hu : u.cmds = []) (hs : c.stage = .waiting) (hv : c.voidFor = none)
    (hp : pairLost u c.job = false) (hw : wordAhead u c = false) :
    startCmd u c = (let x := { c with engine := dispatchEngine u }
      let t := runCmd { u with cmds := [x] } x
      towLoop (4097 * t.harbour.tows.length) t) := by
  have hr : resumeCmds { u with cmds := [{ c with engine := dispatchEngine u }] } =
      runCmd { u with cmds := [{ c with engine := dispatchEngine u }] } { c with engine := dispatchEngine u } :=
    resumeCmds_single rfl hs hv (blocked_alone (c := c) rfl rfl hp hw)
  unfold startCmd resumeAll
  rw [hu, List.nil_append, hr]

/-! ### The run of a command (R194, R234) -/

/-- A command waits, with its leaves pinned, for a leaf or for a page. -/
theorem runCmd_waits {u : State} {x : Cmd} (h : ¬ ((∀ b ∈ leavesNeeded (lookOnce u x) x,
      leafIn (pinLeaves (lookOnce u x) x.csn (leavesNeeded (lookOnce u x) x)) b = true) ∧
    pagesWait (pinLeaves (lookOnce u x) x.csn (leavesNeeded (lookOnce u x) x)) x = false)) :
    runCmd u x = pinLeaves (lookOnce u x) x.csn (leavesNeeded (lookOnce u x) x) := by
  unfold runCmd
  exact if_neg (by simpa [List.all_eq_true] using h)

/-- With its leaves there and its pages readable it is carried out. -/
theorem runCmd_runs {u : State} {x : Cmd} (hl : ∀ b ∈ leavesNeeded (lookOnce u x) x,
      leafIn (pinLeaves (lookOnce u x) x.csn (leavesNeeded (lookOnce u x) x)) b = true)
    (hp : pagesWait (pinLeaves (lookOnce u x) x.csn (leavesNeeded (lookOnce u x) x)) x = false) :
    runCmd u x = doCmd (pinLeaves (lookOnce u x) x.csn (leavesNeeded (lookOnce u x) x)) x := by
  unfold runCmd
  exact if_pos (by simpa [List.all_eq_true, hp] using hl)

/-- Settles O20: a read is admitted, starts alone, and runs or waits, by the lemmas above. -/
theorem readsAreAdmitted : Obligations.ReadsAreAdmitted := by
  unfold Obligations.ReadsAreAdmitted
  refine ⟨?get, ?exist, ?scan, exec_exportValue_admitted, startCmd_alone, ?run⟩
  case get =>
    exact fun s n b m c f h => exec_read_admitted f (fun c s => .get c.key (digestOf s c.quay c.key) c.segOff c.valueLen) h
  case exist =>
    exact fun s n b m c h => exec_read_admitted noFaults (fun c s => .exist c.key (digestOf s c.quay c.key)) h
  case scan =>
    exact fun s n b m c h => exec_read_admitted noFaults (fun c _ => .scan (beAt c.value 0 16) (natBits c.param 15 0)
      (natBits c.param 23 16) (c.flags % 2 == 1) c.key) h
  case run =>
    intro u x
    refine ⟨runCmd_waits, fun hl hp => ⟨fun key d off len hj => ?_, fun key d hj => ?_⟩⟩ <;>
      rw [runCmd_runs hl hp, doCmd, hj]

/-! ### The watchdog, the path code and the scrub (O45) -/

/-- The watchdog's expiry counts once for each presentation, and a fault against its unit; then the operation is reissued (R26). -/
theorem exec_handshakeWatchdog (s : State) (u : WatchUnit) (again : Bool) (hl : live s = true) (hu : watchUnitOk u = true) :
    exec (.handshakeWatchdog u again) s = .next (decided (if again
      then reissueOne (watchdogFault (bumpBy s A.BW_WDOG_COUNT 2) u) u
      else watchdogFault (bumpBy s A.BW_WDOG_COUNT 1) u)) := by
  show execHandshakeWatchdog u again s = _
  unfold execHandshakeWatchdog
  cases again <;> simp [hl, hu, concludeSeq_eq]

/-- A word of the scrub or of an operation, by what the code says of it (R28). -/
theorem exec_dramScrub (s : State) (ch : Nat) (p : ScrubPlace) (w : PathWord) (hl : live s = true) (hc : ch < 8) :
    exec (.dramScrub ch ⟨p, w⟩) s = match pathRead w with
      | .clean => .next (settle s)
      | .corrected => .next (settle (countPath s p false))
      | .uncorrectable => .next (decided (uncorrectable (pathFault (countPath s p true) ch p) p)) := by
  show execDramScrub ch ⟨p, w⟩ s = _
  unfold execDramScrub
  have h8 : ¬ 8 ≤ ch := by omega
  cases pathRead w <;> simp [hl, h8, concludeSeq_eq, conclude_eq]

/-- One symbol in error changes that symbol and no other (R27). -/
theorem pathSymbol_received (d : BitVec 128) (a k : Nat) (e : BitVec 4) (ha : a < 36) :
    pathSymbol (pathReceived ⟨d, [(a, e)]⟩) k = pathSymbol (pathEncode d) k ^^^ (if k = a then e else 0) := by
  apply BitVec.eq_of_getLsbD_eq
  intro i hi
  simp only [pathSymbol, pathReceived, List.foldl_cons, List.foldl_nil, BitVec.getLsbD_extractLsb', BitVec.getLsbD_xor,
    BitVec.getLsbD_shiftLeft, BitVec.truncate_eq_setWidth, BitVec.getLsbD_setWidth, hi, decide_true, Bool.true_and]
  congr 1
  by_cases hk : k = a
  · subst hk
    have h1 : 4 * k + i < 144 := by omega
    have h2 : i < 144 := by omega
    simp [h1, h2]
  · rw [if_neg hk]
    rcases Nat.lt_or_gt_of_ne hk with hlt | hgt
    · have h1 : 4 * k + i < 4 * a := by omega
      simp [h1]
    · have h1 : 4 ≤ 4 * k + i - 4 * a := by omega
      simp [BitVec.getLsbD_of_ge e _ h1]

theorem pathSymbol_received_eq_iff (d : BitVec 128) (a : Nat) (e : BitVec 4) (ha : a < 36) (he : e ≠ 0) (k : Nat) :
    pathSymbol (pathReceived ⟨d, [(a, e)]⟩) k = pathSymbol (pathEncode d) k ↔ k ≠ a := by
  rw [pathSymbol_received d a k e ha]
  by_cases hk : k = a
  · simpa [hk] using he
  · simp [hk]

/-- What the code makes of a word, by the number of its symbols in error (R27). -/
theorem pathRead_by_errors (w : PathWord) :
    (w.errors = [] → pathRead w = .clean ∧ pathReceived w = pathEncode w.data) ∧
    (∀ e, w.errors = [e] → pathRead w = .corrected ∧ pathData w = some w.data) ∧
    (∀ e f, w.errors = [e, f] → pathRead w = .uncorrectable ∧ pathData w = none) := by
  refine ⟨fun h => ?_, fun e h => ?_, fun e f h => ?_⟩ <;> simp [pathRead, pathReceived, pathData, h]

/-- An uncorrectable word of a leaf that nothing has changed, waits for or reads: the leaf is dropped (R28). -/
theorem uncorrectable_cleanLeaf (s : State) (b : Nat) (c : Chain) (hb : tabGet s.index.chains b = some c)
    (hd : c.dirtySince = none) (hp : c.pending = []) (hr : c.readers = []) :
    uncorrectable s (.cleanLeaf b) = { s with index := { s.index with chains := tabErase s.index.chains b } } := by
  simp [uncorrectable, hb, hd, hp, hr]

/-- Settles O45: the watchdog, the path code and the scrub, clause by clause from the lemmas above. -/
theorem watchdogAndScrub : Obligations.WatchdogAndScrub := by
  unfold Obligations.WatchdogAndScrub
  refine ⟨?watchdog, ?unit, pathRead_by_errors, ?symbol, ?scrub, ?count, uncorrectable_cleanLeaf, ?place⟩
  case watchdog =>
    exact fun s u hl hu => ⟨exec_handshakeWatchdog s u false hl hu, exec_handshakeWatchdog s u true hl hu⟩
  case unit => exact fun s n => ⟨rfl, rfl, rfl, rfl, rfl, rfl⟩
  case symbol => exact fun d a e ha he k _ => pathSymbol_received_eq_iff d a e ha he k
  case scrub =>
    intro s ch p w hl hc
    rw [exec_dramScrub s ch p w hl hc]
    refine ⟨fun h => ?_, fun h => ?_, fun h => ?_⟩ <;> rw [h]
  case count =>
    exact fun s bad c => ⟨rfl, fun hc => if_pos hc, fun _ _ => rfl, fun _ => rfl⟩
  case place =>
    exact fun s b n hn => ⟨rfl, rfl, if_pos hn⟩

/-! ### The declaration of a power fail (R291, R462, R465) -/

/-- The switch is on, so that a power fail may be declared. -/
def switchOn (p : PowerPhase) : Prop := p = .bulkCharge ∨ p = .rails ∨ p = .running

theorem declareFail_of_switchOn {s : State} (h : switchOn s.power.phase) : declareFail s = powerStop s := by
  unfold declareFail
  rcases h with h | h | h <;> rw [h]

theorem exec_powerFail_of_switchOn {s : State} {cause : FailCause} (h : switchOn s.power.phase)
    (hc : cause = .pwrdis → s.power.pwrdis = true) : exec (.powerFail cause) s = .next (settle (powerStop s)) := by
  have hn : ¬ (cause = .pwrdis ∧ (!s.power.pwrdis) = true) := by
    rintro ⟨h1, h2⟩; rw [hc h1] at h2; exact Bool.noConfusion h2
  show execPowerFail cause s = _
  unfold execPowerFail
  rw [if_neg hn, declareFail_of_switchOn h]; rfl

@[simp] theorem powerStop_power_phase (s : State) : (powerStop s).power.phase = .stop := rfl

/-- In Stop the lines are driven as after a loss of power (R468, R471). -/
theorem settle_powerStop_lines (s : State) :
    (settle (powerStop s)).lines.alert = false ∧ (settle (powerStop s)).lines.lamp = .off := by
  rw [settle_lines]
  simp [linesOf, alertOf, lampOf]

/-! ### PWRDIS (R65, R466) -/

theorem exec_pwrdis_edge (s : State) (high : Bool) (h : high ≠ s.power.pwrdisRaw) :
    exec (.pwrdis high) s =
      .next (settle { s with power := { s.power with pwrdisRaw := high, pwrdisSince := s.boardUs } }) :=
  if_pos h

theorem exec_pwrdis_early (s : State) (high : Bool) (h : high = s.power.pwrdisRaw)
    (hw : high = s.power.pwrdis ∨ s.boardUs < s.power.pwrdisSince + 1000) : exec (.pwrdis high) s = .next (settle s) := by
  show execPwrdis high s = _
  unfold execPwrdis
  rw [if_neg (not_not.2 h), if_neg (by rintro ⟨h1, h2⟩; rcases hw with hw | hw <;> [exact h1 hw; omega])]; rfl

/-- A level that has held for 1 ms counts. -/
theorem exec_pwrdis_counts {s : State} {high : Bool} (h : s.power.pwrdisRaw = high) (hn : s.power.pwrdis = !high)
    (hw : s.power.pwrdisSince + 1000 ≤ s.boardUs) : exec (.pwrdis high) s = .next (settle (pwrdisChanged s high)) := by
  show execPwrdis high s = _
  unfold execPwrdis
  rw [if_neg (not_not.2 h.symm), if_pos ⟨by rw [hn]; cases high <;> decide, hw⟩]; rfl

theorem pwrdisChanged_high_of_switchOn {s : State} (h : switchOn s.power.phase) :
    pwrdisChanged s true = powerStop { s with power := { s.power with pwrdis := true } } := by
  have hd : s.power.phase ≠ .detect := by rcases h with h | h | h <;> rw [h] <;> decide
  have hd' : declareFail { s with power := { s.power with pwrdis := true } } =
      powerStop { s with power := { s.power with pwrdis := true } } := declareFail_of_switchOn h
  simp [pwrdisChanged, hd, hd']

theorem pwrdisChanged_high_in_detect {s : State} (h : s.power.phase = .detect) : pwrdisChanged s true =
    { s with power := { s.power with pwrdis := true, phase := .unpowered, phaseSince := s.boardUs } } := by
  simp [pwrdisChanged, h, enterPower]

theorem pwrdisChanged_low_unpowered {s : State} (h : s.power.phase = .unpowered) (h1 : 36000 ≤ s.power.inputMv)
    (h2 : s.power.inputMv ≤ 75000) : pwrdisChanged s false =
    { s with power := { s.power with pwrdis := false, phase := .detect, phaseSince := s.boardUs } } := by
  simp [pwrdisChanged, h, enterPower, inputQualified, h1, h2]

/-! ### Finish (R291) -/

theorem exec_finish_of_stop (s : State) (h : s.power.phase = .stop) :
    exec .finish s = .next (settle (let u := s.space.pages.foldl (fun s p => confirmPage s p.1 p.2) s
      { u with power := { u.power with phase := .park, phaseSince := u.boardUs } })) := if_pos h

/-! ### Park (R41, R148, R414) -/

/-- A set of the landing pool, or with nothing packed, has no word line to finish. -/
theorem flushSet_eq_self {s : State} (h : ∀ p ∈ s.flash.sets, p.2.pool = .landing ∨ p.2.packed = []) (id : Nat) :
    flushSet s id = s := by
  unfold flushSet
  split
  next x hx =>
    have := h _ (mem_of_tabGet hx)
    rw [if_pos (by simpa using this)]
  next => rfl

theorem flushSets_eq_self {s : State} (h : ∀ p ∈ s.flash.sets, p.2.pool = .landing ∨ p.2.packed = []) (ids : List Nat) :
    ids.foldl flushSet s = s := by
  induction ids with
  | nil => rfl
  | cons id ids ih => rw [List.foldl_cons, flushSet_eq_self h, ih]

/-- What of flash a loss of power leaves, with the pages and sets that hold the word lines once they are whole. -/
def keptFlash (s : State) (pages : Tab Page) (sets : Tab StripeSet) : Flash :=
  { s.flash with
    items := (s.flash.items.filter (fun i => i.landed)).map (fun i => { i with taken := none })
    quays := s.flash.quays.map (fun p => (p.1, { p.2 with reserved := 0, refused := 0 }))
    config := { s.flash.config with ovlFail := 0 }
    pages := pages
    sets := sets
    partialSet := if s.update.st = .staging then some (s.update.owner, s.update.staged) else none
    armedCohort := if s.update.st = .empty ∨ s.update.st = .staging ∨ s.update.st = .staged then none else some s.update.cohort }

/-- A loss of power resets the drive but for what lies in flash, the commands that wait, the board's clock, PWRDIS and what was sent;
word lines that had been begun are whole (R41, R148, R231). -/
theorem powerLost_eq (s : State) : ∃ pages sets, powerLost s =
      { State.reset with
        pending := s.pending, boardUs := s.boardUs, flash := keptFlash s pages sets, out := s.out, draws := s.draws, freeN := s.freeN
        power := { State.reset.power with
          pwrdis := s.power.pwrdis, pwrdisRaw := s.power.pwrdisRaw, pwrdisSince := s.power.pwrdisSince } } ∧
    ((∀ p ∈ s.flash.sets, p.2.pool = .landing ∨ p.2.packed = []) → pages = s.flash.pages ∧ sets = s.flash.sets) := by
  obtain ⟨p, x, d, td, r, h⟩ := flushSets_programmed s
  refine ⟨p, x, by unfold powerLost; rw [h]; rfl, fun hs => ?_⟩
  rw [flushSets_eq_self hs] at h
  exact ⟨congrArg (fun u => u.flash.pages) h.symm, congrArg (fun u => u.flash.sets) h.symm⟩

/-- The phase that Park ends in: Detect where the input is back and PWRDIS lets it begin. -/
def phaseAfterPark (s : State) (mv : Nat) : PowerPhase :=
  if 36000 ≤ mv ∧ mv ≤ 75000 ∧ s.power.pwrdis = false then .detect else .unpowered

/-- Park ends in a drive reset, with the input stage's reading and phase in place. -/
theorem exec_park_of_park {s : State} (h : s.power.phase = .park) (mv : Nat) :
    exec (.park mv) s = .next (settle { powerLost s with
      power := { (powerLost s).power with inputMv := mv, phase := phaseAfterPark s mv, phaseSince := s.boardUs } }) := by
  obtain ⟨pages, sets, hl, -⟩ := powerLost_eq s
  have hd : (powerLost s).power.pwrdis = s.power.pwrdis := by rw [hl]
  have hb : (powerLost s).boardUs = s.boardUs := by rw [hl]
  have hp : (if (inputQualified mv && !s.power.pwrdis) = true then PowerPhase.detect else .unpowered) = phaseAfterPark s mv := by
    unfold phaseAfterPark
    exact if_congr (by simp [inputQualified, and_assoc]) rfl rfl
  refine (if_pos h).trans ?_
  dsimp only [enterPower]
  rw [hd, hb, hp]; rfl

/-- Settles O10: power fail, PWRDIS and Park by the cases of the input stage's phase. -/
theorem powerFailAndPark : Obligations.PowerFailAndPark := by
  unfold Obligations.PowerFailAndPark
  refine ⟨?fail, exec_finish_of_stop, exec_pwrdis_edge, exec_pwrdis_early, ?high, ?detect, ?low, ?park⟩
  case fail =>
    intro s cause h hc
    refine ⟨_, exec_powerFail_of_switchOn h hc, ?_⟩
    obtain ⟨ha, hl⟩ := settle_powerStop_lines s
    simp only [ha, hl, settle_power, settle_seqr, settle_linkA, settle_linkB, settle_moorings, settle_berths, settle_seals,
      settle_harbour, settle_space, settle_flash, settle_log, settle_cmds, settle_update, settle_out, and_true]
    and_intros <;> rfl
  case high =>
    intro s h hr hp hw
    refine ⟨_, exec_pwrdis_counts hr hp hw, ?_⟩
    rw [pwrdisChanged_high_of_switchOn h]
    simp only [settle_power, settle_flash, settle_moorings, settle_berths]
    and_intros <;> rfl
  case detect =>
    intro s h hr hp hw
    rw [exec_pwrdis_counts hr hp hw, pwrdisChanged_high_in_detect h]
  case low =>
    intro s h h1 h2 hr hp hw
    rw [exec_pwrdis_counts hr hp hw, pwrdisChanged_low_unpowered h h1 h2]
  case park =>
    intro s mv h
    refine ⟨_, exec_park_of_park h mv, ?_⟩
    obtain ⟨pages, sets, hl, hs⟩ := powerLost_eq s
    rw [hl]
    simp only [settle_power, settle_flash, settle_pending, settle_boardUs, settle_out, settle_sessionUs, settle_phase, settle_boot,
      settle_mode, settle_moorings, settle_berths, settle_cmds, settle_seals, settle_shadows, settle_seqr, settle_index,
      settle_cipher, settle_log, settle_update, settle_harbour, settle_sideband, settle_tide]
    refine ⟨rfl, hs, ?_⟩
    simp only [true_and]
    exact ⟨rfl, rfl, rfl, rfl, rfl, rfl, rfl, rfl, rfl, rfl, rfl, fun k h1 h2 => regGet_settle _ k h1 h2⟩

/-! ### What MOUNT and FULL_SCAN do (R295, R299) -/

theorem exec_mount (s : State) (k : Saved) (hl : live s = true) (hb : s.boot.stage = .mounting)
    (hr : s.power.holdUpReady = true) (hk : s.flash.saved = some k) (hu : k.usable = true) :
    exec .mount s = .next (settle (mountAs s (if k.clean then 0 else 1))) := by
  show execMount s = _
  simp [execMount, mayMount, hk, hl, hb, hr, hu, conclude_eq]

theorem exec_fullScan (s : State) (hl : live s = true) (hb : s.boot.stage = .mounting) (hr : s.power.holdUpReady = true)
    (hk : ∀ k, s.flash.saved = some k → k.usable = false) :
    exec .fullScan s = .next (settle (mountAs (raise s 8 3) 2)) := by
  show execFullScan s = _
  unfold execFullScan
  cases hs : s.flash.saved with
  | none => simp [mayMount, hl, hb, hr, conclude_eq]
  | some k => simp [mayMount, hl, hb, hr, hk k hs, conclude_eq]

/-! ### Service opens (R296, step 10) -/

/-- `t` is `s` but for the mode, counters, records and the report of a failed overlay: what a change of mode may do (R75). -/
def OnlyModed (s t : State) : Prop :=
  ∃ r m lg w, t = { s with regs := r, mode := m, log := lg, flash := { s.flash with config := { s.flash.config with ovlFail := w } } }

theorem OnlyModed.refl (s : State) : OnlyModed s s := ⟨_, _, _, _, rfl⟩

theorem OnlyModed.trans {s t u : State} (h : OnlyModed s t) (k : OnlyModed t u) : OnlyModed s u := by
  obtain ⟨_, _, _, _, rfl⟩ := h; obtain ⟨_, _, _, _, rfl⟩ := k; exact ⟨_, _, _, _, rfl⟩

theorem OnlyRegs.moded {s t : State} (h : OnlyRegs s t) : OnlyModed s t := by
  obtain ⟨_, rfl⟩ := h; exact ⟨_, _, _, _, rfl⟩

theorem OnlyLog.moded {s t : State} (h : OnlyLog s t) : OnlyModed s t := by
  obtain ⟨_, _, rfl⟩ := h; exact ⟨_, _, _, _, rfl⟩

theorem raise_logged (s : State) (page b : Nat) : OnlyLog s (raise s page b) := by
  obtain ⟨r, h⟩ := raise_frame s page b; exact ⟨_, r, h⟩

theorem recordReject_frame (s : State) (path addr : Nat) (st : Status) : OnlyRegs s (recordReject s path addr st) := by
  unfold recordReject; dsimp only; split
  · exact regSet_frame _ _ _
  · exact ((regSet_frame s _ _).trans (regSet_frame _ _ _)).trans (raise_frame _ _ _)

theorem restoreBase_frame (s : State) (es : List (Nat × Entry)) : OnlyRegs s (restoreBase s es) :=
  foldl_onlyRegs _ (fun _ _ => regSet_frame _ _ _) es s

theorem putOverlay_moded (s : State) (es : List Entry) : OnlyModed s (putOverlay s es) :=
  (foldl_onlyRegs applyEntry (fun _ _ => regSet_frame _ _ _) es s).moded.trans ⟨_, _, _, _, rfl⟩

theorem ovlApplyFailed_moded (s : State) (mode : Nat) (es : List Entry) (f : Nat × Status) (csn : Nat) :
    OnlyModed s (ovlApplyFailed s mode es f csn) := by
  have h : ∀ (u : State) (o : Option Entry), OnlyRegs u (match o with
      | some e => recordReject u 2 (entryAddr e) f.2
      | none => u) := by
    intro u o; split
    · exact recordReject_frame _ _ _ _
    · exact OnlyRegs.refl u
  have h0 : OnlyModed s { s with flash := { s.flash with config := { s.flash.config with ovlFail := ovlFailWord mode f } } } :=
    ⟨_, _, _, _, rfl⟩
  exact (((h0.trans (h _ _).moded).trans (bump_frame _ _).moded).trans (logRecord_frame _ _ _ _ _ _).moded).trans
    (raise_frame _ _ _).moded

theorem enterMode_moded (s : State) (dst cause csn : Nat) : OnlyModed s (enterMode s dst cause csn) := by
  have hb : OnlyModed s (restoreBase s s.mode.active) := (restoreBase_frame s _).moded
  have hm : ∀ (u : State) (m : ModeState), OnlyModed u { u with mode := m } := fun u m => ⟨_, _, _, _, rfl⟩
  unfold enterMode; dsimp only
  refine ((OnlyModed.trans ?_ (hm _ _)).trans (logRecord_frame _ _ _ _ _ _).moded).trans (raise_frame _ _ _).moded
  split
  · exact (hb.trans (hm _ _)).trans (ovlApplyFailed_moded _ _ _ _ _)
  · exact hb.trans (putOverlay_moded _ _)

theorem openingMode_moded (s : State) : OnlyModed s (openingMode s) := by
  unfold openingMode; dsimp only
  split
  · exact enterMode_moded _ _ _ _
  split
  · exact enterMode_moded _ _ _ _
  split
  · exact enterMode_moded _ _ _ _
  split
  · exact OnlyModed.refl s
  · exact enterMode_moded _ _ _ _

/-- An arming that lapses changes the update, a record and counters. -/
theorem disarm_frame (s : State) (cause : Nat) : ∃ r lg u, disarm s cause = { s with regs := r, log := lg, update := u } := by
  unfold disarm
  split
  · dsimp only
    obtain ⟨lg, r, h⟩ := (logRecord_frame { s with update := { s.update with st := .staged, cohort := 0, switchMs := 0, deadline := 0 } }
      0x0073 (src 5 0) true (leBytes s.update.cohort 4 ++ leBytes cause 1 ++ zeroBytes 3) false).trans (raise_logged _ 4 2)
    exact ⟨r, lg, _, h⟩
  · exact ⟨_, _, _, rfl⟩

/-- A new phase changes SY_PHASE, the update, records and counters. -/
theorem setPhase_frame (s : State) (p : Nat) : ∃ r lg u, setPhase s p = { s with phase := p, regs := r, log := lg, update := u } := by
  unfold setPhase
  split
  next h => subst h; exact ⟨_, _, _, rfl⟩
  next =>
    dsimp only
    obtain ⟨r, hr⟩ := raise_frame { s with phase := p } 0 2
    rw [hr]
    split
    · obtain ⟨r', lg, u, h⟩ := disarm_frame { s with phase := p, regs := r } 4
      rw [h]; exact ⟨_, _, _, rfl⟩
    · exact ⟨_, _, _, rfl⟩

/-! ### Erases that are begun (R239) -/

/-- `t` is `s` but for pages of blocks that are being erased, the dies that erase them, and what the pool has left. -/
def OnlyErased (s t : State) : Prop :=
  ∃ p d l, t = { s with flash := { s.flash with pages := p }, dies := d, tide := { s.tide with ledger := l } }

theorem OnlyErased.refl (s : State) : OnlyErased s s := ⟨_, _, _, rfl⟩

theorem OnlyErased.trans {s t u : State} (h : OnlyErased s t) (k : OnlyErased t u) : OnlyErased s u := by
  obtain ⟨_, _, _, rfl⟩ := h; obtain ⟨_, _, _, rfl⟩ := k; exact ⟨_, _, _, rfl⟩

theorem startErases_erased (s : State) : OnlyErased s (startErases s) := by
  unfold startErases
  split
  · refine List.foldlRecOn _ _ (OnlyErased.refl s) (fun t ht p _ => ht.trans ?_)
    split
    · exact ⟨_, _, _, rfl⟩
    · exact OnlyErased.refl t
  · exact OnlyErased.refl s

@[simp] theorem openingMode_phase (s : State) : (openingMode s).phase = s.phase := by
  obtain ⟨_, _, _, _, h⟩ := openingMode_moded s; rw [h]
@[simp] theorem openingMode_boot (s : State) : (openingMode s).boot = s.boot := by
  obtain ⟨_, _, _, _, h⟩ := openingMode_moded s; rw [h]
@[simp] theorem openingMode_seqr (s : State) : (openingMode s).seqr = s.seqr := by
  obtain ⟨_, _, _, _, h⟩ := openingMode_moded s; rw [h]
@[simp] theorem setPhase_phase (s : State) (p : Nat) : (setPhase s p).phase = p := by
  obtain ⟨_, _, _, h⟩ := setPhase_frame s p; rw [h]
@[simp] theorem setPhase_boot (s : State) (p : Nat) : (setPhase s p).boot = s.boot := by
  obtain ⟨_, _, _, h⟩ := setPhase_frame s p; rw [h]
@[simp] theorem setPhase_seqr (s : State) (p : Nat) : (setPhase s p).seqr = s.seqr := by
  obtain ⟨_, _, _, h⟩ := setPhase_frame s p; rw [h]
@[simp] theorem startErases_phase (s : State) : (startErases s).phase = s.phase := by
  obtain ⟨_, _, _, h⟩ := startErases_erased s; rw [h]
@[simp] theorem startErases_boot (s : State) : (startErases s).boot = s.boot := by
  obtain ⟨_, _, _, h⟩ := startErases_erased s; rw [h]
@[simp] theorem startErases_seqr (s : State) : (startErases s).seqr = s.seqr := by
  obtain ⟨_, _, _, h⟩ := startErases_erased s; rw [h]
@[simp] theorem startSurvey_phase (s : State) : (startSurvey s).phase = s.phase := rfl
@[simp] theorem startSurvey_boot (s : State) : (startSurvey s).boot = s.boot := rfl
@[simp] theorem startSurvey_seqr (s : State) : (startSurvey s).seqr = s.seqr := rfl

/-- Service opens in phase 2, with the space units ready, and takes no CSN. -/
theorem openService_opens (s : State) (kind : Nat) : (openService s kind).phase = 2 ∧
    (openService s kind).boot.stage = .mounted ∧ (openService s kind).boot.readySpace = true ∧
    (openService s kind).boot.mountKind = kind ∧ (openService s kind).seqr = s.seqr := by
  simp [openService]

/-! ### The first CSN (R36) -/

theorem openChunks_of_chunk (s : State) (k : Nat) (h : s.flash.chunk = some k) :
    (openChunks s).seqr.next = (k + 1) * 2 ^ 24 ∧ (openChunks s).flash.chunk = some (k + 1) := by
  have hk : firstChunk s = k + 1 := by unfold firstChunk; rw [h]
  constructor
  · show max 1 (firstChunk s * 2 ^ 24) = _
    rw [hk]; omega
  · exact congrArg some hk

theorem openChunks_of_new (s : State) (hc : s.flash.chunk = none) (hp : s.flash.pages = []) (hs : s.flash.saved = none) :
    (openChunks s).seqr.next = 1 ∧ (openChunks s).flash.chunk = some 0 := by
  have hk : firstChunk s = 0 := by simp [firstChunk, arrayEmpty, hc, hp, hs]
  exact ⟨by show max 1 (firstChunk s * 2 ^ 24) = 1; rw [hk]; rfl, congrArg some hk⟩

/-- Where no record of chunks is found, admission starts above every CSN found. -/
theorem highestCsn_lt_openChunks {s : State} (hc : s.flash.chunk = none) (hn : s.flash.pages ≠ [] ∨ s.flash.saved ≠ none) :
    highestCsn s < (openChunks s).seqr.next := by
  have he : arrayEmpty s = false := by
    rcases hn with h | h <;> simp [arrayEmpty, h, Option.isSome_iff_ne_none]
  have hk : firstChunk s = (highestCsn s + 2 ^ 27) / 2 ^ 24 + 1 := by simp [firstChunk, hc, he]
  show _ < max 1 (firstChunk s * 2 ^ 24)
  rw [hk]; omega

theorem pageCsn_le_highestCsn {s : State} {p : Nat × Page} (h : p ∈ s.flash.pages) : pageCsn p.2 ≤ highestCsn s :=
  le_trans (le_listMax (List.mem_map_of_mem (f := fun p => pageCsn p.2) h)) (le_max_left _ _)

theorem savedCsn_le_highestCsn {s : State} {k : Saved} (h : s.flash.saved = some k) : k.csn ≤ highestCsn s := by
  unfold highestCsn; rw [h]; exact le_max_right _ _

/-! ### The tables (R257, R296, R299) -/

theorem buildTables_of_saved (s : State) (k : Saved) (h : s.flash.saved = some k) : buildTables s 1 =
    (let u := loadTables s k.tables
    { u with flash := { u.flash with lowWater := k.lowWater } }) := by
  unfold buildTables; rw [h]; rfl

/-- A block's wear, careens, residue and reads come of the checkpoint; what its die shows stands. -/
theorem loadTables_block (s : State) (k : Tables) (b : Nat) (x : Block) (h : tabGet s.flash.blocks b = some x) :
    (tabGet (loadTables s k).flash.blocks b).map (fun y => (y.wear, y.careens, y.residue, y.reads, y.bad, y.retired, y.s0)) =
      (let z := tabGetD k.blocks b Block.fresh
      some (z.wear, z.careens, z.residue, z.reads, x.bad, x.retired, x.s0)) := by
  have : tabGet (loadTables s k).flash.blocks b = some ((tabGetD k.blocks b Block.fresh).load x) :=
    (tabGet_map s.flash.blocks (fun b x => (tabGetD k.blocks b Block.fresh).load x) b).trans (by rw [h]; rfl)
  rw [this]; rfl

/-- A careen that ended after the checkpoint: the good blocks of its plane are at native wear 0 (R257). -/
theorem careened_block (s : State) (p b : Nat) (x : Block) (h : tabGet s.flash.blocks b = some x) :
    tabGet (careened s p).flash.blocks b = some (if planeOfBlock b = p ∧ x.bad = false ∧ x.retired = false
      then { x with wear := 0, careens := x.careens + 1 } else x) := by
  refine (tabGet_map s.flash.blocks (fun b x => if planeOfBlock b = p ∧ !x.bad ∧ !x.retired
    then { x with wear := 0, careens := x.careens + 1 } else x) b).trans ?_
  rw [h]; simp

theorem planeOf_updPlane (s : State) (p : Nat) (f : Plane → Plane) : planeOf (updPlane s p f) p = f (planeOf s p) := by
  simp [planeOf, updPlane, tabGetD]

theorem careened_held_plane (s : State) (p : Nat) : (planeOf (careened s p) p).st = (if (planeOf s p).st = 3 then 3 else 0) ∧
    (planeOf (careenHeld s p) p).st = (if (planeOf s p).st = 3 then 3 else 2) ∧
    (careenHeld s p).flash.blocks = s.flash.blocks := by
  refine ⟨?_, ?_, rfl⟩
  · unfold careened; dsimp only; rw [planeOf_updPlane]; rfl
  · unfold careenHeld; rw [planeOf_updPlane]

/-- The campaigns that go on are those of draining and held planes (R257). -/
theorem resumeCampaigns_mem (s : State) (c : Campaign) (h : c ∈ (resumeCampaigns s).careen.campaigns) : ∃ p ∈ s.flash.planes,
    (p.2.st = 1 ∨ p.2.st = 2) ∧ c.stripe = stripeOf (p.1 / 4) ∧ c.plane = p.1 % 4 := by
  obtain ⟨id, hid, rfl⟩ := List.mem_map.1 h
  obtain ⟨p, hp, rfl⟩ := List.mem_map.1 (List.mem_dedup.1 hid)
  obtain ⟨hm, hst⟩ := List.mem_filter.1 hp
  refine ⟨p, hm, by simpa using hst, ?_, ?_⟩
  · show (4 * stripeOf (p.1 / 4) + p.1 % 4) / 4 = _; omega
  · show (4 * stripeOf (p.1 / 4) + p.1 % 4) % 4 = _; omega

/-- Settles O13: mount, clause by clause from the lemmas above. -/
theorem mountOpensService : Obligations.MountOpensService := by
  unfold Obligations.MountOpensService
  refine ⟨exec_mount, exec_fullScan, openService_opens, openChunks_of_chunk, openChunks_of_new, ?above, buildTables_of_saved,
    loadTables_block, fun _ _ => ⟨rfl, rfl, rfl, rfl⟩, careened_block, careened_held_plane, resumeCampaigns_mem⟩
  case above =>
    intro s hc hn
    have h := highestCsn_lt_openChunks hc hn
    exact ⟨fun p hp => lt_of_le_of_lt (pageCsn_le_highestCsn hp) h,
      fun k hk => lt_of_le_of_lt (savedCsn_le_highestCsn hk) h⟩

/-! ### The rings and the rail (R25, R317) -/

theorem exec_ringMeasurement_early (s : State) (rings : List Nat) (mv : Nat) (h : ringsDue s = false) :
    exec (.ringMeasurement rings mv) s = .next (settle s) := by
  show execRingMeasurement rings mv s = _
  simp [execRingMeasurement, h, conclude_eq]

theorem exec_ringMeasurement_due (s : State) (rings : List Nat) (mv : Nat) (hl : live s = true)
    (h : ∀ t, s.tide.fsiAt = some t → t + 100 ≤ s.sessionUs) :
    exec (.ringMeasurement rings mv) s = .next (settle (reviewAtMax (railStep { s with tide := { s.tide with
      fsi := (fastestRing rings).1
      fsiRing := (fastestRing rings).2
      fsiWorst := max s.tide.fsiWorst (fastestRing rings).1
      railMeasured := mv
      fsiAt := some s.sessionUs } }))) := by
  have hd : ringsDue s = true := by
    unfold ringsDue
    split
    next t ht => exact decide_eq_true (h t ht)
    next => rfl
  show execRingMeasurement rings mv s = _
  unfold execRingMeasurement
  rw [hl, hd]; rfl

/-- The FSI is the largest of the 48 delays, and its ring the lowest that shows it. -/
theorem fastestRing_spec (rings : List Nat) (h : 48 ≤ rings.length) : (∀ k < 48, rings.getD k 0 ≤ (fastestRing rings).1) ∧
    (fastestRing rings).2 < 48 ∧ rings.getD (fastestRing rings).2 0 = (fastestRing rings).1 ∧
    (∀ k < (fastestRing rings).2, rings.getD k 0 < (fastestRing rings).1) := by
  have hlen : (rings.take 48).length = 48 := by simp [h]
  have hget : ∀ k (hk : k < 48), rings.getD k 0 = (rings.take 48)[k]'(by omega) := by
    intro k hk
    rw [List.getD_eq_getElem _ _ (by omega), List.getElem_take]
  have hle : ∀ k < 48, rings.getD k 0 ≤ listMax (rings.take 48) := fun k hk => by
    rw [hget k hk]; exact le_listMax (List.getElem_mem _)
  have hmem : listMax (rings.take 48) ∈ rings.take 48 := listMax_mem (by intro e; rw [e] at hlen; cases hlen)
  obtain ⟨i, hi⟩ : ∃ i, (rings.take 48).findIdx? (fun x => x == listMax (rings.take 48)) = some i := by
    refine Option.isSome_iff_exists.1 ?_
    rw [List.findIdx?_isSome, List.any_eq_true]
    exact ⟨_, hmem, beq_self_eq_true _⟩
  have hring : fastestRing rings = (listMax (rings.take 48), i) := by
    unfold fastestRing; dsimp only; rw [hi]; rfl
  obtain ⟨hil, hit, hib⟩ := List.findIdx?_eq_some_iff_getElem.1 hi
  rw [hlen] at hil
  rw [hring]
  refine ⟨hle, hil, ?_, fun k hk => lt_of_le_of_ne (hle k (by omega)) ?_⟩
  · rw [hget i hil]; exact eq_of_beq hit
  · rw [hget k (by omega)]
    intro e
    exact hib k hk (beq_iff_eq.2 e)

/-- The rail follows the FSI by 10 mV, within its limits (R317). -/
theorem railStep_moves (s : State) (hp : s.pstate.cur < 2) (hs : s.tide.step < 2) :
    (fieldOf s A.HM_FSI 31 16 < s.tide.fsi → s.tide.full = false →
      railStep s = setRail s (min (fieldOf s A.HM_RAIL_CTRL 25 16) (s.tide.rail + 10))) ∧
    (s.tide.fsi + 40 < fieldOf s A.HM_FSI 31 16 →
      railStep s = setRail s (max (fieldOf s A.HM_RAIL_CTRL 9 0) (s.tide.rail - 10))) := by
  refine ⟨fun h hf => ?_, fun h => ?_⟩
  · simp [railStep, hp, hs, h, hf]
  · have hn : ¬ fieldOf s A.HM_FSI 31 16 < s.tide.fsi := by omega
    simp [railStep, hp, hs, h, hn]

theorem exec_railLimit_due (s : State) (t : Nat) (hl : live s = true) (ha : s.tide.atMaxSince = some (t, false))
    (ht : t + 1000000 ≤ s.sessionUs) :
    exec .railLimit s = .next (settle (raise { s with tide := { s.tide with atMaxSince := some (t, true) } } 1 5)) := by
  show execRailLimit s = _
  simp [execRailLimit, ha, hl, ht, conclude_eq]

/-! ### The end of a window (R307, R308, R316) -/

theorem exec_tideWindowEnd_due (s : State) (r : WindowReport) (hl : live s = true) (ht : s.tide.windowAt + 1000 ≤ s.sessionUs) :
    exec (.tideWindowEnd r) s = .next (settle (endWindow s r)) := by
  show execTideWindowEnd r s = _
  simp [execTideWindowEnd, hl, ht, conclude_eq]

theorem fitCosts_frame (s : State) (r : WindowReport) : ∃ c, fitCosts s r = { s with tide := { s.tide with costs := c } } := by
  unfold fitCosts; dsimp only; split <;> exact ⟨_, rfl⟩

theorem windowRegs_frame (s : State) (r : WindowReport) : OnlyRegs s (windowRegs s r) := by
  have hb : ∀ (t : State) (p : Nat × Nat),
      OnlyRegs t (if p.1 < 64 then regSet t (0x5004C + 0x1000 * p.1) (word (min 1000 p.2)) else t) := by
    intro t p; split
    · exact regSet_frame _ _ _
    · exact OnlyRegs.refl t
  have hm : ∀ (t : State) (p : Nat × Nat), OnlyRegs t (if p.1 < 64 then bumpBy t (0x50050 + 0x1000 * p.1) p.2 else t) := by
    intro t p; split
    · exact bumpBy_frame _ _ _
    · exact OnlyRegs.refl t
  exact ((((regSet_frame s _ _).trans (regSet_frame _ _ _)).trans (regSet_frame _ _ _)).trans (regSet_frame _ _ _)).trans
    ((foldl_onlyRegs _ hb _ _).trans (foldl_onlyRegs _ hm _ _))

@[simp] theorem windowRegs_tide (s : State) (r : WindowReport) : (windowRegs s r).tide = s.tide := (windowRegs_frame s r).tide
@[simp] theorem windowRegs_flash (s : State) (r : WindowReport) : (windowRegs s r).flash = s.flash := (windowRegs_frame s r).flash
@[simp] theorem windowRegs_berths (s : State) (r : WindowReport) : (windowRegs s r).berths = s.berths :=
  (windowRegs_frame s r).berths

theorem charges_erased (s : State) (ws : List Work) : OnlyErased s (ws.foldl charge s) :=
  List.foldlRecOn ws charge (OnlyErased.refl s) (fun _ ht _ _ => ht.trans ⟨_, _, _, rfl⟩)

/-- At the end of a window its books are settled; what follows starts dry docks and erases (R307, R309). -/
theorem endWindow_books (s : State) (r : WindowReport) (h : inputDown s = false) : ∃ u, OnlyErased u (endWindow s r) ∧
    u.tide.credit = max (-600) (min 600 (s.tide.credit + (effectiveCeiling s : Int) - (r.spentMj : Int))) ∧
    u.tide.spent = r.spentMj ∧ u.tide.energyMj = s.tide.energyMj + r.spentMj ∧ u.tide.windowAt = s.sessionUs ∧
    u.tide.pool = u.tide.budget - r.standingMj ∧ u.tide.paced = 0 ∧ u.flash = s.flash ∧ u.berths = s.berths := by
  obtain ⟨c, hc⟩ : ∃ c, (if (inputDown s || decide (s.sessionUs < s.tide.frozenUntil)) = true then s else fitCosts s r) =
      { s with tide := { s.tide with costs := c } } := by
    split
    · exact ⟨_, rfl⟩
    · exact fitCosts_frame s r
  have hs : (if inputDown s = true then r.standingMj + estimateDnj s r.counts / 10000000 else r.spentMj) = r.spentMj := by
    rw [h]; rfl
  unfold endWindow
  dsimp only
  rw [hc, hs]
  refine ⟨_, (charges_erased _ _).trans (startErases_erased _), ?_⟩
  rw [windowRegs_tide, windowRegs_flash, windowRegs_berths]
  exact ⟨rfl, rfl, rfl, rfl, rfl, rfl, rfl, rfl⟩

theorem endWindow_settles (s : State) (r : WindowReport) (h : inputDown s = false) : let t := endWindow s r
    t.tide.credit = max (-600) (min 600 (s.tide.credit + (effectiveCeiling s : Int) - (r.spentMj : Int))) ∧
    t.tide.spent = r.spentMj ∧ t.tide.energyMj = s.tide.energyMj + r.spentMj ∧ t.tide.windowAt = s.sessionUs ∧
    t.tide.pool = t.tide.budget - r.standingMj ∧ t.tide.paced = 0 ∧
    t.flash = { s.flash with pages := t.flash.pages } ∧ t.berths = s.berths := by
  obtain ⟨u, ⟨p, d, l, ht⟩, h1, h2, h3, h4, h5, h6, h7, h8⟩ := endWindow_books s r h
  dsimp only
  rw [ht]
  exact ⟨h1, h2, h3, h4, h5, h6, by rw [← h7], h8⟩

/-! ### The choice of the next operation (R312, R313) -/

/-- The deadline that goes first of two: the one due first, a tie to the lower class (R312). -/
def dueFirst (best : Option Work) (w : Work) : Option Work := match w.due, best with
  | none, _ => best
  | some _, none => some w
  | some t, some b => if t < b.due.getD 0 ∨ (t = b.due.getD 0 ∧ w.cls < b.cls) then some w else best

theorem oldestDeadline_append (l : List Work) (w : Work) : oldestDeadline (l ++ [w]) = dueFirst (oldestDeadline l) w :=
  List.foldl_append (l := l) (l' := [w]) ..

/-- `h` is a hard deadline of `l` that no other of them precedes. -/
def IsDueFirst (l : List Work) (h : Work) : Prop := h ∈ l ∧ h.due.isSome = true ∧
  ∀ w ∈ l, ∀ t, w.due = some t → h.due.getD 0 < t ∨ (h.due.getD 0 = t ∧ h.cls ≤ w.cls)

theorem IsDueFirst.append_later {l : List Work} {h w : Work} (hl : IsDueFirst l h)
    (hw : ∀ t, w.due = some t → h.due.getD 0 < t ∨ (h.due.getD 0 = t ∧ h.cls ≤ w.cls)) : IsDueFirst (l ++ [w]) h := by
  obtain ⟨hm, hd, hf⟩ := hl
  refine ⟨List.mem_append_left _ hm, hd, fun v hv => ?_⟩
  rcases List.mem_append.1 hv with hv | hv
  · exact hf v hv
  · rw [List.mem_singleton.1 hv]; exact hw

theorem IsDueFirst.append_earlier {l : List Work} {h w : Work} {t : Nat} (hl : IsDueFirst l h) (hw : w.due = some t)
    (ht : t < h.due.getD 0 ∨ (t = h.due.getD 0 ∧ w.cls < h.cls)) : IsDueFirst (l ++ [w]) w := by
  obtain ⟨hm, hd, hf⟩ := hl
  refine ⟨List.mem_append_right _ (List.mem_singleton_self w), by rw [hw]; rfl, fun v hv u hu => ?_⟩
  rw [hw, Option.getD_some]
  rcases List.mem_append.1 hv with hv | hv
  · have := hf v hv u hu; omega
  · rw [List.mem_singleton.1 hv, hw] at hu
    cases hu
    rw [List.mem_singleton.1 hv]; exact .inr ⟨rfl, le_rfl⟩

/-- The oldest deadline is one that none precedes; with none, no operation has one. -/
theorem oldestDeadline_spec (l : List Work) : match oldestDeadline l with
    | some h => IsDueFirst l h
    | none => ∀ w ∈ l, w.due = none := by
  induction l using List.reverseRecOn with
  | nil => intro w hw; cases hw
  | append_singleton l w ih =>
    rw [oldestDeadline_append]
    cases hb : oldestDeadline l with
    | none =>
      rw [hb] at ih
      cases hd : w.due with
      | none =>
        simp only [dueFirst, hd]
        intro v hv
        rcases List.mem_append.1 hv with hv | hv
        · exact ih v hv
        · rw [List.mem_singleton.1 hv]; exact hd
      | some t =>
        simp only [dueFirst, hd]
        refine ⟨List.mem_append_right _ (List.mem_singleton_self w), by rw [hd]; rfl, fun v hv u hu => ?_⟩
        rcases List.mem_append.1 hv with hv | hv
        · rw [ih v hv] at hu; cases hu
        · rw [List.mem_singleton.1 hv] at hu ⊢
          rw [hu]; exact .inr ⟨rfl, le_rfl⟩
    | some h =>
      rw [hb] at ih
      cases hd : w.due with
      | none =>
        simp only [dueFirst, hd]
        exact IsDueFirst.append_later ih (fun t ht => by rw [hd] at ht; cases ht)
      | some t =>
        by_cases hx : t < h.due.getD 0 ∨ (t = h.due.getD 0 ∧ w.cls < h.cls)
        · simp only [dueFirst, hd, hx, if_true]
          exact IsDueFirst.append_earlier ih hd hx
        · simp only [dueFirst, hd, hx, if_false]
          exact IsDueFirst.append_later ih (fun u hu => by rw [hd] at hu; cases hu; omega)

theorem oldestDeadline_isDueFirst (l : List Work) (h : Work) (hl : oldestDeadline l = some h) : IsDueFirst l h := by
  have := oldestDeadline_spec l
  rw [hl] at this; exact this

/-- The choice between the best head so far and the head of class `c`, with no hard deadline waiting (R313). -/
def betterHead (s : State) (l : List Work) (best : Option Work) (c : Nat) : Option Work :=
  match l.find? (fun w => w.cls == c), best with
  | none, _ => best
  | some o, none => if fits s o then some o else none
  | some o, some b => if fits s o && vtBefore s c b.cls then some o else best

theorem nextOp_of_deadline (s : State) (l : List Work) (h : Work) (hl : oldestDeadline l = some h) :
    nextOp s l = if fits s h then some h else none := by
  unfold nextOp; rw [hl]

theorem nextOp_of_no_deadline (s : State) (l : List Work) (hl : oldestDeadline l = none) :
    nextOp s l = (List.range 8).foldl (betterHead s l) none := by
  unfold nextOp; rw [hl]; rfl

/-- An operation that may be taken: the head of its class, and it fits. -/
def FittingHead (s : State) (l : List Work) (o : Work) : Prop :=
  fits s o = true ∧ o.cls < 8 ∧ l.find? (fun w => w.cls == o.cls) = some o

theorem betterHead_fits {s : State} {l : List Work} {best : Option Work} {c : Nat} (hc : c < 8)
    (hb : ∀ o, best = some o → FittingHead s l o) : ∀ o, betterHead s l best c = some o → FittingHead s l o := by
  intro o ho
  unfold betterHead at ho
  cases hf : l.find? (fun w => w.cls == c) with
  | none => rw [hf] at ho; exact hb o ho
  | some x =>
    have hx : x.cls = c := by simpa using List.find?_some hf
    have hhead : fits s x = true → FittingHead s l x := fun h => ⟨h, by omega, by rw [hx]; exact hf⟩
    rw [hf] at ho
    cases best with
    | none =>
      dsimp only at ho
      split at ho
      next h => cases ho; exact hhead h
      next => cases ho
    | some b =>
      dsimp only at ho
      split at ho
      next h => cases ho; exact hhead (Bool.and_eq_true_iff.1 h).1
      next => exact hb o ho

/-- Once a head has been taken one stays taken. -/
theorem betterHead_eq_none {s : State} {l : List Work} {best : Option Work} {c : Nat} (h : betterHead s l best c = none) :
    best = none ∧ ∀ o, l.find? (fun w => w.cls == c) = some o → fits s o = false := by
  unfold betterHead at h
  cases hf : l.find? (fun w => w.cls == c) with
  | none => rw [hf] at h; exact ⟨h, fun o ho => by cases ho⟩
  | some x =>
    rw [hf] at h
    cases best with
    | none =>
      dsimp only at h
      split at h
      next => cases h
      next hx => exact ⟨rfl, fun o ho => by cases ho; simpa using hx⟩
    | some b =>
      dsimp only at h
      split at h <;> cases h

theorem betterHeads_eq_none {s : State} {l : List Work} (cs : List Nat) {best : Option Work}
    (h : cs.foldl (betterHead s l) best = none) :
    best = none ∧ ∀ c ∈ cs, ∀ o, l.find? (fun w => w.cls == c) = some o → fits s o = false := by
  induction cs generalizing best with
  | nil => exact ⟨h, fun c hc => by cases hc⟩
  | cons c cs ih =>
    obtain ⟨h1, h2⟩ := ih h
    obtain ⟨h3, h4⟩ := betterHead_eq_none h1
    refine ⟨h3, fun d hd => ?_⟩
    rcases List.mem_cons.1 hd with rfl | hd
    · exact h4
    · exact h2 d hd

theorem nextOp_fits (s : State) (l : List Work) (hl : oldestDeadline l = none) (o : Work) (ho : nextOp s l = some o) :
    FittingHead s l o := by
  rw [nextOp_of_no_deadline s l hl] at ho
  exact List.foldlRecOn (motive := fun best => ∀ o, best = some o → FittingHead s l o) (List.range 8) (betterHead s l)
    (fun o h => by cases h) (fun best hb c hc => betterHead_fits (List.mem_range.1 hc) hb) o ho

theorem nextOp_none (s : State) (l : List Work) (hl : oldestDeadline l = none) (h : nextOp s l = none) :
    ∀ c < 8, ∀ o, l.find? (fun w => w.cls == c) = some o → fits s o = false := by
  rw [nextOp_of_no_deadline s l hl] at h
  exact fun c hc => (betterHeads_eq_none _ h).2 c (List.mem_range.2 hc)

/-! ### What a hard deadline is charged to (R308, R313) -/

theorem takeFloors_take_two (cost : Nat) (fs : List Nat) : (takeFloors 0 cost fs).take 2 = fs.take 2 := by
  rcases fs with _ | ⟨f, _ | ⟨g, fs⟩⟩ <;> simp [takeFloors]

theorem takeFloors_zero (fs : List Nat) : ∀ c, takeFloors c 0 fs = fs := by
  induction fs with
  | nil => exact fun c => rfl
  | cons f fs ih => intro c; simp [takeFloors, ih]

theorem chargeTo_deadline (l : Ledger) (w : Work) (h : w.due.isSome = true) : (chargeTo l w).floors.take 2 = l.floors.take 2 ∧
    (w.cost ≤ l.shared → (chargeTo l w).shared = l.shared - w.cost ∧ (chargeTo l w).floors = l.floors) := by
  unfold chargeTo
  rw [if_pos h]
  refine ⟨takeFloors_take_two _ _, fun hc => ⟨rfl, ?_⟩⟩
  dsimp only
  rw [Nat.sub_eq_zero_of_le hc, takeFloors_zero]

theorem dockWork_eq (s : State) : dockWork s = (s.dies.filter (fun p => p.2.st == 1)).map (fun p =>
    ⟨4, costOf s (1 + chanOf p.1 / 4) 6, some s.tide.windowAt⟩) := by
  simp [dockWork, workOn, dieRegion]

/-- Settles O40: the rail and the tide, clause by clause from the lemmas above. -/
theorem railAndTide : Obligations.RailAndTide := by
  unfold Obligations.RailAndTide
  exact ⟨exec_ringMeasurement_early, exec_ringMeasurement_due, fastestRing_spec, railStep_moves, exec_railLimit_due,
    exec_tideWindowEnd_due, endWindow_settles,
    fun s l => ⟨nextOp_of_deadline s l, nextOp_fits s l, nextOp_none s l⟩, oldestDeadline_isDueFirst, chargeTo_deadline, dockWork_eq⟩

/-! ### A landing page closes (R276, R464) -/

/-- A landing page that closes is transferred to its die, which begins the program. -/
theorem exec_landingPageClose_due {s : State} {k : Nat} {p : LandingPage} (hk : tabGet s.space.pages k = some p)
    (hc : p.closed = false) (hl : live s = true) (hr : s.power.holdUpReady = true) (hp : pageCloses s k p = true)
    (ho : lowerOpen s p = false) (ht : dieTakes s p.die = true) (hn : dieNext s p.die = some 1) :
    exec (.landingPageClose k) s = .next (settle (closePage s k p)) := by
  show execLandingPageClose k s = _
  simp [execLandingPageClose, programWaits, hk, hc, hl, hr, hp, ho, ht, hn, conclude_eq]

/-- No program begins before hold-up ready (R464). -/
theorem exec_landingPageClose_early (s : State) (k : Nat) (h : s.power.holdUpReady = false) :
    exec (.landingPageClose k) s = .next (settle s) := by
  show execLandingPageClose k s = _
  unfold execLandingPageClose
  split
  · rfl
  · simp [h, conclude_eq]

/-- What closing a page changes, but for the commands that are marked as transferred. -/
theorem closePage_changes (s : State) (k : Nat) (p : LandingPage) : ∃ cmds,
    closePage s k p = countProgram { s with
      space := { s.space with pages := tabPut s.space.pages k { p with closed := true } }
      cmds := cmds
      dies := tabPut s.dies p.die { dieOf s p.die with
        op := 2, suspends := 0, plane := pageBlock s p / 1024 % 4, block := pageBlock s p % 1024, runSince := s.sessionUs }
      tide := (charge s (programWork s p.die)).tide } p.die :=
  ⟨_, rfl⟩

theorem landingPageClose_effect (s : State) (k : Nat) (p : LandingPage) : let t := settle (closePage s k p)
    tabGet t.space.pages k = some { p with closed := true } ∧ dieOf t p.die = { dieOf s p.die with
      op := 2, suspends := 0, plane := pageBlock s p / 1024 % 4, block := pageBlock s p % 1024, runSince := s.sessionUs } ∧
    (∀ j, j ≠ k → tabGet t.space.pages j = tabGet s.space.pages j) ∧
    (∀ d, d ≠ p.die → dieOf t d = dieOf s d) ∧
    regGet t (0x10088 + 0x1000 * chanOf p.die) = word (sat ((regGet s (0x10088 + 0x1000 * chanOf p.die)).toNat + 1) 32) ∧
    t.tide = (charge s (programWork s p.die)).tide ∧
    t.flash = s.flash ∧ t.berths = s.berths ∧ t.log = s.log ∧ t.seqr = s.seqr := by
  obtain ⟨cmds, h⟩ := closePage_changes s k p
  dsimp only
  rw [h, regGet_settle _ _ (by omega) (by omega)]
  refine ⟨?_, ?_, fun j hj => ?_, fun d hd => ?_, ?_, ?_, ?_, ?_, ?_, ?_⟩
  · simp [countProgram]
  · simp [countProgram, dieOf, tabGetD]
  · simp [countProgram, Ne.symm hj]
  · simp [countProgram, dieOf, tabGetD, Ne.symm hd]
  · exact regGet_regSet_same _ _ _
  all_goals simp [countProgram]

/-! ### A program's status (R240, R241) -/

/-- A confirmed program counts where its block needs no first-program verify, or passes it. -/
theorem firstProgramOk_iff (s : State) (p : LandingPage) (f : List Nat) :
    firstProgramOk s p f = true ↔ (blockOf s (pageBlock s p)).firstCycle = false ∨ ∀ n ∈ f, n ≤ 32 := by
  simp [firstProgramOk, flipsAtMost]

theorem exec_landingConfirmed_closed {s : State} {k : Nat} {p : LandingPage} (f : List Nat) (hk : tabGet s.space.pages k = some p)
    (hc : p.closed = true) (hl : live s = true) :
    exec (.landingConfirmed ⟨k, f⟩) s = .next (settle (afterLanding
      (if firstProgramOk s p f then confirmPage s k p else failPage s k p))) := by
  show execLandingConfirmed ⟨k, f⟩ s = _
  simp [execLandingConfirmed, hk, hc, hl, conclude_eq]

theorem exec_programFailed_closed (s : State) (k : Nat) (p : LandingPage) (hk : tabGet s.space.pages k = some p)
    (hc : p.closed = true) (hl : live s = true) :
    exec (.programFailed k) s = .next (settle (afterLanding (failPage s k p))) := by
  show execProgramFailed k s = _
  simp [execProgramFailed, hk, hc, hl, conclude_eq]

/-! ### The pieces of a page (R31, R272) -/

/-- The item takes the place where a piece of it landed; with its last piece it has landed. -/
def itemAt (x : Piece) (id page u : Nat) (landed : Bool) (i : Item) : Item :=
  if i.csn = x.csn ∧ i.entry = x.entry ∧ i.kind ≠ .lost then
    { i with setId := id, spans := sortBy Span.first (i.spans ++ [⟨page, u, x.first, x.units⟩]), landed := i.landed || landed }
  else i

/-- A piece of a record lands: its item takes the place, and with the last piece the write may reach its commit point. -/
theorem pieceLanded_record {x : Piece} (hk : x.kind = .record) (id page u : Nat) (s : State) :
    pieceLanded id page s (x, u) =
      (let left := pieceLeft s .record x.csn x.entry
      let t := { s with flash := { s.flash with items := s.flash.items.map (itemAt x id page u (!left)) } }
      if left then t else recordsLanded t x.csn x.posted) := by
  have hi : ∀ l, itemAt x id page u l = fun i => if i.csn = x.csn ∧ i.entry = x.entry ∧ i.kind ≠ .lost then
      { i with setId := id, spans := sortBy Span.first (i.spans ++ [⟨page, u, x.first, x.units⟩]), landed := i.landed || l }
    else i := fun _ => rfl
  simp [pieceLanded, itemPage, hi, hk]

/-- A posted write that needs no commit marker asks for none when its records have landed. -/
theorem recordsLanded_posted_unmarked {s : State} {csn : Nat} (h : ∀ i ∈ s.flash.items, i.csn = csn → i.marked = false) :
    recordsLanded s csn true = s := by
  have hm : (itemsOf s csn true).any (fun i => i.marked && !i.commit) = false := by
    rw [List.any_eq_false]
    intro i hi
    obtain ⟨hi, hc⟩ := List.mem_filter.1 hi
    rw [Bool.and_eq_true, beq_iff_eq] at hc
    simp [h i hi hc.1]
  simp [recordsLanded, hm]

theorem itemAt_csn (x : Piece) (id page u : Nat) (l : Bool) (i : Item) : (itemAt x id page u l i).csn = i.csn := by
  unfold itemAt; split <;> rfl

theorem itemAt_marked (x : Piece) (id page u : Nat) (l : Bool) (i : Item) : (itemAt x id page u l i).marked = i.marked := by
  unfold itemAt; split <;> rfl

theorem pieceLanded_record_more (s : State) (x : Piece) (id page u : Nat) (hk : x.kind = .record)
    (hl : pieceLeft s .record x.csn x.entry = true) :
    pieceLanded id page s (x, u) = { s with flash := { s.flash with items := s.flash.items.map (fun i =>
      if i.csn = x.csn ∧ i.entry = x.entry ∧ i.kind ≠ .lost then
        { i with setId := id, spans := sortBy Span.first (i.spans ++ [⟨page, u, x.first, x.units⟩]) } else i) } } := by
  rw [pieceLanded_record hk, hl]
  simp [itemAt]

theorem pieceLanded_record_last (s : State) (x : Piece) (id page u : Nat) (hk : x.kind = .record) (hp : x.posted = true)
    (hl : pieceLeft s .record x.csn x.entry = false) (hm : ∀ i ∈ s.flash.items, i.csn = x.csn → i.marked = false) :
    pieceLanded id page s (x, u) = { s with flash := { s.flash with items := s.flash.items.map (fun i =>
      if i.csn = x.csn ∧ i.entry = x.entry ∧ i.kind ≠ .lost then
        { i with setId := id, spans := sortBy Span.first (i.spans ++ [⟨page, u, x.first, x.units⟩]), landed := true }
      else i) } } := by
  have hu : ∀ i ∈ s.flash.items.map (itemAt x id page u true), i.csn = x.csn → i.marked = false := by
    intro i hi hc
    obtain ⟨j, hj, rfl⟩ := List.mem_map.1 hi
    rw [itemAt_csn] at hc
    rw [itemAt_marked]; exact hm j hj hc
  rw [pieceLanded_record hk, hl, hp]
  refine (recordsLanded_posted_unmarked hu).trans ?_
  simp [itemAt]

theorem pieceLanded_commitMarker (s : State) (x : Piece) (id page u : Nat) (hk : x.kind = .commitMarker) (hp : x.posted = true) :
    pieceLanded id page s (x, u) = { s with flash := { s.flash with items := s.flash.items.map (fun i =>
      if i.csn = x.csn ∧ i.pseq ≠ 0 then { i with commit := true } else i) } } := by
  simp [pieceLanded, hk, commitLanded, hp, updItems]

/-! ### Metadata (R227 to R229) -/

theorem metaBody_length (m : PageMeta) : (metaBody m).length = 60 := by
  simp [metaBody, leBytes_len, zeroBytes]

theorem metaBytes_length (m : PageMeta) : (metaBytes m).length = 64 := by
  simp [metaBytes, metaBody_length, leBytes_len]

/-- The fields of the metadata in their order (R228). -/
theorem metaBytes_fields (m : PageMeta) : metaBytes m = leBytes m.typ 1 ++ (leBytes m.pflags 1 ++ (leBytes m.position 2 ++
    (leBytes m.set 4 ++ (leBytes m.csn 8 ++ (leBytes m.ident 16 ++ (leBytes m.eraseCount 4 ++ (zeroBytes 24 ++
      leBytes (crc32c (metaBody m)) 4))))))) := by
  rw [metaBytes]
  generalize crc32c (metaBody m) = k
  simp only [metaBody, List.append_assoc]

/-- A field of the metadata, after the bytes before it. -/
theorem leAt_metaBytes {m : PageMeta} {a b : List Byte} {n k off : Nat} (h : metaBytes m = a ++ (leBytes n k ++ b))
    (hoff : a.length = off) : leAt (metaBytes m) off k = n % 256 ^ k := by
  rw [h, ← hoff]; exact leAt_append a b n k

theorem metaOk_metaBytes (m : PageMeta) : metaOk (metaBytes m) = true := by
  have hc : crc32c (metaBody m) < 256 ^ 4 := BitVec.isLt _
  have hl : leAt (metaBytes m) 60 4 = crc32c (metaBody m) := by
    rw [leAt_metaBytes (b := []) (by rw [List.append_nil]; rfl) (metaBody_length m), Nat.mod_eq_of_lt hc]
  have ht : (metaBytes m).take 60 = metaBody m := List.take_left' (metaBody_length m)
  simp [metaOk, metaBytes_length, hl, ht]

/-- The metadata of a page read back as they were programmed (R228). -/
theorem metaRead_of (m : PageMeta) (d : List Byte) : metaRead (Page.of m d) = some (metaBytes m) :=
  if_pos (metaOk_metaBytes m)

theorem pageType_of (m : PageMeta) (d : List Byte) : pageType (Page.of m d) = m.typ % 256 := by
  simp only [pageType, metaRead_of]
  exact leAt_metaBytes (a := []) (metaBytes_fields m) rfl

theorem pageCsn_of (m : PageMeta) (d : List Byte) : pageCsn (Page.of m d) = m.csn % 2 ^ 64 := by
  simp only [pageCsn, metaRead_of]
  exact leAt_metaBytes (a := leBytes m.typ 1 ++ (leBytes m.pflags 1 ++ (leBytes m.position 2 ++ leBytes m.set 4)))
    (by simp only [metaBytes_fields, List.append_assoc]; rfl) (by simp [leBytes_len])

/-- The page that is programmed stands at its place. -/
theorem putPage_page (s : State) (id : Nat) (x : StripeSet) (row pos typ csn ident : Nat) (data : List Byte) :
    tabGet (putPage s id x row pos typ csn ident data).flash.pages (rowPage x row pos) =
      some (Page.of (setMeta s id x row pos typ csn ident) data) := by
  simp [putPage]

theorem landPage_page (s : State) (p : LandingPage) (x : StripeSet) (hx : tabGet s.flash.sets p.setId = some x) :
    ∃ y, tabGet (landPage s p).flash.pages (rowPage x p.row (pagePos p)) = some y ∧
      y.data = fit (p.pieces.flatMap (fun z => fit z.bytes (64 * z.units))) 16384 ∧
      pageType y = (if p.pieces.any (fun z => z.kind != .record) then 3 else 1) ∧
      pageCsn y = listMax (p.pieces.map Piece.csn) % 2 ^ 64 := by
  unfold landPage
  rw [hx]
  refine ⟨_, putPage_page _ _ _ _ _ _ _ _ _, rfl, ?_, pageCsn_of _ _⟩
  rw [pageType_of]
  show (if _ then 3 else 1) % 256 = _
  split <;> rfl

/-! ### Parity (R231, R233) -/

theorem putParity_page (s : State) (id : Nat) (x : StripeSet) (row : Nat) :
    ∃ y, tabGet (putParity s id x row).flash.pages (rowPage x row (row % 16)) = some y ∧
      y.data = fit (xorPages ((rowPages s x row (row % 16)).map Page.data)) 16384 ∧ pageType y = 4 :=
  ⟨_, putPage_page _ _ _ _ _ _ _ _ _, rfl, pageType_of _ _⟩

theorem xorBytes_length (a b : List Byte) : (xorBytes a b).length = min a.length b.length := by simp [xorBytes]

theorem xorBytes_right_comm (a b c : List Byte) : xorBytes (xorBytes a b) c = xorBytes (xorBytes a c) b := by
  apply List.ext_getElem
  · simp only [xorBytes_length]; omega
  · intro i h1 h2
    simp only [xorBytes, List.getElem_zipWith]
    rw [BitVec.xor_assoc, BitVec.xor_assoc, BitVec.xor_comm (b[i]'_)]

/-- A page XORed in twice is out again. -/
theorem xorBytes_cancel {a b : List Byte} (h : a.length = b.length) : xorBytes (xorBytes a b) b = a := by
  apply List.ext_getElem
  · simp [xorBytes_length, h]
  · intro i h1 h2
    simp only [xorBytes, List.getElem_zipWith]
    rw [BitVec.xor_assoc, BitVec.xor_self, BitVec.xor_zero]

theorem xorBytes_comm (a b : List Byte) : xorBytes a b = xorBytes b a := by
  unfold xorBytes; rw [List.zipWith_comm]; simp only [BitVec.xor_comm]

theorem foldl_xorBytes (ps : List (List Byte)) (a b : List Byte) : ps.foldl xorBytes (xorBytes a b) = xorBytes (ps.foldl xorBytes a) b := by
  induction ps generalizing a with
  | nil => rfl
  | cons p ps ih => rw [List.foldl_cons, List.foldl_cons, xorBytes_right_comm, ih]

theorem xorPages_cons (p : List Byte) (ps : List (List Byte)) : xorPages (p :: ps) = xorBytes (xorPages ps) p :=
  foldl_xorBytes ps _ p

theorem xorPages_perm {ps qs : List (List Byte)} (h : ps.Perm qs) : xorPages ps = xorPages qs :=
  h.foldl_eq' (fun _ _ _ _ _ => xorBytes_right_comm _ _ _) _

theorem xorPages_length {ps : List (List Byte)} (h : ∀ p ∈ ps, p.length = 16384) : (xorPages ps).length = 16384 := by
  induction ps with
  | nil => exact List.length_replicate
  | cons p ps ih =>
    rw [xorPages_cons, xorBytes_length, ih (fun q hq => h q (List.mem_cons_of_mem _ hq)), h p (List.mem_cons_self ..)]; rfl

/-- What stands at a position of a row. -/
def rowPageAt (s : State) (x : StripeSet) (row pos : Nat) : Option Page := tabGet s.flash.pages (rowPage x row pos)

/-- All the programmed pages of a row. -/
def wholeRow (s : State) (x : StripeSet) (row : Nat) : List Page := (List.range 16).filterMap (rowPageAt s x row)

/-- A row is what stands at one of its positions and the rest. -/
theorem wholeRow_perm (s : State) (x : StripeSet) (row : Nat) {pos : Nat} (hp : pos < 16) :
    (wholeRow s x row).Perm ((pos :: (List.range 16).filter (fun p => p != pos)).filterMap (rowPageAt s x row)) := by
  have h := (List.perm_cons_erase (List.mem_range.2 hp)).filterMap (rowPageAt s x row)
  rwa [List.nodup_range.erase_eq_filter] at h

theorem wholeRow_perm_cons {s : State} {x : StripeSet} {row pos : Nat} {y : Page} (hp : pos < 16)
    (hy : rowPageAt s x row pos = some y) : (wholeRow s x row).Perm (y :: rowPages s x row pos) := by
  have h := wholeRow_perm s x row hp
  rwa [List.filterMap_cons_some hy] at h

theorem wholeRow_perm_of_none {s : State} {x : StripeSet} {row pos : Nat} (hp : pos < 16)
    (hy : rowPageAt s x row pos = none) : (wholeRow s x row).Perm (rowPages s x row pos) := by
  have h := wholeRow_perm s x row hp
  rwa [List.filterMap_cons_none hy] at h

theorem xor_wholeRow_of_page {s : State} {x : StripeSet} {row pos : Nat} {y : Page} (hp : pos < 16)
    (hy : tabGet s.flash.pages (rowPage x row pos) = some y) :
    xorPages ((wholeRow s x row).map Page.data) = xorBytes (xorPages ((rowPages s x row pos).map Page.data)) y.data :=
  (xorPages_perm ((wholeRow_perm_cons hp hy).map Page.data)).trans (xorPages_cons _ _)

theorem xor_rowPages_length {s : State} {x : StripeSet} {row : Nat} (pos : Nat)
    (h : ∀ p < 16, ∀ z, tabGet s.flash.pages (rowPage x row p) = some z → z.data.length = 16384) :
    (xorPages ((rowPages s x row pos).map Page.data)).length = 16384 := by
  refine xorPages_length (fun d hd => ?_)
  obtain ⟨z, hz, rfl⟩ := List.mem_map.1 hd
  obtain ⟨p, hp, hz⟩ := List.mem_filterMap.1 hz
  exact h p (List.mem_range.1 (List.mem_of_mem_filter hp)) z hz

/-- A data page is rebuilt from the rest of its row, with the parity accumulated so far where the row is open (R233). -/
theorem rebuiltData_eq (s : State) (x : StripeSet) (row pos : Nat) (y : Page) (hp : pos < 16) (hne : pos ≠ row % 16)
    (hlen : ∀ p < 16, ∀ z, tabGet s.flash.pages (rowPage x row p) = some z → z.data.length = 16384)
    (hpar : ∀ z, tabGet s.flash.pages (rowPage x row (row % 16)) = some z → z.data = rowParity s x row)
    (hy : tabGet s.flash.pages (rowPage x row pos) = some y) : rebuiltData s x row pos = y.data := by
  have hq : row % 16 < 16 := by omega
  have hol := xor_rowPages_length (x := x) (row := row) pos hlen
  have hyl := hlen pos hp y hy
  have hw := xor_wholeRow_of_page hp hy
  cases hz : tabGet s.flash.pages (rowPage x row (row % 16)) with
  | some z =>
    have hzl := xor_rowPages_length (x := x) (row := row) (row % 16) hlen
    have he := xor_wholeRow_of_page hq hz
    rw [hpar z hz] at he
    have hr : rebuiltData s x row pos = xorPages ((rowPages s x row pos).map Page.data) := by
      simp [rebuiltData, hz]
    have hrl : (rowParity s x row).length = 16384 := hzl
    rw [hr]
    calc xorPages ((rowPages s x row pos).map Page.data)
        = xorBytes (xorBytes (xorPages ((rowPages s x row pos).map Page.data)) y.data) y.data :=
          (xorBytes_cancel (by rw [hol, hyl])).symm
      _ = xorBytes (xorBytes (rowParity s x row) (rowParity s x row)) y.data := by rw [← hw, he]; rfl
      _ = xorBytes (xorBytes y.data (rowParity s x row)) (rowParity s x row) := by
          rw [xorBytes_right_comm, xorBytes_comm (rowParity s x row) y.data]
      _ = y.data := xorBytes_cancel (by rw [hyl, hrl])
  | none =>
    have he : rowParity s x row = xorPages ((wholeRow s x row).map Page.data) :=
      (xorPages_perm ((wholeRow_perm_of_none hq hz).map Page.data)).symm
    unfold rebuiltData
    rw [hz, he, hw]
    simp only [Option.isSome_none, Bool.false_eq_true, hne, or_self, if_false]
    rw [xorBytes_comm, xorBytes_comm (xorPages _) y.data]
    exact xorBytes_cancel (by rw [hyl, hol])

/-- Settles O32: the landing of pages, their metadata and their parity, clause by clause from the lemmas above. -/
theorem landingCommands : Obligations.LandingCommands := by
  unfold Obligations.LandingCommands
  refine ⟨?close, exec_landingPageClose_early, ?confirmed, ?unverified, exec_programFailed_closed, fun _ => rfl, fun _ => rfl,
    pieceLanded_record_more, pieceLanded_record_last, pieceLanded_commitMarker, landPage_page,
    fun m d => ⟨metaRead_of m d, metaBytes_length m⟩, putParity_page, rebuiltData_eq⟩
  case close =>
    intro s k p hk hc hl hr hp ho ht hn
    exact ⟨_, exec_landingPageClose_due hk hc hl hr hp ho ht hn, landingPageClose_effect s k p⟩
  case confirmed =>
    intro s k p f hk hc hl hf
    rw [exec_landingConfirmed_closed f hk hc hl, if_pos ((firstProgramOk_iff s p f).2 hf)]
  case unverified =>
    intro s k p f hk hc hl hb ⟨n, hn, h32⟩
    have hf : ¬ firstProgramOk s p f = true := by
      rw [firstProgramOk_iff, hb]
      rintro (h | h)
      · cases h
      · exact absurd (h n hn) (by omega)
    rw [exec_landingConfirmed_closed f hk hc hl, if_neg hf]

end Sys2Proof.Machine
end

section
/-! PROOFS. The register pages: the statements of the family of chapter 02, each with the lemmas about the model's functions
that it rests on. -/

namespace Sys2Proof.Machine

/-! ### The register file (O6) -/

/-- What stands in a table with rising keys is found by its key. -/
theorem tabGet_of_mem {α : Type} {t : Tab α} {k : Nat} {v : α} (hs : t.Pairwise (fun p q => p.1 < q.1)) (h : (k, v) ∈ t) :
    tabGet t k = some v := by
  induction t with
  | nil => cases h
  | cons p t ih =>
    obtain ⟨hp, ht⟩ := List.pairwise_cons.1 hs
    rcases List.mem_cons.1 h with rfl | h
    · exact if_pos rfl
    · exact (if_neg (hp _ h).ne).trans (ih ht h)

/-- A table with rising keys is what can be found in it. -/
theorem tab_ext {α : Type} {t u : Tab α} (ht : t.Pairwise (fun p q => p.1 < q.1)) (hu : u.Pairwise (fun p q => p.1 < q.1))
    (h : ∀ k, tabGet t k = tabGet u k) : t = u := by
  have nodup : ∀ {l : Tab α}, l.Pairwise (fun p q => p.1 < q.1) → l.Nodup :=
    fun hl => hl.imp (fun {_ _} hlt e => absurd hlt (by rw [e]; exact lt_irrefl _))
  have mem : ∀ p, p ∈ t ↔ p ∈ u := fun ⟨k, v⟩ =>
    ⟨fun hp => mem_of_tabGet ((h k).symm.trans (tabGet_of_mem ht hp)), fun hp => mem_of_tabGet ((h k).trans (tabGet_of_mem hu hp))⟩
  exact ((List.perm_ext_iff_of_nodup (nodup ht) (nodup hu)).2 mem).eq_of_pairwise
    (fun a b _ _ hab hba => absurd hab (lt_asymm hba)) ht hu

/-- The stored list has its one form: keys rise, and no entry says what an unlisted register reads as. -/
def RegsNormal (s : State) : Prop := s.regs.Pairwise (fun p q => p.1 < q.1) ∧ ∀ p ∈ s.regs, p.2 ≠ regDefault p.1

/-- A stored list in its one form lists exactly the registers that do not hold their Reset value. -/
theorem tabGet_regs_of_normal {s : State} (h : RegsNormal s) (k : Nat) :
    tabGet s.regs k = if regGet s k = regDefault k then none else some (regGet s k) := by
  unfold regGet tabGetD
  cases hk : tabGet s.regs k with
  | none => exact (if_pos rfl).symm
  | some w => exact (if_neg (h.2 _ (mem_of_tabGet hk))).symm

theorem regSet_normal {s : State} (h : RegsNormal s) (k : Nat) (w : Word) : RegsNormal (regSet s k w) := by
  unfold RegsNormal regSet
  dsimp only
  by_cases hw : w = regDefault k
  · rw [if_pos hw]
    exact ⟨h.1.filter _, fun p hp => h.2 p (List.mem_of_mem_filter hp)⟩
  · rw [if_neg hw]
    refine ⟨tabPut_sorted _ _ _ h.1, fun p hp => ?_⟩
    rcases tabPut_mem _ _ _ _ hp with rfl | hp
    · exact hw
    · exact h.2 p hp

theorem regs_eq_of_normal {s t : State} (hs : RegsNormal s) (ht : RegsNormal t) (h : ∀ k, regGet s k = regGet t k) :
    s.regs = t.regs :=
  tab_ext hs.1 ht.1 (fun k => by rw [tabGet_regs_of_normal hs, tabGet_regs_of_normal ht, h])

/-! ### Events (R52, R61) -/

/-- A counter holds at its largest value. -/
theorem regGet_bump_same (s : State) (k : Nat) : regGet (bump s k) k = word (min ((regGet s k).toNat + 1) (2 ^ 32 - 1)) :=
  regGet_regSet_same _ _ _

theorem regGet_raise_status (s : State) (page b : Nat) :
    regGet (raise s page b) (page * 0x1000 + 0x14) = regGet s (page * 0x1000 + 0x14) ||| word (2 ^ b) := by
  unfold raise
  rw [regGet_bump_ne _ _ _ (by omega), regGet_regSet_same]

theorem regGet_raise_count (s : State) (page b : Nat) : regGet (raise s page b) (page * 0x1000 + 0x1C) =
    word (min ((regGet s (page * 0x1000 + 0x1C)).toNat + 1) (2 ^ 32 - 1)) := by
  unfold raise
  rw [regGet_bump_same, regGet_regSet_ne _ _ _ _ (by omega)]

/-! ### What follows a command -/

/-- With no capsule before the sequencer nothing more is decided. -/
theorem decided_eq_settle {s : State} (h : nextRequest s = none) : decided s = settle s := by
  have key : ∀ k, refuseUndefined k s = s
    | 0 => rfl
    | k + 1 => by unfold refuseUndefined; rw [h]
  unfold decided; rw [key]

theorem settle_eq (s : State) : settle s = { s with
    regs := (settle s).regs
    space := { s.space with state := spaceNext s }
    pstate := { s.pstate with idleSince := (settle s).pstate.idleSince }
    lines := linesOf (settle s) } := by
  have hs := settle_space s
  have hp := settle_pstate s
  have hl := settle_lines s
  obtain ⟨r, x, p, l, h⟩ := settle_frame s
  generalize settle s = t at *
  subst h
  simp only at hs hp hl
  rw [← hs, ← hl]
  congr 1
  rw [hp]

/-- Settles O6: the laws of the register file, of events and of what follows every command. -/
theorem registersAndEvents : Obligations.RegistersAndEvents := by
  unfold Obligations.RegistersAndEvents
  refine ⟨regGet_regSet, fun s k w hs hd => regSet_normal ⟨hs, hd⟩ k w,
    fun s t hs ht hsd htd => regs_eq_of_normal ⟨hs, hsd⟩ ⟨ht, htd⟩, ?event, ?settled, fun s h => decided_eq_settle h⟩
  case event =>
    intro s page b hb
    refine ⟨fun i _ => ?_, regGet_raise_count s page b, fun k h1 h2 => regGet_raise_ne s page b k h1.symm h2.symm, ?_⟩
    · rw [regGet_raise_status]; exact bit_or_pow _ i b hb
    · obtain ⟨r, h⟩ := raise_frame s page b
      rw [h]
  case settled => exact fun s => ⟨_, _, settle_eq s, regGet_settle s⟩


/-! ### The sideband's reads and codes (O51) -/

/-- `t` is `s` but for what a transfer on the sideband may change: registers, latches, the bus, the sideband's quote and what
follows every command. -/
def OnlyBus (s t : State) : Prop := ∃ r l sb o b x p n, b.mr = s.boot.mr ∧ b.stage = s.boot.stage ∧
  t = { s with regs := r, latches := l, sideband := sb, out := o, boot := b, space := x, pstate := p, lines := n }

theorem OnlyBus.refl (s : State) : OnlyBus s s := ⟨_, _, _, _, _, _, _, _, rfl, rfl, rfl⟩

theorem OnlyBus.trans {s t u : State} (h : OnlyBus s t) (k : OnlyBus t u) : OnlyBus s u := by
  obtain ⟨_, _, _, _, _, _, _, _, hm, hs, rfl⟩ := h
  obtain ⟨_, _, _, _, _, _, _, _, km, ks, rfl⟩ := k
  exact ⟨_, _, _, _, _, _, _, _, km.trans hm, ks.trans hs, rfl⟩

theorem OnlyRegs.bus {s t : State} (h : OnlyRegs s t) : OnlyBus s t := by
  obtain ⟨_, rfl⟩ := h; exact ⟨_, _, _, _, _, _, _, _, rfl, rfl, rfl⟩

theorem OnlySettled.bus {s t : State} (h : OnlySettled s t) : OnlyBus s t := by
  obtain ⟨_, _, _, _, rfl⟩ := h; exact ⟨_, _, _, _, _, _, _, _, rfl, rfl, rfl⟩

theorem moveCursor_bus (s : State) (addr : Nat) : OnlyBus s (moveCursor s addr) := by
  unfold moveCursor; (repeat' split) <;> exact ⟨_, _, _, _, _, _, _, _, rfl, rfl, rfl⟩

theorem recordRead_frame (s : State) (addr : Nat) (st : Status) : OnlyRegs s (recordRead s addr st) :=
  ((regSet_frame s _ _).trans (regSet_frame _ _ _)).trans (raise_frame _ _ _)

theorem readReg_bus (s : State) (sb : Bool) (addr : Nat) : OnlyBus s (readReg s sb addr).1 := by
  unfold readReg; split <;> exact ⟨_, _, _, _, _, _, _, _, rfl, rfl, rfl⟩

theorem sbReadWord_bus (s : State) (addr : Nat) : OnlyBus s (sbReadWord s addr).1 := by
  unfold sbReadWord
  split
  · exact (recordRead_frame _ _ _).bus
  · split
    · exact (recordRead_frame _ _ _).bus
    · exact (moveCursor_bus s addr).trans (readReg_bus _ _ _)

theorem sbWords_bus (k : Nat) : ∀ (s : State) (addr : Nat), OnlyBus s (sbWords k s addr).1 := by
  induction k with
  | zero => exact fun s _ => OnlyBus.refl s
  | succ k ih => exact fun s addr => (sbReadWord_bus s addr).trans (ih _ _)

theorem sbRead_bus (k : Nat) (s : State) (addr : Nat) : OnlyBus s (sbRead k s addr).1 := by
  unfold sbRead
  split
  · exact OnlyBus.refl s
  · split
    · exact (recordRead_frame _ _ _).bus
    · split
      · exact (recordRead_frame _ _ _).bus
      · exact sbWords_bus k s addr

theorem busOut_bus (s : State) (o : Output) : OnlyBus s (busOut s o) := ⟨_, _, _, _, _, _, _, _, rfl, rfl, rfl⟩

theorem sideband_bus (s : State) (sb : Sideband) : OnlyBus s { s with sideband := sb } :=
  ⟨_, _, _, _, _, _, _, _, rfl, rfl, rfl⟩

theorem badTransfer_bus (s : State) : OnlyBus s (badTransfer s) := (bump_frame s _).bus.trans (sideband_bus _ _)

theorem answerCode_bus (s : State) (bs : List Byte) : OnlyBus s (answerCode s bs) := by
  unfold answerCode; split
  · exact busOut_bus s _
  · exact OnlyBus.refl s

theorem sbReadOne_bus (s : State) (addr : Nat) : OnlyBus s (sbReadOne s addr) :=
  ((sideband_bus s _).trans (sbReadWord_bus _ addr)).trans (busOut_bus _ _)

/-- A command of the sideband that ends with what follows every command. -/
def EndsOnBus (o : Host.Outcome State Fault Refusal) (s : State) : Prop := ∃ u, o = conclude u ∧ OnlyBus s u

theorem endsOnBus {s u : State} (h : OnlyBus s u) : EndsOnBus (conclude u) s := ⟨u, rfl, h⟩

/-- A command with a condition ends on the bus either way. -/
theorem EndsOnBus.ite {p : Prop} [Decidable p] {a b : Host.Outcome State Fault Refusal} {s : State} (ha : EndsOnBus a s)
    (hb : EndsOnBus b s) : EndsOnBus (if p then a else b) s := by split <;> assumption

/-- The sideband's quote is kept in the boot block, beside what was measured. -/
theorem quote_bus (s : State) (b : Boot) (hm : b.mr = s.boot.mr) (hs : b.stage = s.boot.stage) :
    OnlyBus s { s with boot := b } := ⟨_, _, _, _, _, _, _, _, hm, hs, rfl⟩

theorem sidebandCommands_end (s : State) (n : Nat) (x : List Byte) :
    ∀ c ∈ [Instr.i3cPrivateRead n, .i3cTransferTimeout, .lbSbNewest, .lbSbOlder, .enec, .disec, .rstdaa, .entdaa n, .setnewda n,
      .getmwl, .getmrl, .getpid, .getbcr, .getdcr, .getstatus, .quoteReq x, .sidebandQuoteReady], EndsOnBus (exec c s) s := by
  have same : EndsOnBus (conclude s) s := endsOnBus (OnlyBus.refl s)
  have answers : ∀ bs, EndsOnBus (conclude (answerCode s bs)) s := fun bs => endsOnBus (answerCode_bus s bs)
  have acks : EndsOnBus (if sidebandUp s then conclude (busOut s (.i3cAck true)) else conclude s) s :=
    (endsOnBus (busOut_bus s _)).ite same
  simp only [List.forall_mem_cons, List.not_mem_nil, false_implies, implies_true, and_true]
  refine ⟨?read, ?timeout, ?newest, ?older, acks, acks, ?rstdaa, ?entdaa, ?setnewda, answers _, answers _, answers _, answers _,
    answers _, ?getstatus, ?quoteReq, ?quoteReady⟩
  case read => exact same.ite (endsOnBus (((sideband_bus s _).trans (sbRead_bus _ _ _)).trans (busOut_bus _ _)))
  case timeout => exact (endsOnBus (badTransfer_bus s)).ite same
  case newest => exact (endsOnBus (sbReadOne_bus s _)).ite same
  case older => exact (endsOnBus (sbReadOne_bus s _)).ite same
  case rstdaa => exact (endsOnBus (sideband_bus s _)).ite same
  case entdaa => exact (endsOnBus ((sideband_bus s _).trans (busOut_bus _ _))).ite same
  case setnewda => exact (endsOnBus ((sideband_bus s _).trans (busOut_bus _ _))).ite same
  case getstatus => exact (endsOnBus ((answerCode_bus s _).trans (sideband_bus _ _))).ite same
  case quoteReq =>
    exact same.ite ((endsOnBus (bump_frame s _).bus).ite
      ((endsOnBus (quote_bus s _ (by rfl) (by rfl))).ite (endsOnBus (quote_bus s _ (by rfl) (by rfl)))))
  case quoteReady =>
    exact same.ite ((endsOnBus (quote_bus s _ (by rfl) (by rfl))).ite (endsOnBus (quote_bus s _ (by rfl) (by rfl))))

/-- Settles O51: what a transfer may change is none of the drive's data. -/
theorem sidebandLeavesData : Obligations.SidebandLeavesData := by
  unfold Obligations.SidebandLeavesData
  intro s n x c hc
  obtain ⟨u, hu, h⟩ := sidebandCommands_end s n x c hc
  obtain ⟨_, _, _, _, _, _, _, _, hm, hs, ht⟩ := h.trans (settle_frame u).bus
  refine ⟨settle u, hu, ?_⟩
  rw [ht]
  exact ⟨rfl, rfl, rfl, rfl, rfl, rfl, rfl, rfl, rfl, rfl, rfl, rfl, rfl, rfl, rfl, rfl, rfl, rfl, rfl, rfl, hm, hs⟩

/-! ### Transfers on the sideband (O49) -/

/-- A read off the pages of the sideband is rejected whole, and recorded once (R54, R56). -/
theorem sbRead_off_pages {k a : Nat} (hk : 0 < k) (h : sbPage (a / 0x1000) = false) (s : State) :
    sbRead k s a = (recordRead s a .auth, List.replicate k 0) := by
  simp [sbRead, hk.ne', h]

theorem sbRead_unaligned {k a : Nat} (hk : 0 < k) (h : sbPage (a / 0x1000) = true) (ha : a % 4 ≠ 0) (s : State) :
    sbRead k s a = (recordRead s a .range, List.replicate k 0) := by
  simp [sbRead, hk.ne', h, ha]

theorem sbReadWord_off_pages {a : Nat} (h : sbPage (a / 0x1000) = false) (s : State) :
    sbReadWord s a = (recordRead s a .auth, 0) := by
  simp [sbReadWord, h]

theorem sbReadWord_unaligned {a : Nat} (h : sbPage (a / 0x1000) = true) (ha : a % 4 ≠ 0) (s : State) :
    sbReadWord s a = (recordRead s a .range, 0) := by
  simp [sbReadWord, h, ha]

theorem sbReadWord_register {a : Nat} (h : sbPage (a / 0x1000) = true) (ha : a % 4 = 0) (hn : a ≠ A.LB_SB_NEWEST)
    (ho : a ≠ A.LB_SB_OLDER) (s : State) : sbReadWord s a = readReg s true a := by
  have hm : moveCursor s a = s := by unfold moveCursor; rw [if_neg hn, if_neg ho]
  unfold sbReadWord
  rw [hm]
  simp [h, ha]

theorem sbWords_length (k : Nat) : ∀ (s : State) (a : Nat), (sbWords k s a).2.length = k := by
  induction k with
  | zero => exact fun _ _ => rfl
  | succ k ih => exact fun s a => congrArg (· + 1) (ih _ _)

theorem sbRead_length (k : Nat) (s : State) (a : Nat) : (sbRead k s a).2.length = k := by
  unfold sbRead
  split
  next h => exact h.symm
  next => (repeat' split) <;> simp [sbWords_length]

theorem exec_i3cPrivateRead_addressed {s : State} (n : Nat) (h : addressed s = true) :
    let r := sbRead (min n (min 64 ((0x1003 - s.sideband.address % 0x1000) / 4))) (endTransfer s) s.sideband.address
    exec (.i3cPrivateRead n) s = .next (settle { r.1 with out := r.1.out ++ [.i3cWords r.2] }) := by
  show execI3cPrivateRead n s = _
  unfold execI3cPrivateRead; rw [h]; rfl

/-- A write without its STOP only holds when its transfer began. -/
theorem exec_i3cPrivateWrite_open {s : State} {w : I3cWrite} (h : addressed s = true) (hs : w.stop = false) :
    exec (.i3cPrivateWrite w) s = .next (settle { s with sideband := { s.sideband with openSince := some (s.sessionUs - w.tookUs) } }) := by
  show execI3cPrivateWrite w s = _
  unfold execI3cPrivateWrite; rw [h, hs]; rfl

theorem exec_i3cPrivateWrite_bad {s : State} {w : I3cWrite} (h : addressed s = true) (hs : w.stop = true)
    (hb : w.wellFormed = false ∨ fieldOf s A.BW_I3C_TMO 15 0 < w.tookUs) :
    exec (.i3cPrivateWrite w) s = .next (settle (badTransfer s)) := by
  have hc : (!w.wellFormed || decide (fieldOf s A.BW_I3C_TMO 15 0 < w.tookUs)) = true := by
    rcases hb with hb | hb <;> simp [hb]
  show execI3cPrivateWrite w s = _
  unfold execI3cPrivateWrite; rw [h, hs, hc]; rfl

/-- A write with its STOP sets the address, has its word written, and is acknowledged (R56). -/
theorem exec_i3cPrivateWrite_ended {s : State} {w : I3cWrite} (h : addressed s = true) (hs : w.stop = true)
    (hw : w.wellFormed = true) (ht : w.tookUs ≤ fieldOf s A.BW_I3C_TMO 15 0) :
    let u := { s with sideband := { s.sideband with address := w.address % 2 ^ 24, openSince := none } }
    (w.data = none → exec (.i3cPrivateWrite w) s = .next (decided { u with out := u.out ++ [.i3cAck true] })) ∧
    (∀ d, w.data = some d → let v := (writeRegs u 1 0 0 (w.address % 2 ^ 24) 0 none [d]).1
      exec (.i3cPrivateWrite w) s = .next (decided { v with out := v.out ++ [.i3cAck true] })) := by
  have hc : (!w.wellFormed || decide (fieldOf s A.BW_I3C_TMO 15 0 < w.tookUs)) = false := by simp [hw, ht]
  have he : exec (.i3cPrivateWrite w) s = execI3cPrivateWrite w s := rfl
  intro u
  rw [he]
  unfold execI3cPrivateWrite
  rw [h, hs, hc]
  exact ⟨fun hd => by rw [hd]; rfl, fun d hd => by rw [hd]; rfl⟩

theorem exec_i3cTransferTimeout_eq (s : State) :
    exec .i3cTransferTimeout s = .next (settle (if transferLate s then badTransfer s else s)) := by
  show execI3cTransferTimeout s = _
  unfold execI3cTransferTimeout; split <;> rfl

theorem transferLate_of_open {s : State} {start : Nat} (h : addressed s = true) (ho : s.sideband.openSince = some start) :
    transferLate s = decide (start + fieldOf s A.BW_I3C_TMO 15 0 < s.sessionUs) := by
  unfold transferLate; rw [ho, h]; rfl

theorem transferLate_of_ended {s : State} (ho : s.sideband.openSince = none) : transferLate s = false := by
  unfold transferLate; rw [ho]

theorem transferLate_of_unaddressed {s : State} (h : addressed s = false) : transferLate s = false := by
  unfold transferLate; split <;> simp [h]

theorem exec_lbSbNewest_addressed {s : State} (h : addressed s = true) :
    exec .lbSbNewest s = .next (settle (sbReadOne s A.LB_SB_NEWEST)) := if_pos h

theorem exec_lbSbOlder_addressed {s : State} (h : addressed s = true) :
    exec .lbSbOlder s = .next (settle (sbReadOne s A.LB_SB_OLDER)) := if_pos h

theorem moveCursor_older {s : State} {q : Nat} (h : s.sideband.cursor = some q) :
    (moveCursor s A.LB_SB_OLDER).sideband.cursor = olderSeq s q := by
  show s.sideband.cursor.bind (olderSeq s) = _
  rw [h]; rfl

/-- To a drive that is not addressed nothing happens. -/
theorem transfers_unaddressed {s : State} (n : Nat) (w : I3cWrite) (h : addressed s = false) :
    exec (.i3cPrivateRead n) s = .next (settle s) ∧ exec (.i3cPrivateWrite w) s = .next (settle s) ∧
    exec .i3cTransferTimeout s = .next (settle s) ∧ exec .lbSbNewest s = .next (settle s) ∧
    exec .lbSbOlder s = .next (settle s) := by
  have hn : ¬ addressed s = true := by simp [h]
  have hi : (!addressed s) = true := by simp [h]
  refine ⟨if_pos hi, if_pos hi, ?_, if_neg hn, if_neg hn⟩
  rw [exec_i3cTransferTimeout_eq, transferLate_of_unaddressed h]; rfl

/-- Settles O49: the transfers of an addressed drive, clause by clause from the lemmas above. -/
theorem sidebandTransfers : Obligations.SidebandTransfers := by
  unfold Obligations.SidebandTransfers
  refine ⟨fun s n h => exec_i3cPrivateRead_addressed n h, fun s k a => sbRead_length k s a,
    fun s k a hk => ⟨fun h => sbRead_off_pages hk h s, fun h ha => sbRead_unaligned hk h ha s⟩,
    fun s a h => sbReadWord_off_pages h s, fun s a h ha => sbReadWord_unaligned h ha s,
    fun s a h ha hn ho => sbReadWord_register h ha hn ho s, fun _ => rfl, fun s w => exec_i3cPrivateWrite_open,
    fun s w => exec_i3cPrivateWrite_ended, ?bad, fun s h => ⟨exec_lbSbNewest_addressed h, exec_lbSbOlder_addressed h⟩,
    fun s => ⟨rfl, fun q => moveCursor_older⟩, fun s n w => transfers_unaddressed n w⟩
  case bad =>
    intro s w h
    refine ⟨exec_i3cPrivateWrite_bad h, fun start ho => ⟨fun hl => ?_, fun hl => ?_⟩, fun ho => ?_⟩
    · rw [exec_i3cTransferTimeout_eq, transferLate_of_open h ho, decide_eq_true hl]; rfl
    · rw [exec_i3cTransferTimeout_eq, transferLate_of_open h ho, decide_eq_false (by omega)]; rfl
    · rw [exec_i3cTransferTimeout_eq, transferLate_of_ended ho]; rfl

/-! ### The input stage (O9) -/

theorem inputQualified_iff (mv : Nat) : inputQualified mv = true ↔ 36000 ≤ mv ∧ mv ≤ 75000 := by simp [inputQualified]

/-- Before bulk charge, a level of the input says whether Detect runs (R460). -/
theorem exec_inputRise_cold {s : State} (mv : Nat) (h : s.power.phase = .unpowered ∨ s.power.phase = .detect) :
    exec (.inputRise mv) s = .next (settle (enterPower { s with power := { s.power with inputMv := mv } }
      (if inputQualified mv && !s.power.pwrdis then .detect else .unpowered))) := by
  show execInputRise mv s = _
  unfold execInputRise
  rcases h with h | h <;> · simp only [h]; split <;> rfl

theorem exec_inputRise_qualified {s : State} {mv : Nat} (h : s.power.phase = .unpowered ∨ s.power.phase = .detect)
    (h1 : 36000 ≤ mv) (h2 : mv ≤ 75000) (hd : s.power.pwrdis = false) :
    exec (.inputRise mv) s = .next (settle { s with power :=
      { s.power with inputMv := mv, phase := .detect, phaseSince := s.boardUs } }) := by
  rw [exec_inputRise_cold mv h, (inputQualified_iff mv).2 ⟨h1, h2⟩, hd]; rfl

theorem exec_inputRise_low {s : State} {mv : Nat} (h : s.power.phase = .unpowered ∨ s.power.phase = .detect) (h1 : mv < 36000) :
    exec (.inputRise mv) s = .next (settle { s with power :=
      { s.power with inputMv := mv, phase := .unpowered, phaseSince := s.boardUs } }) := by
  have hq : inputQualified mv = false := Bool.eq_false_iff.2 (fun e => by have := (inputQualified_iff mv).1 e; omega)
  rw [exec_inputRise_cold mv h, hq]; rfl

theorem exec_detect_done {s : State} (h : s.power.phase = .detect) (ht : s.power.phaseSince + 50000 ≤ s.boardUs)
    (h1 : 36000 ≤ s.power.inputMv) (h2 : s.power.inputMv ≤ 75000) (hd : s.power.pwrdis = false) :
    exec .detect s = .next (settle { s with power := { s.power with phase := .bulkCharge, phaseSince := s.boardUs } }) :=
  if_pos ⟨h, ht, (inputQualified_iff _).2 ⟨h1, h2⟩, by rw [hd]; rfl⟩

theorem exec_holdUpTimeout_late {s : State} (hl : live s = true) (hr : s.power.holdUpReady = false) (ht : 2000000 ≤ s.sessionUs) :
    exec .holdUpTimeout s = .next (settle { s with power := { s.power with holdUpLate := true } }) :=
  if_pos ⟨hl, by rw [hr]; rfl, ht⟩

/-! ### The straps (R469) -/

/-- The straps are read from stage two on, until they are declared failed (R65, R469). -/
def ReadsStraps (s : State) : Prop := live s = true ∧
  (s.boot.stage = .stageTwo ∨ s.boot.stage = .mounting ∨ s.boot.stage = .mounted) ∧ s.power.strapFailed = false

theorem strapGuard_false {s : State} (h : ReadsStraps s) : (!live s || !(s.boot.stage == .stageTwo || s.boot.stage == .mounting ||
    s.boot.stage == .mounted) || s.power.strapFailed) = false := by
  obtain ⟨hl, hb, hf⟩ := h
  rcases hb with hb | hb | hb <;> rw [hl, hb, hf] <;> rfl

/-- A set that agrees is accepted. -/
theorem exec_strapRead_agree {s : State} (a : Nat) (h : ReadsStraps s) :
    exec (.strapRead a a a) s = .next (settle (let u := fieldSet s A.BW_STRAP 5 0 a
      { u with power := { s.power with strapValid := true, strapMisses := 0,
                                       slotFirst := if s.power.strapValid then s.power.slotFirst else a } })) := by
  show execStrapRead a a a s = _
  unfold execStrapRead
  simp only [strapGuard_false h, Bool.false_eq_true, if_false, and_self, if_true]; rfl

/-- A set that does not agree is counted, and the sixteenth in a row is the last. -/
theorem exec_strapRead_differ {s : State} {a b c : Nat} (h : ReadsStraps s) (hd : ¬(a = b ∧ b = c)) :
    exec (.strapRead a b c) s = .next (settle (let u := bump s (A.BW_REJ_COUNT + 4 * 4)
      if 15 ≤ s.power.strapMisses then
        raise { u with power := { s.power with strapMisses := s.power.strapMisses + 1, strapFailed := true } } 2 2
      else { u with power := { s.power with strapMisses := s.power.strapMisses + 1 } })) := by
  show execStrapRead a b c s = _
  unfold execStrapRead
  simp only [strapGuard_false h, Bool.false_eq_true, hd, if_false, Nat.succ_le_succ_iff]
  split <;> rfl

/-- Settles O9: the input stage phase by phase, and the three outcomes of a strap reading. -/
theorem inputStageAndStraps : Obligations.InputStageAndStraps := by
  unfold Obligations.InputStageAndStraps
  refine ⟨fun s mv => exec_inputRise_qualified, fun s mv => exec_inputRise_low, fun s => exec_detect_done,
    fun s h => if_pos h, fun s h => if_pos h, fun s h => if_pos h, fun s => exec_holdUpTimeout_late,
    fun s a hl hb hf => exec_strapRead_agree a ⟨hl, hb, hf⟩, ?miss, ?last⟩
  case miss =>
    intro s a b c hl hb hf hd hm
    rw [exec_strapRead_differ ⟨hl, hb, hf⟩ hd]
    exact congrArg (fun t => Host.Outcome.next (settle t)) (if_neg (by omega))
  case last =>
    intro s a b c hl hb hf hd hm
    rw [exec_strapRead_differ ⟨hl, hb, hf⟩ hd]
    exact congrArg (fun t => Host.Outcome.next (settle t)) (if_pos hm)

/-! ### What an accepted write sets off -/

/-- Only a mode request and a freeze keep their completion waiting (R78, R373). -/
theorem completionWaits_of_ne {addr : Nat} (hm : addr ≠ A.SY_MODE_REQ) (hl : addr ≠ A.LB_CONTROL) (s : State) (w : Word) :
    completionWaits s addr w = false := by
  simp [completionWaits, hm, hl]

/-- An accepted write whose completion does not wait: its word's work is done, and its outcome leaves the drive. -/
theorem exec_registerWrite_done {s : State} {m : Nat} {x : Mooring} {addr : Nat} {w : Word} {t : State}
    (h : WriteAccepted s m x addr w) (hm : addr ≠ A.SY_MODE_REQ) (hl : addr ≠ A.LB_CONTROL)
    (ht : trigger (wordPlaced s m addr w) addr w m s.seqr.next none = t) :
    exec (.registerWrite m addr w) s = .next (decided (writeDone t m s.seqr.next)) := by
  rw [exec_registerWrite_accepted s m x addr w h, completionWaits_of_ne hm hl, ht]; rfl

/-! ### The page header (O16) -/

/-- A word of PG_CTRL works by its bits (R51, R58, R59). -/
theorem trigger_pageCtrl {p : Nat} (hp : isRecordPage p = false) (s : State) (w : Word) (m csn : Nat) (tag : Option (Nat × Nat)) :
    trigger s (p * 4096 + 0x10) w m csn tag =
      (let s := if bit w 0 then commitPage s p else s
       let s := if bit w 1 then discardShadow s p else s
       if bit w 2 then regSet s (p * 4096 + 0x0C) 0 else s) := by
  have hd : (p * 4096 + 0x10) / 0x1000 = p := by omega
  have hm : (p * 4096 + 0x10) % 0x1000 = 0x10 := by omega
  unfold trigger
  dsimp only
  rw [hd, hm, hp]; rfl

/-- A word of PG_EVT_STATUS clears the events whose bits it carries (R52). -/
theorem trigger_evtStatus {p : Nat} (hp : isRecordPage p = false) (s : State) (w : Word) (m csn : Nat) (tag : Option (Nat × Nat)) :
    trigger s (p * 4096 + 0x14) w m csn tag = regSet s (p * 4096 + 0x14) (regGet s (p * 4096 + 0x14) &&& ~~~w) := by
  have hd : (p * 4096 + 0x14) / 0x1000 = p := by omega
  have hm : (p * 4096 + 0x14) % 0x1000 = 0x14 := by omega
  unfold trigger
  dsimp only
  rw [hd, hm, hp]; rfl

/-- A word of any other header register works by being in place. -/
theorem trigger_header {addr : Nat} (h : addr % 0x1000 < 0x40) (hc : addr % 0x1000 ≠ 0x10) (he : addr % 0x1000 ≠ 0x14) (s : State)
    (w : Word) (m csn : Nat) (tag : Option (Nat × Nat)) : trigger s addr w m csn tag = s := by
  unfold trigger
  dsimp only [A.SY_MODE_REQ, A.SY_PWR_CTRL, A.CF_OVL_MODE, A.CF_BOOT_MODE, A.CF_DEFAULTS_ACCEPT, A.MO_KILL, A.MO_CERT_GEN_MIN,
    A.LB_CONTROL, A.CM_TEST, A.DR_CKPT, A.HB_CTRL, A.HB_ID]
  iterate 18 rw [if_neg (by omega)]

/-- No header register is the mode request or LB_CONTROL. -/
theorem header_ne {p off : Nat} (h : off < 0x40) : p * 4096 + off ≠ A.SY_MODE_REQ ∧ p * 4096 + off ≠ A.LB_CONTROL := by
  unfold A.SY_MODE_REQ A.LB_CONTROL; omega

/-- The registers of the header are those of R50, on every page that is no record page. -/
theorem regAt_header {p off : Nat} (hr : isRecordPage p = false) (hp : pageMapped p = true) (ho : off < 0x40) :
    regAt (p * 4096 + off) = findReg regsHeader off := by
  have hd : (p * 4096 + off) / 0x1000 = p := by omega
  have hm : (p * 4096 + off) % 0x1000 = off := by omega
  have h0 : ¬ blockOfPage p = 0 := by simpa [pageMapped] using hp
  have h16 : ¬ blockOfPage p ≥ 16 := by simpa [isRecordPage] using hr
  unfold regAt
  dsimp only
  rw [hd, hm, if_neg h0, if_neg h16, if_pos ho]

/-- No header register is windowed. -/
theorem keyOf_header {p off : Nat} (ho : off < 0x40) (s : State) : keyOf s (p * 4096 + off) = p * 4096 + off := by
  have h : selOf s (p * 4096 + off) = 0 := by
    unfold selOf
    dsimp only [A.HM_CLASS, A.BW_PLAUS_LO, A.BW_PLAUS_HI, A.CF_OVL_TARGET, A.CF_OVL_MASK, A.CF_OVL_VALUE, A.MO_DRIVE_CERT_DATA,
      A.HB_HCERT_DATA, A.LB_FAULT_CFG, A.LB_FAULT_N]
    iterate 7 rw [if_neg (by omega)]
  unfold keyOf regKey; rw [h]; omega

/-- LOCK stays in place. -/
theorem pageLocked_wordPlaced {p : Nat} (hr : isRecordPage p = false) (hp : pageMapped p = true) (s : State) (m : Nat) :
    pageLocked (wordPlaced s m (p * 4096 + 0x20) 1) p = true := by
  have hf : ∀ u, fieldsAt u (p * 4096 + 0x20) = [rsv 31 1, rwl 0 0 0] := by
    intro u
    have hn : ¬ (p * 4096 + 0x20 = A.LB_FAULT_CFG ∨ p * 4096 + 0x20 = A.LB_FAULT_N) := by
      unfold A.LB_FAULT_CFG A.LB_FAULT_N; omega
    unfold fieldsAt
    rw [regAt_header hr hp (by omega)]
    exact if_neg (fun h => hn h.1)
  have hs : wordPlaced s m (p * 4096 + 0x20) 1 = regSet (takeCsn s).2 (p * 4096 + 0x20)
      ((regGet (takeCsn s).2 (p * 4096 + 0x20) &&& ~~~1) ||| 1) := by
    unfold wordPlaced storeWord
    dsimp only
    rw [hf, keyOf_header (by omega)]; rfl
  unfold pageLocked bit
  rw [hs, regGet_regSet_same, BitVec.getLsbD_or]
  exact Bool.or_true _

theorem exec_shadowTimeout_late {s : State} {p : Nat} {h : Shadow} (hs : shadowOf s p = some h)
    (ht : h.lastWrite + 10000000 ≤ s.sessionUs) : exec (.shadowTimeout p) s = .next (settle (discardShadow s p)) := by
  show execShadowTimeout p s = _
  unfold execShadowTimeout
  rw [hs]; exact if_pos ht

theorem discardShadow_of_shadow {s : State} {p : Nat} {h : Shadow} (hs : shadowOf s p = some h) :
    discardShadow s p = logRecord { s with shadows := s.shadows.filter (fun x => x.page != p) } 0x0021
      (src (blockOfPage p) (pageInstance p)) false (leBytes p 2 ++ leBytes h.owner 2) := by
  unfold discardShadow; rw [hs]

/-! ### The words of a shadow become live (R58) -/

/-- Words are stored one after the other. -/
def storeAll (s : State) (ws : Tab Word) : State := ws.foldl (fun s p => regSet s p.1 p.2) s

theorem storeAll_onlyRegs (s : State) (ws : Tab Word) : OnlyRegs s (storeAll s ws) :=
  foldl_onlyRegs _ (fun _ _ => regSet_frame _ _ _) ws s

theorem regGet_storeAll_other {ws : Tab Word} {k : Nat} (h : ∀ p ∈ ws, p.1 ≠ k) (s : State) :
    regGet (storeAll s ws) k = regGet s k :=
  List.foldlRecOn ws _ (motive := fun t => regGet t k = regGet s k) rfl
    (fun _ ht p hp => (regGet_regSet_ne _ _ _ _ (h p hp)).trans ht)

theorem regGet_storeAll_of_mem {ws : Tab Word} {p : Nat × Word} (hn : (ws.map Prod.fst).Nodup) (hp : p ∈ ws) (s : State) :
    regGet (storeAll s ws) p.1 = p.2 := by
  induction ws generalizing s with
  | nil => cases hp
  | cons q ws ih =>
    obtain ⟨hq, hn⟩ := List.nodup_cons.1 hn
    rcases List.mem_cons.1 hp with rfl | hp
    · have ho : ∀ x ∈ ws, x.1 ≠ p.1 := fun x hx e => hq (e ▸ List.mem_map_of_mem hx)
      exact (regGet_storeAll_other ho _).trans (regGet_regSet_same _ _ _)
    · exact ih hn hp _

/-- The words of a shadow but the key words, which no register shows (R361). -/
def plainWords (h : Shadow) : Tab Word :=
  h.words.filter (fun p => !(decide (A.CP_KEY_DATA ≤ p.1) && decide (p.1 < A.CP_KEY_DATA + 32)))

theorem mem_plainWords {h : Shadow} {q : Nat × Word} (hq : q ∈ h.words) (hk : q.1 < A.CP_KEY_DATA ∨ A.CP_KEY_DATA + 32 ≤ q.1) :
    q ∈ plainWords h := by
  refine List.mem_filter.2 ⟨hq, ?_⟩
  rcases hk with hk | hk
  · simp [Nat.not_le.2 hk]
  · simp [Nat.not_lt.2 hk]

/-- A page with no group of its own kind has its shadow's words stored, and the shadow released. -/
theorem commitPage_plain {s : State} {p : Nat} {h : Shadow} (h5 : p ≠ 5) (h6 : p ≠ 6) (h12 : p ≠ 12) (h13 : p ≠ 13)
    (hs : shadowOf s p = some h) :
    commitPage s p = storeAll { s with shadows := s.shadows.filter (fun x => x.page != p) } (plainWords h) := by
  have hc : commitPage s p = shadowLive s p := by
    unfold commitPage; rw [if_neg h5, if_neg h6, if_neg h12, if_neg h13]
  rw [hc]
  unfold shadowLive; rw [hs]; rfl

theorem commitPage_content {s : State} {p : Nat} {h : Shadow} (h5 : p ≠ 5) (h6 : p ≠ 6) (h12 : p ≠ 12) (h13 : p ≠ 13)
    (hs : shadowOf s p = some h) (hn : (h.words.map Prod.fst).Nodup) :
    (commitPage s p).shadows = s.shadows.filter (fun x => x.page != p) ∧
    (∀ q ∈ h.words, (q.1 < A.CP_KEY_DATA ∨ A.CP_KEY_DATA + 32 ≤ q.1) → regGet (commitPage s p) q.1 = q.2) ∧
    (∀ k, k ∉ h.words.map Prod.fst → regGet (commitPage s p) k = regGet s k) := by
  have hnp : ((plainWords h).map Prod.fst).Nodup := hn.sublist (List.filter_sublist.map _)
  rw [commitPage_plain h5 h6 h12 h13 hs]
  refine ⟨(storeAll_onlyRegs _ _).shadows, fun q hq hk => regGet_storeAll_of_mem hnp (mem_plainWords hq hk) _, fun k hk => ?_⟩
  exact regGet_storeAll_other (fun q hq (e : q.1 = k) => hk (e ▸ List.mem_map_of_mem (List.mem_of_mem_filter hq))) _

/-- Settles O16: each header write is a single write whose word does the work that the lemmas above give. -/
theorem pageHeaderWrites : Obligations.PageHeaderWrites := by
  unfold Obligations.PageHeaderWrites
  have ctrl : ∀ {p : Nat}, p * 4096 + 0x10 ≠ A.SY_MODE_REQ ∧ p * 4096 + 0x10 ≠ A.LB_CONTROL := header_ne (by omega)
  refine ⟨fun s m p x hp h => ?commit, fun s m p x hp h => ?abandon, fun s m p x hp h => ?clrErr, fun s m p k x hp h => ?events,
    fun s m p x hr hp h => ⟨?lock, pageLocked_wordPlaced hr hp s m⟩, fun s p h => exec_shadowTimeout_late,
    fun s p h => discardShadow_of_shadow, fun s p h => commitPage_content⟩
  case commit => exact exec_registerWrite_done h ctrl.1 ctrl.2 (trigger_pageCtrl hp _ _ _ _ _)
  case abandon => exact exec_registerWrite_done h ctrl.1 ctrl.2 (trigger_pageCtrl hp _ _ _ _ _)
  case clrErr => exact exec_registerWrite_done h ctrl.1 ctrl.2 (trigger_pageCtrl hp _ _ _ _ _)
  case events =>
    have hne := header_ne (p := p) (off := 0x14) (by omega)
    exact exec_registerWrite_done h hne.1 hne.2 (trigger_evtStatus hp _ _ _ _ _)
  case lock =>
    have hne := header_ne (p := p) (off := 0x20) (by omega)
    exact exec_registerWrite_done h hne.1 hne.2 (trigger_header (by omega) (by omega) (by omega) _ _ _ _ _)

/-! ### The system page, the configuration page, moorings and links (O17) -/

theorem shadowPut_frame (s : State) (m page key : Nat) (w : Word) : ∃ h, shadowPut s m page key w = { s with shadows := h } := by
  unfold shadowPut; split <;> exact ⟨_, rfl⟩

/-- A word put in place changes the register file, or the shadow of its page (R58). -/
theorem storeWord_frame (m : Nat) (s : State) (addr : Nat) (w : Word) :
    ∃ r h, storeWord m s addr w = { s with regs := r, shadows := h } := by
  unfold storeWord
  dsimp only
  split
  · obtain ⟨h, e⟩ := shadowPut_frame s m (addr / 0x1000) (keyOf s addr) (pick w (fieldsAt s addr) Field.shadowed)
    exact ⟨_, h, e⟩
  · split
    · obtain ⟨r, e⟩ := regSet_frame s (keyOf s addr) ((regGet s (keyOf s addr) &&&
        ~~~(word (fieldMask (fieldsAt s addr) storedField))) ||| pick w (fieldsAt s addr) storedField)
      exact ⟨r, _, e⟩
    · exact ⟨_, _, rfl⟩

theorem wordPlaced_pstate (s : State) (m addr : Nat) (w : Word) : (wordPlaced s m addr w).pstate = s.pstate := by
  obtain ⟨_, _, h⟩ := storeWord_frame m (takeCsn s).2 addr w
  unfold wordPlaced; rw [h]; rfl

/-- A mode request into AUDIT or QUIESCE alone keeps its completion waiting, until its seal ends (R78). -/
theorem completionWaits_modeReq (s : State) (w : Word) : completionWaits s A.SY_MODE_REQ w = true ↔
    (bits w 2 0 = 2 ∨ bits w 2 0 = 3) ∧ bits w 2 0 ≠ s.mode.cur := by
  simp [completionWaits, A.SY_MODE_REQ, A.LB_CONTROL]

theorem exec_syModeReq_accepted {s : State} {m : Nat} {w : Word} {x : Mooring} (h : WriteAccepted s m x A.SY_MODE_REQ w) :
    exec (.syModeReq m w) s = .next (decided (
      let u := requestMode (wordPlaced s m A.SY_MODE_REQ w) (bits w 2 0) m s.seqr.next none
      if (bits w 2 0 = 2 ∨ bits w 2 0 = 3) ∧ bits w 2 0 ≠ s.mode.cur then reviewSpace u else writeDone u m s.seqr.next)) := by
  refine (exec_registerWrite_accepted s m x A.SY_MODE_REQ w h).trans (congrArg (fun t => Host.Outcome.next (decided t)) ?_)
  exact if_congr (completionWaits_modeReq s w) rfl rfl

/-- A word of SY_PWR_CTRL limits the power state at once, and its bit 8 begins the orderly shutdown (R62, R323). -/
theorem trigger_pwrCtrl (s : State) (w : Word) (m csn : Nat) (tag : Option (Nat × Nat)) :
    trigger s A.SY_PWR_CTRL w m csn tag =
      (let s := if bits w 2 0 < s.pstate.cur then setPState s (bits w 2 0) else s
       if bit w 8 then beginShutdown s csn else s) := rfl

theorem trigger_limit {s : State} {w : Word} {k : Nat} (hk : bits w 2 0 = k) (hb : bit w 8 = false) (m csn : Nat)
    (tag : Option (Nat × Nat)) :
    trigger s A.SY_PWR_CTRL w m csn tag = if k < s.pstate.cur then setPState s k else s := by
  rw [trigger_pwrCtrl, hk, hb]; rfl

theorem trigger_shutdown {s : State} {w : Word} (h0 : s.pstate.cur = 0) (hb : bit w 8 = true) (m csn : Nat)
    (tag : Option (Nat × Nat)) : trigger s A.SY_PWR_CTRL w m csn tag = beginShutdown s csn := by
  rw [trigger_pwrCtrl, h0, hb]
  dsimp only
  rw [if_neg (Nat.not_lt_zero _), if_pos rfl]

/-- A word sent to set a bit has that bit. -/
theorem bit_withBit (s : State) (addr : Nat) {b : Nat} (hb : b < 32) : bit (withBit s addr b) b = true := by
  unfold withBit; rw [bit_or_pow _ _ _ hb]; simp

theorem exec_shutdownComplete_done {s : State} (hs : shutdownSealed s = true) (hc : cleanSaved s = true) :
    exec .shutdownComplete s = .next (decided (
      let u := s.moorings.foldl (fun v p => teardown v p.1 6) (setPhase s 4)
      u.harbour.towlines.foldl (fun v p => teardownLine v (.towline p.1) 6) u)) := by
  have hm : (setPhase s 4).moorings = s.moorings := by
    obtain ⟨_, _, _, h⟩ := setPhase_frame s 4; rw [h]
  have hb : (shutdownSealed s && cleanSaved s) = true := by rw [hs, hc]; rfl
  show execShutdownComplete s = _
  unfold execShutdownComplete
  rw [if_pos hb]
  dsimp only
  rw [hm, concludeSeq_eq]

/-- RETRAIN takes the link of its port down (R82). -/
theorem trigger_retrain {s : State} {p : Port} {w : Word} (hb : bit w 8 = true) (m csn : Nat) (tag : Option (Nat × Nat)) :
    trigger s (npAddr p A.NP_LINK_CTRL) w m csn tag = linkDown s p := by
  cases p <;> (unfold trigger; rw [hb]; rfl)

/-- A word of MO_CERT_GEN_MIN tears down the moorings of its role that lie below it (R114, R118). -/
theorem trigger_certGenMin {r : Nat} (h1 : 1 ≤ r) (h4 : r ≤ 4) (s : State) (w : Word) (m csn : Nat) (tag : Option (Nat × Nat)) :
    trigger s (A.MO_CERT_GEN_MIN + 4 * (r - 1)) w m csn tag = cullMoorings s r w.toNat := by
  interval_cases r <;> rfl

/-- Settles O17: each write is a single write whose word does the work that the lemmas above give. -/
theorem systemAndMooringWrites : Obligations.SystemAndMooringWrites := by
  unfold Obligations.SystemAndMooringWrites
  have pwr : A.SY_PWR_CTRL ≠ A.SY_MODE_REQ ∧ A.SY_PWR_CTRL ≠ A.LB_CONTROL := by decide
  refine ⟨fun s m w x => exec_syModeReq_accepted, ?limit, ?shutdown, fun s => exec_shutdownComplete_done, ?ovlMode, ?bootMode,
    ?defaults, ?retrain, ?kill, ?certGen⟩
  case limit =>
    intro s m k x w hk hb h
    exact exec_registerWrite_done h pwr.1 pwr.2 (trigger_limit (bits_insertBits _ 2 0 k (by decide) (by decide) (by omega)) hb _ _ _)
  case shutdown =>
    intro s m x w h0 h
    refine exec_registerWrite_done h pwr.1 pwr.2 (trigger_shutdown ?_ (bit_withBit _ _ (by decide)) _ _ _)
    rw [wordPlaced_pstate]; exact h0
  case ovlMode => exact fun s m w x h => exec_registerWrite_done h (by decide) (by decide) rfl
  case bootMode => exact fun s m w x h => exec_registerWrite_done h (by decide) (by decide) rfl
  case defaults => exact fun s m x h => exec_registerWrite_done h (by decide) (by decide) rfl
  case retrain =>
    intro s m p x h
    have hne : npAddr p A.NP_LINK_CTRL ≠ A.SY_MODE_REQ ∧ npAddr p A.NP_LINK_CTRL ≠ A.LB_CONTROL := by cases p <;> decide
    exact exec_registerWrite_done h hne.1 hne.2 (trigger_retrain (bit_withBit _ _ (by decide)) _ _ _)
  case kill => exact fun s m w x h => exec_registerWrite_done h (by decide) (by decide) rfl
  case certGen =>
    intro s m r w x h1 h4 h
    have hne : A.MO_CERT_GEN_MIN + 4 * (r - 1) ≠ A.SY_MODE_REQ ∧ A.MO_CERT_GEN_MIN + 4 * (r - 1) ≠ A.LB_CONTROL := by
      unfold A.MO_CERT_GEN_MIN A.SY_MODE_REQ A.LB_CONTROL; omega
    have he : exec (.moCertGenMin m r w) s = exec (.registerWrite m (A.MO_CERT_GEN_MIN + 4 * (r - 1)) w) s := if_pos ⟨h1, h4⟩
    exact he.trans (exec_registerWrite_done h hne.1 hne.2 (trigger_certGenMin h1 h4 _ _ _ _ _))

/-! ### Sensors (O39) -/

theorem sampleDue_iff (s : State) (cls num : Nat) : sampleDue s cls num = true ↔
    ∀ t, (sensorOf s cls num).sampledAt = some t → t + sampleInterval cls num ≤ s.sessionUs := by
  unfold sampleDue
  cases (sensorOf s cls num).sampledAt <;> simp

theorem exec_sensorSample_due {s : State} {cls num : Nat} {raw : Int} (hl : live s = true) (hn : num < sensorCount cls)
    (hc : cls < 8) (hs : (sensorOf s cls num).sampling = true)
    (hd : ∀ t, (sensorOf s cls num).sampledAt = some t → t + sampleInterval cls num ≤ s.sessionUs) :
    exec (.sensorSample cls num raw) s = .next (settle (reviewTide (takeSample s cls num raw))) :=
  if_pos (by simp only [hl, hn, hc, hs, (sampleDue_iff s cls num).2 hd, decide_true, Bool.and_self])

/-- A sensor whose interval has not passed is not sampled (R303). -/
theorem exec_sensorSample_early {s : State} {cls num t : Nat} {raw : Int} (ht : (sensorOf s cls num).sampledAt = some t)
    (he : s.sessionUs < t + sampleInterval cls num) : exec (.sensorSample cls num raw) s = .next (settle s) := by
  have hd : sampleDue s cls num = false :=
    Bool.eq_false_iff.2 (fun h => absurd ((sampleDue_iff s cls num).1 h t ht) (by omega))
  exact if_neg (by rw [hd, Bool.and_false]; exact Bool.false_ne_true)

/-- The state in which the sample `c` has joined the two before it. -/
def sampled (s : State) (cls num : Nat) (a b c : Int) : State :=
  updSensor s cls num (fun y => { y with samples := [a, b, c], sampledAt := some s.sessionUs })

/-- The third sample and those after it give a median (R303). -/
theorem takeSample_full {s : State} {cls num : Nat} {x a b : Int} (h : (sensorOf s cls num).samples = [x, a, b]) (c : Int) :
    takeSample s cls num c = if plausible s cls (median3 a b c) then
        updSensor (sampled s cls num a b c) cls num (fun y => { y with
          median := some (median3 a b c)
          lastGood := s.sessionUs
          goodSince := some (goodRun y s.sessionUs) })
      else bump (updSensor (sampled s cls num a b c) cls num (fun y => { y with goodSince := none })) (A.BW_REJ_COUNT + 4 * 3) := by
  unfold takeSample
  rw [h]; rfl

/-- The intervals of the classes (R303). -/
theorem sampleInterval_table {cls : Nat} (num : Nat) (h : cls < 8) : sampleInterval cls num =
    [100, 100, if num < 136 then 1000 else 10000, 1000, 100, 10000, 10000, 100].getD cls 0 := by
  interval_cases cls <;> rfl

theorem median3_spec (a b c : Int) : (median3 a b c = a ∨ median3 a b c = b ∨ median3 a b c = c) ∧
    (a ≤ b → b ≤ c → median3 a b c = b) ∧ median3 a b c = median3 b a c ∧ median3 a b c = median3 a c b := by
  unfold median3; omega

theorem exec_sensorFailed_silent {s : State} {cls num : Nat} (hl : live s = true) (hn : num < sensorCount cls) (hc : cls < 8)
    (hs : (sensorOf s cls num).sampling = true) (hf : (sensorOf s cls num).failed = false)
    (ht : (sensorOf s cls num).lastGood + 50000 < s.sessionUs) :
    exec (.sensorFailed cls num) s = .next (settle (reviewTide (faultAct (raise
      (updSensor s cls num (fun x => { x with failed := true, goodSince := none })) 2 0) 13 (sensorKey cls num) 0))) :=
  if_pos (by simp only [hl, hn, hc, hs, hf, ht, decide_true, Bool.not_false, Bool.and_self])

theorem exec_sensorReadmitted_good {s : State} {cls num t : Nat} (hl : live s = true) (hf : (sensorOf s cls num).failed = true)
    (hg : (sensorOf s cls num).goodSince = some t) (ht : t + 1000000 ≤ s.sessionUs)
    (hr : s.sessionUs ≤ (sensorOf s cls num).lastGood + 50000) (hn : (faultCount s 13 (sensorKey cls num)).lasting = false) :
    exec (.sensorReadmitted cls num) s = .next (settle (reviewTide (raise
      (updSensor s cls num (fun x => { x with failed := false })) 2 1))) := by
  show execSensorReadmitted cls num s = _
  unfold execSensorReadmitted
  dsimp only
  rw [hg]
  exact if_pos (by simp only [hl, hf, ht, hr, hn, decide_true, Bool.not_false, Bool.and_self])

/-- Settles O39: sampling, failing and readmission of a sensor, clause by clause from the lemmas above. -/
theorem sensorCommands : Obligations.SensorCommands := by
  unfold Obligations.SensorCommands
  refine ⟨fun s cls num raw => exec_sensorSample_due, ?median, fun cls num h => sampleInterval_table num h,
    fun s cls num t raw => exec_sensorSample_early, ?run, median3_spec, fun s cls num => exec_sensorFailed_silent,
    fun s cls num t => exec_sensorReadmitted_good⟩
  case median =>
    intro s cls num x a b h c
    rw [takeSample_full h]
    exact ⟨fun hp => if_pos hp, fun hp => if_neg (by rw [hp]; exact Bool.false_ne_true)⟩
  case run =>
    intro x now
    unfold goodRun
    exact ⟨fun h => by rw [h], fun t h => by rw [h]⟩

/-! ### The step-down (O41) -/

theorem exec_stepDown_due {s : State} (hl : live s = true) (ht : s.tide.trigger = true)
    (hd : s.tide.step = 0 ∨ s.tide.steppedAt + 10000 ≤ s.sessionUs) :
    exec .stepDown s = .next (settle (reviewEmergency (stepMove
      { s with tide := { s.tide with steppedAt := s.sessionUs } }))) := by
  refine if_pos ?_
  rw [hl, ht]
  rcases hd with h | h <;> simp [h]

theorem exec_stepUp_due {s : State} (hl : live s = true) (ht : s.tide.trigger = false) (h1 : 1 ≤ s.tide.step)
    (hu : s.tide.undoAt ≤ s.sessionUs) : exec .stepUp s = .next (settle (undoStep s)) :=
  if_pos (by simp only [hl, ht, h1, hu, decide_true, Bool.not_false, Bool.and_self])

@[simp] theorem toStep_step (s : State) (k : Nat) : (toStep s k).tide.step = k := by simp [toStep]

@[simp] theorem lowerCeil_step (s : State) : (lowerCeil s).tide.step = s.tide.step := rfl

@[simp] theorem setRail_step (s : State) (mv : Nat) : (setRail s mv).tide.step = s.tide.step := by
  unfold setRail; split <;> rfl

@[simp] theorem lowerRail_step (s : State) : (lowerRail s).tide.step = s.tide.step := setRail_step _ _

/-- A move of the step-down: to step 1, to step 2 with the ceiling at its lowest, to step 3 with the rail at its lowest (R319). -/
theorem stepMove_step (s : State) :
    (s.tide.step = 0 → (stepMove s).tide.step = 1) ∧
    (s.tide.step = 1 → (stepMove s).tide.step = if s.tide.stepCeil ≤ fieldOf s A.HM_TIDE_CEIL 19 10 then 2 else 1) ∧
    (s.tide.step = 2 → (stepMove s).tide.step = if s.tide.rail ≤ fieldOf s A.HM_RAIL_CTRL 9 0 then 3 else 2) ∧
    (s.tide.step = 3 → stepMove s = s) := by
  unfold stepMove
  refine ⟨fun h => ?_, fun h => ?_, fun h => ?_, fun h => ?_⟩ <;> simp only [h]
  · simp
  · split <;> simp [h]
  · split <;> simp [h]

/-- Above step 1, one step is undone at a time, the next after 100 ms (R319). -/
theorem undoStep_above {s : State} {k : Nat} (h : s.tide.step = k + 2) :
    (undoStep s).tide.step = k + 1 ∧ (undoStep s).tide.undoAt = s.sessionUs + 100000 := by
  have hu : undoStep s = { toStep s (k + 1) with tide := { (toStep s (k + 1)).tide with
      undoAt := (toStep s (k + 1)).sessionUs + 100000 } } := by
    unfold undoStep; rw [h]; rfl
  have ht : (toStep s (k + 1)).sessionUs = s.sessionUs := by simp [toStep]
  rw [hu, ← ht]
  exact ⟨toStep_step s (k + 1), rfl⟩

/-! ### Emergencies (R77, R320) -/

theorem declare_eq (s : State) (b : Bool) : declare s b = withdrawDocks (raise (bumpHalf (logEmergency { s with tide := { s.tide with
      emThermal := s.tide.emThermal || b
      emSupply := s.tide.emSupply || !b
      emSince := if emergency s then s.tide.emSince else s.sessionUs
      emClearedAt := none } } (if b then 1 else 2) (if b then ((List.range 19).find? (regionEmerg s)).getD 255 else 255) true)
      A.HM_COUNTS 16) 1 1) := rfl

theorem withdrawDocks_eq (s : State) : withdrawDocks s =
    ((s.careen.docks.filter (fun p => decide (2 ≤ p.2.phase ∧ p.2.phase ≤ 4))).map Prod.fst).foldl
      (fun v d => abortCareen v d .withdrawn) s := by
  unfold withdrawDocks inTrain
  simp only [Bool.decide_and]

theorem clearEmergency_tide {s : State} (h : emergency s = true) : (clearEmergency s).tide = { s.tide with
    emThermal := false, emSupply := false, emPersisted := false, emClearedAt := some s.sessionUs } := by
  unfold clearEmergency
  rw [if_pos h]
  dsimp only
  rw [raise_tide, logEmergency, logRecord_tide]

theorem exec_emergencyPersist_due {s : State} (hl : live s = true) (he : emergency s = true) (hp : s.tide.emPersisted = false)
    (ht : s.tide.emSince + 1000 * fieldOf s A.HM_EMERG 15 0 ≤ s.sessionUs) :
    exec .emergencyPersist s = .next (settle (autoMode { s with tide := { s.tide with emPersisted := true } } 1
      (if s.tide.emThermal then 5 else 6) [0, 4])) :=
  if_pos (by simp only [hl, he, hp, ht, decide_true, Bool.not_false, Bool.and_self])

theorem exec_lowTideReturn_due {s : State} {m t : Nat} (hl : live s = true) (ha : s.mode.autoLow = some m)
    (hc : s.tide.emClearedAt = some t) (he : emergency s = false) (hm : s.mode.cur = 1) (ht : t + 60000000 ≤ s.sessionUs) :
    exec .lowTideReturn s = .next (settle (enterMode s (if m = 4 ∧ s.mode.rebuild = true then 4 else 0) 7 s.seqr.next)) := by
  show execLowTideReturn s = _
  unfold execLowTideReturn
  rw [ha, hc]
  exact if_pos (by simp only [hl, he, hm, ht, decide_true, Bool.not_false, Bool.and_self, beq_self_eq_true])

/-! ### The thermal trip (R321) -/

/-- The trip's record and event change the logbook, counters and the tide. -/
theorem logTrip_frame (s : State) (r : Nat) : ∃ lg x t, logTrip s r = { s with log := lg, regs := x, tide := t } := by
  unfold logTrip
  dsimp only
  obtain ⟨lg, x, h⟩ := logRecord_frame s 0x0051 (src 1 0) true
    (leBytes r 1 ++ leBytes (twos ((regionHottest s r).getD 0) 16) 2) false
  rw [h]
  exact ⟨_, _, _, rfl⟩

theorem exec_thermalTrip_due {s : State} {r t : Nat} (hl : live s = true) (hh : tabGet s.tide.hotSince r = some t)
    (hr : r ∉ s.tide.hotTripped) (ht : t + 5000000 ≤ s.sessionUs) :
    exec (.thermalTrip r) s = if s.phase = 2 then concludeSeq (beginShutdown (logTrip s r) s.seqr.next)
      else if s.boot.stage = .stageTwo ∨ s.boot.stage = .mounting then conclude (tripBoot (logTrip s r))
      else conclude (logTrip s r) := by
  have hc : (live s && !s.tide.hotTripped.contains r && decide (t + 5000000 ≤ s.sessionUs)) = true := by simp [hl, hr, ht]
  show execThermalTrip r s = _
  unfold execThermalTrip
  rw [hh]
  dsimp only
  rw [if_pos hc]
  obtain ⟨_, _, _, h⟩ := logTrip_frame s r
  rw [h]

/-- Settles O41: the step-down, the emergencies and the trip, clause by clause from the lemmas above. -/
theorem stepsAndEmergencies : Obligations.StepsAndEmergencies := by
  unfold Obligations.StepsAndEmergencies
  refine ⟨fun s => exec_stepDown_due, fun s => exec_stepUp_due, ?moves, declare_eq, withdrawDocks_eq, ?clear,
    fun s => exec_emergencyPersist_due, fun s m t => exec_lowTideReturn_due, ?trip⟩
  case moves =>
    intro s
    obtain ⟨h0, h1, h2, h3⟩ := stepMove_step s
    exact ⟨h0, h1, h2, h3, fun k => undoStep_above⟩
  case clear =>
    intro s h
    have ht := clearEmergency_tide h
    refine ⟨?_, by rw [ht], by rw [ht]⟩
    unfold emergency; rw [ht]; rfl
  case trip =>
    intro s r t hl hh hr ht
    rw [exec_thermalTrip_due hl hh hr ht]
    exact ⟨fun hp => if_pos hp, fun hp hb => (if_neg hp).trans (if_pos hb)⟩

/-! ### A frame comes in (O53) -/

theorem arrive_frame (s : State) (r : Rx) : OnlyRegs s (arrive s r) := by
  have h := (bumpBy_frame s (npAddr r.port A.NP_FEC_CORR) r.fecCorr).trans
    (bumpBy_frame _ (npAddr r.port A.NP_FEC_UNCORR) r.fecUncorr)
  unfold arrive
  dsimp only
  split
  · exact h.trans (bump_frame _ _)
  · exact h

/-- A frame that comes in counts in its port's FEC and CE registers alone (R105, R117). -/
theorem regGet_arrive {r : Rx} {k : Nat} (h : k ∉ [npAddr r.port A.NP_FEC_CORR, npAddr r.port A.NP_FEC_UNCORR, npAddr r.port A.NP_CE_RX])
    (s : State) : regGet (arrive s r) k = regGet s k := by
  simp only [List.mem_cons, List.not_mem_nil, or_false, not_or] at h
  obtain ⟨hc, hu, he⟩ := h
  have hb : regGet (bumpBy (bumpBy s (npAddr r.port A.NP_FEC_CORR) r.fecCorr) (npAddr r.port A.NP_FEC_UNCORR) r.fecUncorr) k =
      regGet s k := by rw [regGet_bumpBy_ne _ _ _ _ (Ne.symm hu), regGet_bumpBy_ne _ _ _ _ (Ne.symm hc)]
  unfold arrive
  dsimp only
  split
  · rw [regGet_bump_ne _ _ _ (Ne.symm he), hb]
  · exact hb

theorem countAccepted_frame (s : State) (p : Port) : OnlyRegs s (countAccepted s p) := bump_frame s _

theorem OnlyRegs.linkOf {s t : State} (h : OnlyRegs s t) (p : Port) : linkOf t p = linkOf s p := by
  obtain ⟨_, rfl⟩ := h; rfl

theorem OnlyRegs.linkUp {s t : State} (h : OnlyRegs s t) (p : Port) : linkUp t p = linkUp s p := by
  obtain ⟨_, rfl⟩ := h; rfl

/-- Check 1 of R93 fails. -/
def badFrame (r : Rx) : Bool := !r.fcsOk || decide (9216 < r.size)

theorem badFrame_iff (r : Rx) : badFrame r = true ↔ r.fcsOk = false ∨ 9216 < r.size := by
  unfold badFrame; simp

theorem badFrame_eq_false {r : Rx} (hf : r.fcsOk = true) (hs : r.size ≤ 9216) : badFrame r = false := by
  unfold badFrame; simp [hf, hs]

/-! ### Address resolution (R86) -/

theorem exec_arpRequest_bad {s : State} {r : Rx} (a : Nat) (h : r.fcsOk = false ∨ 9216 < r.size) :
    exec (.arpRequest r a) s = .next (settle (discard (arrive s r) r.port 0)) :=
  if_pos ((badFrame_iff r).2 h)

theorem exec_arpRequest_held {s : State} {r : Rx} {a : Nat} (hf : r.fcsOk = true) (hs : r.size ≤ 9216)
    (hv : vlanOk (arrive s r) r = true) (he : r.ether = .arp) (h0 : a ≠ 0) (ha : a = ipv4Of (arrive s r) r.port)
    (hb : bit (regGet (arrive s r) (npAddr r.port A.NP_IP_CTRL)) 1 = true) :
    let u := arrive s r
    exec (.arpRequest r a) s = .next (settle (emitOn (countAccepted u r.port) r.port
      { replyTo u r false 0 0 (arpReplyBytes (portMac u r.port) a r.ethSrc r.ipSrc) with proto := 0, ipSrc := a }
      (.arpReply r.port r.ethSrc r.ipSrc))) := by
  intro u
  have h1 : ¬ badFrame r = true := by rw [badFrame_eq_false hf hs]; exact Bool.false_ne_true
  have h2 : ¬ (!vlanOk u r) = true := by simp [u, hv]
  have h3 : ¬ r.ether = .other := by rw [he]; exact EtherType.noConfusion
  subst ha
  exact (if_neg h1).trans ((if_neg h2).trans ((if_neg h3).trans (if_pos ⟨he, h0, rfl, hb⟩)))

theorem exec_neighbourSolicitation_held {s : State} {r : Rx} {a : Nat} (hf : r.fcsOk = true) (hs : r.size ≤ 9216)
    (hv : vlanOk (arrive s r) r = true) (he : r.ether = .ipv6) (hi : r.ipHeaderOk = true) (hg : r.fragment = false)
    (ho : ownsIpv6 (arrive s r) r.port a = true) (hb : bit (regGet (arrive s r) (npAddr r.port A.NP_IP_CTRL)) 0 = true) :
    let u := arrive s r
    exec (.neighbourSolicitation r a) s = .next (settle (emitOn (countAccepted u r.port) r.port
      { replyTo u r false 0 0 (neighbourBytes (portMac u r.port) a) with proto := 58, ipSrc := a }
      (.neighbourAdvert r.port r.ethSrc r.ipSrc))) := by
  intro u
  have h1 : ¬ badFrame r = true := by rw [badFrame_eq_false hf hs]; exact Bool.false_ne_true
  have h2 : ¬ (!vlanOk u r) = true := by simp [u, hv]
  have h3 : ¬ r.ether = .other := by rw [he]; exact EtherType.noConfusion
  have h4 : ¬ (!r.ipHeaderOk || r.fragment || !bit (regGet u (npAddr r.port A.NP_IP_CTRL)) 0) = true := by simp [u, hi, hg, hb]
  exact (if_neg h1).trans ((if_neg h2).trans ((if_neg h3).trans ((if_neg h4).trans (if_pos ⟨he, ho⟩))))

/-! ### Echo (R86) -/

/-- The echo requests of this second of session time that a port has answered. -/
def echoesAnswered (s : State) (p : Port) : Nat :=
  if (linkOf s p).echoSecond = s.sessionUs / 1000000 then (linkOf s p).echoCount else 0

theorem exec_echoRequest_bad {s : State} {r : Rx} {msg : List Byte} {k : Nat}
    (h : ipCheck (arrive s r) r (if r.ether = .ipv6 then [58] else [1]) = some k) :
    exec (.echoRequest ⟨r, msg⟩) s = .next (settle (discard (arrive s r) r.port k)) := by
  show execEchoRequest ⟨r, msg⟩ s = _
  unfold execEchoRequest
  dsimp only
  rw [h]; rfl

/-- An echo request that passes its checks is answered where the port has not yet answered 100 in this second. -/
theorem exec_echoRequest_good {s : State} {r : Rx} {msg : List Byte}
    (h : ipCheck (arrive s r) r (if r.ether = .ipv6 then [58] else [1]) = none) :
    let u := countAccepted (arrive s r) r.port
    exec (.echoRequest ⟨r, msg⟩) s = .next (settle (
      if 100 ≤ echoesAnswered s r.port ∨ ¬linkUp s r.port = true then u
      else
        let v := setLink u r.port { linkOf s r.port with
          echoSecond := s.sessionUs / 1000000, echoCount := echoesAnswered s r.port + 1 }
        emitOn v r.port { replyTo v r false 0 0 (echoBytes (r.ether == .ipv6) msg) with
          proto := if (r.ether == .ipv6) = true then 58 else 1 } (.echoReply r.port r.ethSrc r.ipSrc))) := by
  intro u
  have hu : OnlyRegs s u := (arrive_frame s r).trans (countAccepted_frame _ _)
  have he : echoesAnswered u r.port = echoesAnswered s r.port := by
    unfold echoesAnswered; rw [hu.linkOf, hu.sessionUs]
  rw [← he, ← hu.linkOf, ← hu.linkUp, ← hu.sessionUs]
  show execEchoRequest ⟨r, msg⟩ s = _
  unfold execEchoRequest
  dsimp only
  rw [h]
  by_cases hc : 100 ≤ echoesAnswered u r.port ∨ ¬linkUp u r.port = true
  · exact (if_pos hc).trans (congrArg (fun t => Host.Outcome.next (settle t)) (if_pos hc).symm)
  · exact (if_neg hc).trans (congrArg (fun t => Host.Outcome.next (settle t)) (if_neg hc).symm)

/-! ### What is sent, and the frame gap (R66, R85, R102) -/

theorem emitOn_up {s : State} {p : Port} (h : linkUp s p = true) (e : Envelope) (o : Output) :
    emitOn s p e o = bump { s with out := s.out ++ [.sent e (wireBytes e) o] } (npAddr p A.NP_TX_FRAMES) := if_pos h

theorem emitOn_down {s : State} {p : Port} (h : linkUp s p = false) (e : Envelope) (o : Output) : emitOn s p e o = s :=
  if_neg (by rw [h]; exact Bool.false_ne_true)

theorem exec_capsuleFrameGapTimeout_late {s : State} {n : Nat} {b : Berth} {a : Partial} (hb : berthOf s n = some b)
    (ha : b.asm = some a) (ht : a.lastFrameAt + 1000 * fieldOf s A.BW_CAPSULE_TMO 15 0 ≤ s.sessionUs) :
    exec (.capsuleFrameGapTimeout n) s = .next (settle (updBerth (endPartial s n b) n (fun b => { b with rx := .dropping }))) := by
  show execCapsuleFrameGapTimeout n s = _
  unfold execCapsuleFrameGapTimeout
  simp only [hb, ha]
  exact if_pos ht

/-- Settles O53: address resolution, echo and the frame gap, clause by clause from the lemmas above. -/
theorem answersAndFrameGap : Obligations.AnswersAndFrameGap := by
  unfold Obligations.AnswersAndFrameGap
  refine ⟨fun s r a => exec_arpRequest_held, fun s r a h => exec_arpRequest_bad a h, fun s r a => exec_neighbourSolicitation_held,
    ?echo, fun s r => ⟨arrive_frame s r, fun k hk => regGet_arrive hk s⟩, fun _ _ _ _ _ _ => ⟨rfl, rfl, rfl, rfl, rfl⟩,
    fun s p e o => ⟨fun h => emitOn_up h e o, fun h => emitOn_down h e o⟩, fun s n b a => exec_capsuleFrameGapTimeout_late⟩
  case echo =>
    intro s r msg
    refine ⟨fun k => exec_echoRequest_bad, fun h => ⟨fun hn hl => ?_, fun hn => ?_⟩⟩
    · have hc : ¬ (100 ≤ echoesAnswered s r.port ∨ ¬linkUp s r.port = true) := by
        rintro (h | h)
        · exact absurd h (Nat.not_le.2 hn)
        · exact h hl
      rw [exec_echoRequest_good h]
      exact congrArg (fun t => Host.Outcome.next (settle t)) (if_neg hc)
    · have hc : 100 ≤ echoesAnswered s r.port ∨ ¬linkUp s r.port = true :=
        hn.imp id (fun hl => by rw [hl]; exact Bool.false_ne_true)
      rw [exec_echoRequest_good h]
      exact congrArg (fun t => Host.Outcome.next (settle t)) (if_pos hc)

end Sys2Proof.Machine
end

section
/-! PROOFS. The wire protocol: the statements of the family of chapter 03, each with the lemmas about the model's functions
that it rests on. -/

namespace Sys2Proof.Machine

/-! ### The timers of a line (R101, R103 to R106) -/

section
variable {s : State} {l : Line} {t : Transport} (ht : tpOf s l = some t)
include ht

theorem exec_ackDelayExpiry_due (hl : lineUp s l = true) (hp : 0 < t.ackPending) (hd : t.ackSince + 20 ≤ s.sessionUs) :
    exec (.ackDelayExpiry l) s = .next (settle (sendAck s l)) := by
  show execAckDelayExpiry l s = _
  simp only [execAckDelayExpiry, ht]
  exact if_pos ⟨hl, hp, hd⟩

theorem exec_idleAck_due (hl : lineUp s l = true) (hd : t.lastTx + 2500000 ≤ s.sessionUs) :
    exec (.idleAck l) s = .next (settle (sendAck s l)) := by
  show execIdleAck l s = _
  simp only [execIdleAck, ht]
  exact if_pos ⟨hl, hd⟩

/-- A frame that is due goes out again, or at its 12th expiry ends the line (R104, R105). -/
theorem exec_retransmissionTimeout_due {q : Nat} {f : TxFrame}
    (hf : t.unacked.find? (fun f => f.seq == q && !f.sacked && decide (f.sentAt + t.rtoUs ≤ s.sessionUs)) = some f) :
    exec (.retransmissionTimeout l q) s = if 11 ≤ f.expiries then .next (decided (teardownLine s l 2))
      else .next (settle (resend (updTp s l (fun u => { u with
        rtoUs := min 100000 (2 * t.rtoUs)
        cwnd := 2
        cwndAcked := 0
        unacked := u.unacked.map (fun g => if g.seq = q then { g with expiries := g.expiries + 1 } else g) })) l q)) := by
  show execRetransmissionTimeout l q s = _
  simp only [execRetransmissionTimeout, ht, hf]
  rfl

theorem exec_idleTimeout_due (hd : t.lastRx + 1000000 * fieldOf s A.MO_IDLE_TMO 15 0 ≤ s.sessionUs) :
    exec (.idleTimeout l) s = .next (decided (teardownLine s l 1)) := by
  show execIdleTimeout l s = _
  simp only [execIdleTimeout, ht]
  exact if_pos hd

theorem exec_oldEpochRelease_due {since first : Nat} (ho : t.oldEpoch = some (since, first))
    (hd : since + 100000 ≤ s.sessionUs ∨ seqLt t.recvAck first = false) :
    exec (.oldEpochRelease l) s = .next (settle (updTp (updSlot s (recvSlotOf s l) (fun x => { x with shadows := [] })) l
      (fun t => { t with oldEpoch := none }))) := by
  show execOldEpochRelease l s = _
  simp only [execOldEpochRelease, ht, ho]
  exact if_pos (hd.imp id (fun h => by simp [h]))

theorem exec_rekeyRefusalTimeout_due {since : Nat} (hr : t.rekeyRefusedSince = some since) (hd : since + 100000 ≤ s.sessionUs) :
    exec (.rekeyRefusalTimeout l) s = .next (decided (teardownLine s l 8)) := by
  show execRekeyRefusalTimeout l s = _
  simp only [execRekeyRefusalTimeout, ht, hr]
  exact if_pos hd

theorem exec_driveRekey_taken {u : State} (hk : 2 ^ 30 ≤ t.framesUnderKey) (hu : rekeySend s l (sendSlotOf s l) = some u) :
    exec (.driveRekey l) s = .next (settle u) := by
  show execDriveRekey l s = _
  simp only [execDriveRekey, ht, hu]
  exact if_neg (Nat.not_lt.2 hk)

/-- While the slot refuses, the drive tries again until the refusal has lasted 100 ms from its first try (R101). -/
theorem exec_driveRekey_refused (hk : 2 ^ 30 ≤ t.framesUnderKey) (hu : rekeySend s l (sendSlotOf s l) = none) :
    exec (.driveRekey l) s =
      if t.sendRefusedSince.getD s.sessionUs + 100000 ≤ s.sessionUs then .next (decided (teardownLine s l 8))
      else .next (settle (updTp s l (fun u => { u with sendRefusedSince := some (t.sendRefusedSince.getD s.sessionUs) }))) := by
  show execDriveRekey l s = _
  simp only [execDriveRekey, ht, hu]
  exact if_neg (Nat.not_lt.2 hk)

end

theorem exec_teardownComplete_drained {s : State} {id : Nat} {m : Mooring} (hm : mooringOf s id = some m)
    (ht : m.st = .tearingDown) (hd : mooringDrained s m = true) :
    exec (.teardownComplete id) s = .next (settle (freeMooring (mooringLost s id m) id m)) := by
  show execTeardownComplete id s = _
  simp only [execTeardownComplete, hm]
  exact if_pos ⟨ht, hd⟩

/-! ### A new epoch of a slot (R341) -/

theorem newEpoch_full {s : State} {k : Nat} {x : Slot} (hx : slotOf s k = some x) (hs : 4 ≤ x.shadows.length)
    (key : KeyMaterial) (n : Nat) : newEpoch s k key n = none := by
  simp only [newEpoch, hx]
  exact if_pos hs

theorem slotOf_updSlot_same (s : State) (k : Nat) (f : Slot → Slot) : slotOf (updSlot s k f) k = (slotOf s k).map f := by
  simp [slotOf, updSlot]

theorem newEpoch_room {s : State} {k : Nat} {x : Slot} (hx : slotOf s k = some x) (hs : x.shadows.length < 4)
    (key : KeyMaterial) (n : Nat) : ∃ t, newEpoch s k key n = some t ∧ slotOf t k = some { x with
      key := key, epoch := (x.epoch + 1) % 65536, ctr := 0, chunk := 0, shadows := x.shadows ++ [⟨x.epoch, n, x.key⟩] } := by
  simp only [newEpoch, hx]
  exact ⟨_, if_neg (Nat.not_le.2 hs), by rw [slotOf_updSlot_same, hx]; rfl⟩

/-- Settles O56: the timers of a line, clause by clause from the lemmas above. -/
theorem lineTimers : Obligations.LineTimers := by
  unfold Obligations.LineTimers
  refine ⟨fun s l t ht hl => ⟨exec_ackDelayExpiry_due ht hl, exec_idleAck_due ht hl⟩, ?resent, fun s l t ht =>
    ⟨exec_idleTimeout_due ht, fun _ _ => exec_oldEpochRelease_due ht, fun _ => exec_rekeyRefusalTimeout_due ht,
      fun _ => exec_driveRekey_taken ht, ?refused⟩, fun _ _ _ => exec_teardownComplete_drained,
    fun s k x key n hx => ⟨fun h => newEpoch_full hx h key n, fun h => newEpoch_room hx h key n⟩⟩
  case resent =>
    intro s l t q f ht hf
    rw [exec_retransmissionTimeout_due ht hf, ht]
    exact ⟨fun h => if_neg (Nat.not_le.2 h), fun h => if_pos h⟩
  case refused =>
    intro hk hu
    rw [exec_driveRekey_refused ht hk hu]
    refine ⟨fun since hs h => ?_, fun since hs h => ?_, fun hs => ?_⟩ <;> rw [hs]
    · exact if_pos h
    · exact if_neg (Nat.not_le.2 h)
    · exact if_neg (by simp)

/-! ### The bring-up of a link (R81, R82) -/

theorem exec_linkDetect_usable {s : State} {p : Port} (h : (linkOf s p).phase = .detect) (hu : portUsable s p = true) :
    exec (.linkDetect p) s = .next (settle (setLink s p { linkOf s p with phase := .autoneg })) := if_pos ⟨h, hu⟩

theorem mem_advertised {s : State} {p : Port} {k : Nat} : k ∈ advertised s p ↔
    k ∈ [4, 2, 1] ∧ modeUsable s p k = true ∧ k ∉ (linkOf s p).dropped := by
  simp [advertised]

/-- With no mode that both ends advertise, bring-up begins again. -/
theorem exec_autonegotiation_none {s : State} {p : Port} {peer : List Nat} (h : (linkOf s p).phase = .autoneg)
    (hn : ∀ k ∈ [4, 2, 1], k ∈ peer → modeUsable s p k = true → k ∈ (linkOf s p).dropped) :
    exec (.autonegotiation p peer) s = .next (settle (setLink s p { linkOf s p with phase := .detect })) := by
  have hf : (advertised s p).find? (fun k => peer.contains k) = none := by
    rw [List.find?_eq_none]
    intro k hk hp
    obtain ⟨hm, hu, hd⟩ := mem_advertised.1 hk
    exact hd (hn k hm (List.contains_iff_mem.1 hp) hu)
  show execAutonegotiation p peer s = _
  unfold execAutonegotiation
  simp only [hf]
  exact if_neg (not_not.2 h)

theorem advertised_sorted (s : State) (p : Port) : (advertised s p).Pairwise (· > ·) :=
  List.Pairwise.filter _ (by decide)

/-- In a falling list, the first member that passes is the one above which none passes. -/
theorem find?_of_sorted {l : List Nat} {f : Nat → Bool} {k : Nat} (hs : l.Pairwise (· > ·)) (hk : k ∈ l) (hf : f k = true)
    (hn : ∀ j ∈ l, k < j → f j = false) : l.find? f = some k := by
  induction l with
  | nil => cases hk
  | cons a l ih =>
    obtain ⟨ha, hl⟩ := List.pairwise_cons.1 hs
    rcases List.mem_cons.1 hk with rfl | hk
    · exact List.find?_cons_of_pos hf
    · rw [List.find?_cons_of_neg (by simp [hn a (List.mem_cons_self ..) (ha k hk)])]
      exact ih hl hk (fun j hj => hn j (List.mem_cons_of_mem _ hj))

/-- The highest mode that both ends advertise is trained. -/
theorem exec_autonegotiation_highest {s : State} {p : Port} {peer : List Nat} {k : Nat} (h : (linkOf s p).phase = .autoneg)
    (hk : k ∈ [4, 2, 1]) (hp : k ∈ peer) (hu : modeUsable s p k = true) (hd : k ∉ (linkOf s p).dropped)
    (hn : ∀ j ∈ [4, 2, 1], k < j → j ∈ peer → modeUsable s p j = true → j ∈ (linkOf s p).dropped) :
    exec (.autonegotiation p peer) s =
      .next (settle (setLink s p { linkOf s p with phase := .training, tryLanes := k, trainFails := 0 })) := by
  have hf : (advertised s p).find? (fun k => peer.contains k) = some k := by
    refine find?_of_sorted (advertised_sorted s p) (mem_advertised.2 ⟨hk, hu, hd⟩) (List.contains_iff_mem.2 hp) fun j hj hlt => ?_
    obtain ⟨hm, hju, hjd⟩ := mem_advertised.1 hj
    exact Bool.eq_false_iff.2 fun hc => hjd (hn j hm hlt (List.contains_iff_mem.1 hc) hju)
  show execAutonegotiation p peer s = _
  unfold execAutonegotiation
  simp only [hf]
  exact if_neg (not_not.2 h)

/-- Training that fails a third time gives its mode up. -/
theorem exec_training_failed {s : State} {p : Port} (h : (linkOf s p).phase = .training) : exec (.training p false) s =
    if 2 ≤ (linkOf s p).trainFails then .next (settle (setLink s p { linkOf s p with
      phase := .autoneg, trainFails := 0, dropped := (linkOf s p).tryLanes :: (linkOf s p).dropped }))
    else .next (settle (setLink s p { linkOf s p with trainFails := (linkOf s p).trainFails + 1 })) :=
  if_neg (not_not.2 h)

theorem exec_training_ok {s : State} {p : Port} (h : (linkOf s p).phase = .training) :
    exec (.training p true) s = .next (settle (setLink s p { linkOf s p with phase := .fecLock })) :=
  if_neg (not_not.2 h)

theorem exec_fecLock_none {s : State} {p : Port} (h : (linkOf s p).phase = .fecLock) :
    exec (.fecLock p false) s = .next (settle (setLink s p { linkOf s p with phase := .detect })) :=
  if_neg (not_not.2 h)

theorem exec_fecLock_locked {s : State} {p : Port} (h : (linkOf s p).phase = .fecLock) :
    let n := (linkOf s p).tryLanes
    let u := raise (setLink s p { linkOf s p with
      phase := .up, lanes := n, firstLane := (laneSet (linkOf s p) n).getD 0, lastLanes := n }) (portPage p) 0
    exec (.fecLock p true) s = .next (settle (if (linkOf s p).lastLanes = n then u else raise u (portPage p) 3)) :=
  if_neg (not_not.2 h)

theorem exec_linkLost_down {s : State} {p : Port} (k : Option Nat) (h : (linkOf s p).phase ≠ .up) :
    exec (.linkLost p k) s = .next (settle s) := if_pos h

theorem exec_linkLost_link {s : State} {p : Port} (h : (linkOf s p).phase = .up) :
    exec (.linkLost p none) s = .next (settle (linkDown s p)) := if_neg (not_not.2 h)

/-- A lost lane is counted as a fault, and a lasting one is avoided from then on (row 3 of R382). -/
theorem exec_linkLost_lane {s : State} {p : Port} (k : Nat) (h : (linkOf s p).phase = .up) :
    let r := faultOccur s 3 (4 * portNum p + k) 0
    exec (.linkLost p (some k)) s = .next (settle (linkDown (if r.2 = true then raise (setLink r.1 p
      { linkOf r.1 p with laneFailed := k :: (linkOf r.1 p).laneFailed }) (portPage p) 2 else r.1) p)) :=
  if_neg (not_not.2 h)

/-- Settles O52: the bring-up of a link step by step, and its loss. -/
theorem linkBringUp : Obligations.LinkBringUp := by
  unfold Obligations.LinkBringUp
  refine ⟨fun s p => exec_linkDetect_usable, fun s p h => ⟨fun peer => exec_autonegotiation_none h,
      fun peer k => exec_autonegotiation_highest h⟩, fun s p h => ⟨exec_training_ok h, ?again, ?givenUp⟩,
    fun s p h => ⟨exec_fecLock_none h, exec_fecLock_locked h⟩, fun s p h => ⟨exec_linkLost_link h, fun k => ?lane⟩,
    fun s p k => exec_linkLost_down k⟩
  case again => exact fun hf => (exec_training_failed h).trans (if_neg (Nat.not_le.2 hf))
  case givenUp => exact fun hf => (exec_training_failed h).trans (if_pos hf)
  case lane =>
    intro r
    constructor <;> intro hr <;> rw [exec_linkLost_lane k h]
    · rw [if_neg (by rw [hr]; exact Bool.false_ne_true)]
    · rw [if_pos hr]

/-! ### Frames of a line (R90, R93, R101 to R103, R108) -/

theorem discard_frame (s : State) (p : Port) (k : Nat) : OnlyRegs s (discard s p k) := (bump_frame _ _).trans (bump_frame _ _)

/-- A frame that a check refuses is discarded, and counted by the check's class. -/
theorem receive_failed {s : State} {f : Frame} {typ k : Nat} (q : Bool)
    (h : frameCheck (arrive s f.rx) f.rx f.head typ f.payload.length = some k) :
    receive s typ q f = (discard (arrive s f.rx) f.rx.port k, none) := by
  simp only [receive, h]

theorem frameCheck_otherType {s : State} {r : Rx} {h : Head} {typ : Nat} (n : Nat) (hi : ipCheck s r [17] = none)
    (hu : udpOk r (servedPort s r) = true) (ht : h.typ ≠ typ) : frameCheck s r h typ n = some 5 := by
  simp [frameCheck, headOk, hi, hu, ht]

theorem receive_unserved {s : State} {f : Frame} {typ : Nat} (q : Bool)
    (h : frameCheck (arrive s f.rx) f.rx f.head typ f.payload.length = none) (hl : lineServes (arrive s f.rx) f = false) :
    receive s typ q f = (unserved (arrive s f.rx) f, none) := by
  simp [receive, h, hl]

/-- Checks 8 and 9 on a frame of a line that serves it (R93, R101, R102). -/
theorem receive_served {s : State} {f : Frame} {t : Transport} {typ : Nat} (q : Bool)
    (h : frameCheck (arrive s f.rx) f.rx f.head typ f.payload.length = none) (hl : lineServes (arrive s f.rx) f = true)
    (ht : tpOf (arrive s f.rx) (lineOf s f) = some t) :
    let u := arrive s f.rx
    let l := lineOf s f
    receive s typ q f =
      if q ∧ received t f.head.seq then (sendAck (discard u f.rx.port 7) l, none)
      else if q ∧ ¬inWindow t f.head.seq then (discard u f.rx.port 7, none)
      else if !tagPasses t f then (tagFailure u f.rx.port, none)
      else (takePhase u l f).elim
        (updTp (discard u f.rx.port 8) l (fun x => { x with
          rekeyRefusedSince := some (t.rekeyRefusedSince.getD u.sessionUs) }), none)
        (fun v => (acceptFrame v l f, some l)) := by
  simp only [receive, h, hl, ht]
  cases takePhase (arrive s f.rx) (lineOf s f) f <;> rfl

theorem takePhase_same {s : State} {f : Frame} (l : Line) (h : f.tag ≠ .next) : takePhase s l f = some s := if_pos h

/-- A tag passes under the key of the frame's phase only (R101). -/
theorem tagPasses_iff (t : Transport) (f : Frame) : tagPasses t f = true ↔
    (f.tag = .current ∧ f.head.flags.getLsbD 15 = t.recvPhase) ∨
    (f.tag = .next ∧ f.head.flags.getLsbD 15 ≠ t.recvPhase) ∨
    (f.tag = .previous ∧ f.head.flags.getLsbD 15 ≠ t.recvPhase ∧ t.oldEpoch ≠ none) := by
  unfold tagPasses
  cases f.tag <;> simp [Option.isSome_iff_ne_none]

theorem udpOk_iff (r : Rx) (port : Nat) : udpOk r port = true ↔ r.srcUdpPort = port ∧ r.dstUdpPort = port ∧
    r.udpLengthOk = true ∧ (r.udpSum = .good ∨ r.udpSum = .zero ∧ r.ether = .ipv4) := by
  unfold udpOk
  cases r.udpSum <;> simp [and_assoc]

/-- Acknowledgement, path moves and retransmission act on transports and completion rings alone (R108). -/
theorem transport_frame {s u : State} {l : Line} {f : Frame} {ack window seq : Nat} {sack : BitVec 32} {ece cwr : Bool}
    (h : u ∈ [processAck s l ack sack window ece cwr, movePath s l f, resend s l seq, sendAck s l]) : OnlyCompleted s u := by
  simp only [List.mem_cons, List.not_mem_nil, or_false] at h
  obtain rfl | rfl | rfl | rfl := h
  · exact processAck_frame _ _ _ _ _ _ _
  · exact (movePath_frame _ _ _).completed
  · exact (resend_frame _ _ _).completed
  · exact (sendAck_frame _ _).completed

/-! ### A line that is closed (R113, R439) -/

theorem exec_closed_mooring {s : State} {id : Nat} {m : Mooring} (hm : mooringOf s id = some m) (hc : closable s m = true) :
    exec (.closed (.mooring id)) s = .next (decided (
      let u := logRecord (sendTagged s (.mooring id) 0x13 0 m.tp.sendSeq false false []) 0x0030 (src 12 0) false
        (leBytes id 2 ++ leBytes m.role 1 ++ [0] ++ leBytes m.subject 8)
      freeMooring (releaseOwned u id) id m)) := by
  show execClosed (.mooring id) s = _
  simp only [execClosed, hm]
  exact if_pos hc

theorem exec_closed_towline {s : State} {t : Nat} {x : Towline} (hx : tabGet s.harbour.towlines t = some x)
    (hc : towlineClosable s t x = true) : exec (.closed (.towline t)) s = .next (settle (freeTowline
      (sendTagged s (.towline t) 0x13 0 x.tp.sendSeq false false []) t x)) := by
  show execClosed (.towline t) s = _
  simp only [execClosed, hx]
  exact if_pos hc

/-! ### The commands of tagged frames (R102, R103, R113) -/

theorem exec_data (f : Frame) (s : State) : exec (.data f) s = .next (decided (match receive s 0x10 true f with
    | (u, none) => u
    | (u, some l) => acceptSequenced u l f false (deliverOn l))) := by
  show execData f s = _
  unfold execData
  rcases receive s 0x10 true f with ⟨u, _ | l⟩ <;> rfl

theorem exec_close (f : Frame) (s : State) : exec (.close f) s = .next (decided (match receive s 0x12 true f with
    | (u, none) => u
    | (u, some l) => acceptSequenced u l f true (deliverOn l))) := by
  show execClose f s = _
  unfold execClose
  rcases receive s 0x12 true f with ⟨u, _ | l⟩ <;> rfl

theorem exec_ack (f : Frame) (s : State) : exec (.ack f) s = .next (decided (match receive s 0x11 false f with
    | (u, none) => u
    | (u, some l) => if f.head.flags.getLsbD 10 = true then sendAck u l else u)) := by
  show execAck f s = _
  unfold execAck
  rcases receive s 0x11 false f with ⟨u, _ | l⟩ <;> rfl

/-- Settles O54: the commands of tagged frames, their checks, and the closing of a line. -/
theorem framesAreChecked : Obligations.FramesAreChecked := by
  unfold Obligations.FramesAreChecked
  refine ⟨?commands, fun s q typ f k => receive_failed q, fun s r h typ n => frameCheck_otherType n,
    fun s q typ f => receive_unserved q, ?served, tagPasses_iff, ?frames, udpOk_iff,
    fun _ _ _ => exec_closed_mooring, fun _ _ _ => exec_closed_towline⟩
  case commands =>
    intro s f
    exact ⟨fun u h => by rw [exec_data, h], fun u h => by rw [exec_close, h], fun u h => by rw [exec_ack, h],
      fun u l h => by rw [exec_data, h], fun u l h => by rw [exec_close, h], fun u l h => by rw [exec_ack, h]⟩
  case served =>
    intro s f t a b u ha hb hl ht
    rw [receive_served true ha hl ht, receive_served false hb hl ht]
    refine ⟨fun hr => ?_, fun hr hw => ?_, fun hr hw hp => ?_, fun hp => ?_, fun hr hw hp hn => ?_⟩
    · simp [hr, u]
    · simp [hr, hw, u]
    · simp [hr, hw, hp, u]
    · simp [hp, u]
    · simp [hr, hw, hp, takePhase_same _ hn, u]
  case frames =>
    intro s l f ack window seq sack ece cwr u hu
    have h := transport_frame hu
    exact ⟨h.flash, h.cmds, h.seqr, h.seals, h.index, h.space, h.cipher, h.mode⟩

/-! ### HELLO (R97, R100, R386) -/

/-- A HELLO has passed checks 1 to 6, and the drive serves handshakes: no shutdown has begun and its keys stand (R386). -/
structure HelloHeard (s : State) (rx : Rx) (head : Head) : Prop where
  checked : frameCheck s rx head 1 136 = none
  answers : answersHello s rx.port = true
  phase : s.phase < 3
  mesh : s.cipher.meshTripped = false
  entropy : s.cipher.entropyFailed = false
  alarm : s.cipher.alarm ≠ .settle

/-- What a HELLO that the drive serves leaves: a repeated one is answered again, a new one is held where there is room and step 1
passes it. -/
def helloAnswered (s : State) (rx : Rx) (b : HelloBody) : State :=
  match handshakeOf s rx.ipSrc rx.srcUdpPort b.random, answeredOf s rx.ipSrc rx.srcUdpPort b.random with
  | some h, _ => sendWelcome (countAccepted s rx.port) rx h
  | none, some a => emitOn (countAccepted s rx.port) rx.port (handshakeReply s rx 0 a.hello.2) a.hello.1
  | none, none =>
    if 64 ≤ s.handshakes.length then discard s rx.port 9
    else match helloStatus s b (onTowPort s rx) with
      | some st => refuseHello s rx b.random st
      | none =>
        let h := handshakeFrom s rx b (onTowPort s rx)
        sendWelcome (countAccepted { s with handshakes := s.handshakes ++ [h], draws := s.draws + 1 } rx.port) rx h

theorem exec_hello_heard {w : State} {rx : Rx} {head : Head} (b : HelloBody) (h : HelloHeard (arrive w rx) rx head) :
    exec (.hello rx head b) w = .next (settle (helloAnswered (arrive w rx) rx b)) := by
  have hp : ¬3 ≤ (arrive w rx).phase := Nat.not_le.2 h.phase
  show execHello rx head b w = _
  simp only [execHello, helloAnswered, h.checked, h.answers, hp, h.mesh, h.entropy, h.alarm, Bool.not_true, Bool.false_eq_true,
    or_false, if_false]
  cases handshakeOf (arrive w rx) rx.ipSrc rx.srcUdpPort b.random with
  | some _ => rfl
  | none =>
    cases answeredOf (arrive w rx) rx.ipSrc rx.srcUdpPort b.random with
    | some _ => rfl
    | none =>
      dsimp only
      split
      · rfl
      · cases helloStatus (arrive w rx) b (onTowPort (arrive w rx) rx) <;> rfl

theorem exec_hello_failed {w : State} {rx : Rx} {head : Head} {k : Nat} (b : HelloBody)
    (h : frameCheck (arrive w rx) rx head 1 136 = some k) :
    exec (.hello rx head b) w = .next (settle (discard (arrive w rx) rx.port k)) := by
  show execHello rx head b w = _
  simp only [execHello, h]
  rfl

section
variable {s : State} {rx : Rx} {b : HelloBody}

theorem helloAnswered_held {h : Handshake} (hh : handshakeOf s rx.ipSrc rx.srcUdpPort b.random = some h) :
    helloAnswered s rx b = sendWelcome (countAccepted s rx.port) rx h := by
  simp only [helloAnswered, hh]

variable (hh : handshakeOf s rx.ipSrc rx.srcUdpPort b.random = none)
include hh

theorem helloAnswered_repeated {a : Answered} (ha : answeredOf s rx.ipSrc rx.srcUdpPort b.random = some a) :
    helloAnswered s rx b = emitOn (countAccepted s rx.port) rx.port (handshakeReply s rx 0 a.hello.2) a.hello.1 := by
  simp only [helloAnswered, hh, ha]

variable (ha : answeredOf s rx.ipSrc rx.srcUdpPort b.random = none)
include ha

theorem helloAnswered_full (hn : 64 ≤ s.handshakes.length) : helloAnswered s rx b = discard s rx.port 9 := by
  simp only [helloAnswered, hh, ha, hn, if_true]

theorem helloAnswered_refused {st : Status} (hn : s.handshakes.length < 64) (hs : helloStatus s b (onTowPort s rx) = some st) :
    helloAnswered s rx b = refuseHello s rx b.random st := by
  simp only [helloAnswered, hh, ha, hs, Nat.not_le.2 hn, if_false]

theorem helloAnswered_begun (hn : s.handshakes.length < 64) (hs : helloStatus s b (onTowPort s rx) = none) :
    let h := handshakeFrom s rx b (onTowPort s rx)
    helloAnswered s rx b = sendWelcome (countAccepted
      { s with handshakes := s.handshakes ++ [h], draws := s.draws + 1 } rx.port) rx h := by
  simp only [helloAnswered, hh, ha, hs, Nat.not_le.2 hn, if_false]

end

/-! ### What the answers to a handshake change -/

/-- What is sent on a port changes the output and a counter alone. -/
theorem emitOn_fields (s : State) (p : Port) (e : Envelope) (o : Output) : ∃ r x, emitOn s p e o = { s with regs := r, out := x } := by
  unfold emitOn
  split
  · obtain ⟨r, h⟩ := bump_frame { s with out := s.out ++ [.sent e (wireBytes e) o] } (npAddr p A.NP_TX_FRAMES)
    exact ⟨r, _, h⟩
  · exact ⟨_, _, rfl⟩

/-- A WELCOME takes the next counter of its handshake's key, and nothing else but the output and a counter. -/
theorem sendWelcome_fields (s : State) (rx : Rx) (h : Handshake) : ∃ r o, sendWelcome s rx h = { s with
    handshakes := s.handshakes.map (fun x => if x = h then { h with sendCtr := h.sendCtr + 1 } else x), regs := r, out := o } :=
  emitOn_fields _ _ _ _

/-- What is counted of a refusal changes registers alone (R67, R93). -/
theorem refusalCounted_frame (s : State) (p : Port) (c : Prop) [Decidable c] (b d : Nat) :
    OnlyRegs s (if c then raise (discard s p b) 0x0C d else discard s p b) := by
  split
  · exact (discard_frame _ _ _).trans (raise_frame _ _ _)
  · exact discard_frame _ _ _

/-- An answer that is kept and sent changes what is remembered, the output and a counter alone. -/
theorem sendKept_fields {s u : State} {n : Nat} (h : OnlyRegs { s with freeN := n } u) (a : Answered) (p : Port) (e : Envelope)
    (o : Output) : ∃ r x l, emitOn (keepAnswer u a) p e o = { s with freeN := n, regs := r, out := x, answered := l ++ [a] } := by
  obtain ⟨_, rfl⟩ := h
  obtain ⟨r, x, h⟩ := emitOn_fields (keepAnswer _ a) p e o
  exact ⟨r, x, _, h⟩

/-- A HELLO that is refused takes nothing; its refusal is remembered for a repeated one. -/
theorem refuseHello_fields (s : State) (rx : Rx) (random : Nat) (st : Status) : ∃ n r x l a,
    refuseHello s rx random st = { s with freeN := n, regs := r, out := x, answered := l ++ [a] } ∧
    a.ipSrc = rx.ipSrc ∧ a.udpPort = rx.srcUdpPort ∧ a.random = random ∧ a.auth = none ∧
    a.hello = refuseOf rx random st (tableHint s st) := by
  obtain ⟨r, x, l, h⟩ := sendKept_fields (refusalCounted_frame { s with freeN := s.freeN + flag (st == .tableFull) } rx.port
    (st = .tableFull) 9 2) ⟨rx.ipSrc, rx.srcUdpPort, random, _, refuseOf rx random st (tableHint s st), none⟩ _ _ _
  exact ⟨_, r, x, l, _, h, rfl, rfl, rfl, rfl, rfl⟩

/-- A HOST_AUTH that is refused takes nothing; its refusal is remembered. -/
theorem refuseAuth_fields (s : State) (rx : Rx) (h : Handshake) (st : Status) : ∃ n r x l a,
    refuseAuth s rx h st = { s with freeN := n, regs := r, out := x, answered := l ++ [a] } := by
  have hu : OnlyRegs { s with freeN := s.freeN + flag (st == .tableFull) }
      (let t := discard { s with freeN := s.freeN + flag (st == .tableFull) } rx.port 9
       if h.towline then t else if st = .tableFull then raise t 0x0C 2 else raise t 0x0C 3) := by
    dsimp only
    split
    · exact discard_frame _ _ _
    · split <;> exact (discard_frame _ _ _).trans (raise_frame _ _ _)
  obtain ⟨r, x, l, k⟩ := sendKept_fields hu _ _ _ _
  exact ⟨_, r, x, l, _, k⟩

/-! ### HOST_AUTH (R95, R97, R99) -/

/-- The handshake as its HOST_AUTH leaves it: the answers go by the path of that frame. -/
def Handshake.onPath (h : Handshake) (rx : Rx) : Handshake :=
  { h with port := rx.port, ethSrc := rx.ethSrc, ipv6 := rx.ether == .ipv6, ipDst := rx.ipDst }

section
variable {w : State} {f : Frame} {random : Nat} {b : AuthBody} {h : Handshake}
  (hf : frameCheck (arrive w f.rx) f.rx f.head 3 (100 + 324 * b.certs.length) = none)
  (hh : handshakeOf (arrive w f.rx) f.rx.ipSrc f.rx.srcUdpPort random = some h)
include hf hh

theorem exec_hostAuth_badTag (ht : f.tag ≠ .current) :
    exec (.hostAuth f random b) w = .next (settle (tagFailure (arrive w f.rx) f.rx.port)) := by
  show execHostAuth f random b w = _
  simp only [execHostAuth, hf, hh]
  exact if_pos ht

variable (ht : f.tag = .current)
include ht

/-- A HOST_AUTH whose tag is good ends its handshake, refused where its body, chain or signature is not in order. -/
theorem exec_hostAuth_refused (hb : b.certCount ≠ b.certs.length ∨ b.reserved ≠ 0 ∨
      chainOk (dropHandshake (arrive w f.rx) h) b.certs h.towline = false ∨ b.hostSigOk = false) :
    exec (.hostAuth f random b) w =
      .next (settle (refuseAuth (dropHandshake (arrive w f.rx) h) f.rx (h.onPath f.rx) .auth)) := by
  show execHostAuth f random b w = _
  simp only [execHostAuth, hf, hh]
  exact (if_neg (not_not.2 ht)).trans (if_pos (by simpa only [Bool.not_eq_true] using hb))

theorem exec_hostAuth_opened (hn : b.certCount = b.certs.length) (h0 : b.reserved = 0)
    (hc : chainOk (dropHandshake (arrive w f.rx) h) b.certs h.towline = true) (hs : b.hostSigOk = true) :
    let u := dropHandshake (arrive w f.rx) h
    exec (.hostAuth f random b) w = .next (settle (
      if h.towline then authTowline u f.rx (h.onPath f.rx) f.head.window b
      else authMooring u f.rx (h.onPath f.rx) f.head.window b)) := by
  show execHostAuth f random b w = _
  simp only [execHostAuth, hf, hh]
  exact (if_neg (not_not.2 ht)).trans ((if_neg (by simp [hn, h0, hc, hs])).trans
    (apply_ite (fun t => Host.Outcome.next (settle t)) _ _ _).symm)

end

theorem exec_handshakeTimeout_late {s : State} {ip port random : Nat} {h : Handshake} (hh : handshakeOf s ip port random = some h)
    (hd : h.helloAt + 1000 * fieldOf s A.MO_HS_TMO 15 0 ≤ s.sessionUs) :
    exec (.handshakeTimeout ip port random) s = .next (settle (dropHandshake s h)) := by
  show execHandshakeTimeout ip port random s = _
  simp only [execHandshakeTimeout, hh]
  exact if_pos hd

/-- Settles O55: HELLO, HOST_AUTH, what their refusals leave, and the end of a handshake that is late. -/
theorem handshakes : Obligations.Handshakes := by
  unfold Obligations.Handshakes
  refine ⟨?hello, sendWelcome_fields, fun w rx head b k => exec_hello_failed b, ?hostAuth, ?refusedAuth,
    ?refusedHello, fun h k b => ⟨rfl, rfl, rfl⟩, fun s ip port random h => exec_handshakeTimeout_late⟩
  case hello =>
    intro w rx head b s hf ha hp hm he hl
    rw [exec_hello_heard b ⟨hf, ha, hp, hm, he, hl⟩]
    refine ⟨fun h hh => by rw [helloAnswered_held hh], fun a hh ha => by rw [helloAnswered_repeated hh ha], fun hh ha =>
      ⟨fun hn => by rw [helloAnswered_full hh ha hn], fun st hn hs => by rw [helloAnswered_refused hh ha hn hs], fun hn hs => ?_⟩⟩
    exact ⟨handshakeFrom s rx b (onTowPort s rx), rfl, rfl, rfl, rfl, rfl, rfl, rfl, rfl, rfl, rfl, rfl, rfl,
      by rw [helloAnswered_begun hh ha hn hs]⟩
  case hostAuth =>
    intro w f random b h s hf hh p u g
    exact ⟨exec_hostAuth_badTag hf hh, exec_hostAuth_refused hf hh, exec_hostAuth_opened hf hh⟩
  case refusedAuth =>
    intro s rx h st t
    obtain ⟨n, r, x, l, a, e⟩ := refuseAuth_fields s rx h st
    simp only [t, e, and_self]
  case refusedHello =>
    intro s rx random st t
    obtain ⟨n, r, x, l, a, e, hi, hu, hr, hn, hh⟩ := refuseHello_fields s rx random st
    simp only [t, e, true_and]
    exact ⟨a, List.mem_append_right _ (List.mem_singleton_self a), hi, hu, hr, hn, hh⟩

end Sys2Proof.Machine
end

section
/-! PROOFS. Berths: the statements of the family of chapter 04, each with the lemmas about the model's functions that it rests
on. -/

namespace Sys2Proof.Machine

/-! ### The announcement of a deferred record (R138) -/

/-- The model's least number is the library's. -/
theorem listMin?_eq_min? (xs : List Nat) : listMin? xs = xs.min? := by
  have key : ∀ (l : List Nat) (a : Nat), l.foldl (fun m x => match m with
      | none => some x
      | some y => some (min x y)) (some a) = some (l.foldl min a) := by
    intro l
    induction l with
    | nil => exact fun a => rfl
    | cons x l ih => exact fun a => (ih _).trans (by rw [List.foldl_cons, min_comm x a])
  cases xs with
  | nil => rfl
  | cons x l => exact key l x

theorem nextAnnounce_eq_none_iff (b : Berth) : nextAnnounce b = none ↔ ∀ d ∈ b.deferreds, d.announced = true := by
  unfold nextAnnounce
  rw [listMin?_eq_min?, List.min?_eq_none_iff, List.map_eq_nil_iff, List.filter_eq_nil_iff]
  simp only [Bool.not_eq_true', Bool.not_eq_false]

/-- The index announced next is that of a record not yet announced, and the lowest of those (R138). -/
theorem nextAnnounce_lowest {b : Berth} {i : Nat} (h : nextAnnounce b = some i) :
    (∃ d ∈ b.deferreds, d.announced = false ∧ d.index = i) ∧ ∀ d ∈ b.deferreds, d.announced = false → i ≤ d.index := by
  unfold nextAnnounce at h
  rw [listMin?_eq_min?, List.min?_eq_some_iff] at h
  obtain ⟨hm, hl⟩ := h
  obtain ⟨d, hd, hi⟩ := List.mem_map.1 hm
  obtain ⟨hd, ha⟩ := List.mem_filter.1 hd
  exact ⟨⟨d, hd, by simpa using ha, hi⟩,
    fun e he ha => hl _ (List.mem_map_of_mem (List.mem_filter.2 ⟨he, by simp [ha]⟩))⟩

theorem announce_ok {b : Berth} {c : Completion} {i : Nat} (hc : c.status = 0) (hi : nextAnnounce b = some i) :
    announce b c = ({ b with deferreds := b.deferreds.map (fun d => if d.index = i then { d with announced := true } else d) },
      { c with status := 0x0001, detail := i }) := by
  unfold announce; rw [hc, hi]; rfl

theorem announce_none {b : Berth} {c : Completion} (h : c.status ≠ 0 ∨ nextAnnounce b = none) : announce b c = (b, c) := by
  unfold announce
  split
  next hs hn =>
    rcases h with h | h
    · exact absurd hs h
    · rw [h] at hn; cases hn
  next => rfl

/-- An announcement changes of the berth its deferred records alone, and of the completion its status and DETAIL. -/
theorem announce_frame (b : Berth) (c : Completion) : ∃ ds st d,
    announce b c = ({ b with deferreds := ds }, { c with status := st, detail := d }) := by
  unfold announce; split <;> exact ⟨_, _, _, rfl⟩

/-! ### A completion takes its ring entry (R121, R131, R301) -/

/-- A berth with a completion written into its ring: an entry with the next ticket, and the tag free. -/
def Berth.ringed (b : Berth) (c : Completion) : Berth :=
  let a := announce b c
  { a.1 with
    cq := a.1.cq ++ [(a.1.nextTicket, false)], cqTail := (a.1.cqTail + 1) % 2048, nextTicket := a.1.nextTicket + 1
    tags := if a.2.csn = 0 then a.1.tags else a.1.tags.filter (fun t => t.csn != a.2.csn)
    completed := sat (a.1.completed + 1) 32, refused := if a.2.csn = 0 then sat (a.1.refused + 1) 32 else a.1.refused }

theorem Berth.ringed_fields (b : Berth) (c : Completion) :
    (b.ringed c).cq = b.cq ++ [(b.nextTicket, false)] ∧ (b.ringed c).nextTicket = b.nextTicket + 1 ∧
    (b.ringed c).cqTail = (b.cqTail + 1) % 2048 ∧ (b.ringed c).sq = b.sq ∧
    (b.ringed c).tags = if c.csn = 0 then b.tags else b.tags.filter (fun t => t.csn != c.csn) := by
  obtain ⟨ds, st, d, h⟩ := announce_frame b c
  simp only [Berth.ringed, h, and_self]

@[simp] theorem writeCompletion_berths (s : State) (n : Nat) (b : Berth) (c : Completion) :
    (writeCompletion s n b c).berths = tabPut s.berths n (b.ringed c) := by
  unfold writeCompletion; dsimp only; split
  · rfl
  · rw [sendCapsule_berths]; rfl

/-- A completion of a command that waits for a void marker is kept back, its frames unsent (R301). -/
theorem writeCompletion_withheld {s : State} {b : Berth} {c : Completion} (n : Nat)
    (h : ∃ x ∈ s.cmds, x.csn = (announce b c).2.voidOf ∧ x.voidFor.isSome = true) :
    writeCompletion s n b c = { s with
      berths := tabPut s.berths n (b.ringed c)
      withheld := s.withheld ++ [⟨(announce b c).2.voidOf, (announce b c).1.mooring, n, (announce b c).1.index,
        (announce b c).1.nextTicket, completionBytes (announce b c).2⟩] } := by
  have ha : s.cmds.any (fun x => x.csn == (announce b c).2.voidOf && x.voidFor.isSome) = true :=
    List.any_eq_true.2 (h.imp fun x hx => ⟨hx.1, by simpa using hx.2⟩)
  exact if_pos ha

/-! ### The completion of a command -/

theorem complete_of_noBerth {s : State} {n : Nat} (h : berthOf s n = none) (c : Completion) : complete s n c = s := by
  unfold complete; rw [h]

theorem complete_of_room {s : State} {n : Nat} {b : Berth} (h : berthOf s n = some b) (ht : b.tearing = false)
    (hr : b.cq.length < 1024) (c : Completion) : complete s n c = writeCompletion s n b c := by
  unfold complete; simp only [h, ht, Bool.false_eq_true, if_false]; exact if_neg (Nat.not_le.2 hr)

/-- A completion waits while its ring is full (R132). -/
theorem complete_of_full {s : State} {n : Nat} {b : Berth} (h : berthOf s n = some b) (ht : b.tearing = false)
    (hr : 1024 ≤ b.cq.length) (c : Completion) :
    complete s n c = updBerth s n (fun b => { b with cqWait := b.cqWait ++ [c] }) := by
  unfold complete; simp only [h, ht, Bool.false_eq_true, if_false]; exact if_pos hr

/-- After the teardown point a completion of no admitted command is gone, and an admitted one's status is kept (R114). -/
theorem complete_of_tearing {s : State} {n : Nat} {b : Berth} (h : berthOf s n = some b) (ht : b.tearing = true)
    (c : Completion) : complete s n c = if c.csn = 0 then s
      else updMooring (updBerth s n (fun b => { b with tags := b.tags.filter (fun t => t.csn != c.csn) })) b.mooring
        (fun m => { m with finals := m.finals ++ [(n, c.tag, c.status, c.csn)] }) := by
  unfold complete; simp only [h, ht, if_true]

/-! ### A quiet drive -/

theorem resumeAll_of_quiet {s : State} (h : Quiet s) : resumeAll s = s := by
  obtain ⟨hc, ht⟩ := h
  have hr : resumeCmds s = s := by unfold resumeCmds; rw [hc]; rfl
  unfold resumeAll; dsimp only; rw [hr, ht]; rfl

/-- Settles O7: where a completion goes, by the state of its berth and ring. -/
theorem completionsReachTheRing : Obligations.CompletionsReachTheRing := by
  unfold Obligations.CompletionsReachTheRing
  refine ⟨fun s n c h => complete_of_noBerth h c, ?room, ?withheld, ?full, ?tearing, ?announced, fun b c => announce_none,
    nextAnnounce_eq_none_iff, ?frame, fun s => resumeAll_of_quiet⟩
  case room =>
    intro s n b c h ht hr
    obtain ⟨h1, h2, h3, h4, h5⟩ := b.ringed_fields c
    rw [complete_of_room h ht hr]
    refine ⟨b.ringed c, ?_, h1, h2, h3, h4, h5, fun k hk => ?_⟩
    · simp [berthOf]
    · simp [berthOf, Ne.symm hk]
  case withheld =>
    intro s n b c h ht hr hv
    obtain ⟨ds, st, d, ha⟩ := announce_frame b c
    rw [complete_of_room h ht hr, writeCompletion_withheld n hv]
    exact ⟨rfl, _, rfl, rfl, by rw [ha], rfl⟩
  case full =>
    intro s n b c h ht hr
    rw [complete_of_full h ht hr]
    refine ⟨?_, rfl⟩
    unfold berthOf at *
    simp [updBerth, h]
  case tearing =>
    intro s n b c h ht
    rw [complete_of_tearing h ht]
    refine ⟨fun hc => if_pos hc, fun m hc hm => ?_⟩
    rw [if_neg hc]
    unfold mooringOf at *
    exact ⟨rfl, by simp [updMooring, updBerth, hm]⟩
  case announced =>
    intro b c i hc hi
    rw [announce_ok hc hi]
    exact ⟨rfl, rfl, nextAnnounce_lowest hi⟩
  case frame =>
    intro s n c t
    simp only [t, complete_flash, complete_cmds, complete_cipher, complete_log, complete_seqr, complete_mode, complete_update,
      complete_index, complete_space, complete_seals, complete_power, complete_boot, and_self]

/-! ### What admission reads of the state that the capsule is presented in -/

/-- A capsule that has left its ring is admitted with the next CSN (R33). -/
@[simp] theorem admitTag_takeRequest (s : State) (n : Nat) (c : Capsule) (k : Bool) :
    admitTag (takeRequest s) n c.tag k = (s.seqr.next, admittedState s n c k) := by
  rw [← takeRequest_next s]; rfl

/-- A quay's key is to be had as before the capsule was taken: the taking leaves quays and slots (R166). -/
@[simp] theorem keyUnavailable_admittedState (s : State) (n : Nat) (c : Capsule) (k : Bool) (q : Nat) :
    keyUnavailable (admittedState s n c k) q = keyUnavailable s q := by
  simp only [keyUnavailable, slotOf, admittedState_flash_quays, admittedState_cipher]

@[simp] theorem quaySlot_admittedState (s : State) (n : Nat) (c : Capsule) (k : Bool) (q : Nat) :
    quaySlot (admittedState s n c k) q = quaySlot s q := by
  simp only [quaySlot, admittedState_flash_quays]

@[simp] theorem nextInvocation_admittedState (s : State) (n : Nat) (c : Capsule) (k : Bool) (slot : Nat) :
    nextInvocation (admittedState s n c k) slot = nextInvocation s slot := by
  simp only [nextInvocation, slotOf, admittedState_cipher]

@[simp] theorem isPosted_takeRequest (s : State) (c : Capsule) : isPosted (takeRequest s) c = isPosted s c := by
  simp only [isPosted, takeRequest_flash_quays]

/-! ### The admission of a mutation (R128, R166, R335, R345) -/

section
variable {s : State} {c : Capsule} (n : Nat)

/-- With its quay's key gone a mutation completes at once with that status (R166). -/
theorem admitWrite_unavailable {st : Status} (hk : keyUnavailable s c.quay = some st) : admitWrite (takeRequest s) n c =
    complete (admittedState s n c (isPosted s c)) n (Completion.plain c.opcode c.tag st s.seqr.next) := by
  simp only [admitWrite, isPosted_takeRequest, admitTag_takeRequest, keyUnavailable_admittedState, hk]

/-- With its slot's invocations used up it is refused as worn, and counted (R345). -/
theorem admitWrite_worn (hk : keyUnavailable s c.quay = none)
    (hr : reserveCounter (admittedState s n c (isPosted s c)) (quaySlot s c.quay)
      (listSum ((opsOf (admittedState s n c (isPosted s c)) c).map opSegments)) = none) : admitWrite (takeRequest s) n c =
    complete (bumpHalf (admittedState s n c (isPosted s c)) A.CP_KEY_REFUSED 0) n
      (Completion.plain c.opcode c.tag .keyWorn s.seqr.next) := by
  simp only [admitWrite, isPosted_takeRequest, admitTag_takeRequest, keyUnavailable_admittedState, hk, quaySlot_admittedState, hr]

/-- With its invocations reserved, from the slot's next one on, it goes its way (R335). -/
theorem admitWrite_reserved {t : State} (hk : keyUnavailable s c.quay = none)
    (hr : reserveCounter (admittedState s n c (isPosted s c)) (quaySlot s c.quay)
      (listSum ((opsOf (admittedState s n c (isPosted s c)) c).map opSegments)) = some t) : admitWrite (takeRequest s) n c =
    enterReserved t (nextInvocation s (quaySlot s c.quay)) n c s.seqr.next (quaySlot s c.quay)
      (opsOf (admittedState s n c (isPosted s c)) c) (isPosted s c) := by
  simp only [admitWrite, isPosted_takeRequest, admitTag_takeRequest, keyUnavailable_admittedState, hk, quaySlot_admittedState, hr,
    nextInvocation_admittedState]

end

/-- PUT, DELETE, CAS and BATCH share one decision and one admission (R128). -/
theorem exec_mutation {n op : Nat} {i : Instr}
    (h : (op, i) ∈ [(0x02, Instr.put n), (0x03, .delete n), (0x05, .cas n), (0x06, .batch n)]) (s : State) :
    exec i s = capsule s n op (fun s _ _ c => admitWrite s n c) := by
  simp only [List.mem_cons, Prod.mk.injEq, List.not_mem_nil, or_false] at h
  rcases h with ⟨rfl, rfl⟩ | ⟨rfl, rfl⟩ | ⟨rfl, rfl⟩ | ⟨rfl, rfl⟩ <;> rfl

/-- A posted write of one entry: its record settles with the next POSTED_SEQ, and it completes with its version (R130, R133,
R156). -/
theorem postWrite_single (s : State) (x : Cmd) (o : KeyOp) :
    let version := if o.change = .delete then 0 else x.csn
    let i := itemOf x 1 s.space.nextPseq 0 s.space.nextRecord x.ctr version false o
    postWrite s x [o] = drainPosted (complete (hotSettle (recount { s with
        flash := { s.flash with items := s.flash.items ++ [i] }
        space := { s.space with nextPseq := s.space.nextPseq + 1, nextRecord := s.space.nextRecord + 1 } } x.quay) i)
      x.berth (writeOk x.opcode x.tag x.csn [version])) := rfl

/-- Settles O22: the three outcomes of an admitted mutation, its entry by its mode, and a posted write of one entry. -/
theorem mutationsAreAdmitted : Obligations.MutationsAreAdmitted := by
  unfold Obligations.MutationsAreAdmitted
  refine ⟨?admission, fun s x ops => ⟨rfl, rfl⟩, postWrite_single⟩
  case admission =>
    intro s n op i b m c hi h u slot count
    rw [exec_mutation hi, capsule_admissible s n op _ b m c h.1]
    refine ⟨fun st hk => ?_, fun hk hr => ?_, fun t hk hr => ?_⟩
    · rw [admitWrite_unavailable n hk]
    · rw [admitWrite_worn n hk hr]
    · rw [admitWrite_reserved n hk hr]; rfl

/-! ### The run of a committed-mode write (R128, R155 to R157, R168, R169) -/

section
variable {s : State} {x : Cmd} {ops : List KeyOp}

theorem runWrite_unavailable {st : Status} (hk : keyUnavailable s x.quay = some st) : runWrite s x ops = failPlain s x st := by
  simp only [runWrite, hk]

theorem runWrite_conditionFailed {f : Nat × Nat} (hk : keyUnavailable s x.quay = none)
    (hf : failingEntry s x.quay x.csn 0 ops = some f) : runWrite s x ops = failWrite s x (conditionFailed x f) .condition := by
  simp only [runWrite, hk, hf]

/-- With its key there, its conditions met, no segment bad and no posted write of its keys ahead, a write has its result: it places
its records, or with none queues its commit marker. -/
theorem runWrite_decided (hk : keyUnavailable s x.quay = none) (hf : failingEntry s x.quay x.csn 0 ops = none)
    (hb : x.badSegs = []) (hp : postedAhead s x.quay x.csn ops = false) :
    (∀ t, ops.any opWrites = true →
      placeOps x (lostKeysOf s x.csn) 0 (ops.zip ((ops.map (entryVersion s x.quay x.csn)).zip (opCtrs x.ctr ops))) s = some t →
      runWrite s x ops = updCmd t x.csn (fun y => { y with
        stage := .placed
        versions := ops.map (entryVersion s x.quay x.csn) })) ∧
    (ops.any opWrites = false → runWrite s x ops = updCmd (queueMarker s .commitMarker x.csn 0 false) x.csn (fun y => { y with
      stage := .marking
      versions := ops.map (entryVersion s x.quay x.csn) })) := by
  refine ⟨fun t hw ht => ?_, fun hw => ?_⟩
  · simp [runWrite, hk, hf, hb, hp, hw, ht]
  · simp [runWrite, hk, hf, hb, hp, hw]

end

/-- A single condition is met exactly where the key's version is the expected one (R162, R163). -/
theorem failingEntry_single_eq_none_iff (s : State) (q k : Nat) {o : KeyOp} {e : Nat} (h : o.expected = some e) :
    failingEntry s q k 0 [o] = none ↔ versionAt s q o.key k = e := by
  simp [failingEntry, h]

theorem entryVersion_put (s : State) (q k : Nat) {o : KeyOp} {v : List Byte} (h : o.change = .put v) :
    entryVersion s q k o = versionAt s q o.key k + 1 := by
  simp only [entryVersion, h]

/-- The version of a key is that of its newest settled record, and 0 of one never written or deleted (R156). -/
theorem versionAt_by_newest (s : State) (q k : Nat) (key : List Byte) :
    ((∀ i, newestItem s.flash.items q key k = some i → i.kind = .deletion) → versionAt s q key k = 0) ∧
    (∀ i, newestItem s.flash.items q key k = some i → i.kind ≠ .deletion → versionAt s q key k = i.version) := by
  unfold versionAt
  cases hi : newestItem s.flash.items q key k with
  | none => exact ⟨fun _ => rfl, fun i h => by cases h⟩
  | some i =>
    refine ⟨fun h => ?_, fun j h hd => ?_⟩
    · simp [versionOf, exists_, h i rfl]
    · cases h; simp [versionOf, exists_, hd]

/-- E_CONDITION names the key's version in its version field, but for a BATCH, whose RESULT does (R155). -/
theorem conditionFailed_fields (x : Cmd) (f : Nat × Nat) : (conditionFailed x f).status = statusCode .condition ∧
    (conditionFailed x f).csn = x.csn ∧ (x.opcode ≠ 0x06 → (conditionFailed x f).version = f.2) := by
  unfold conditionFailed; dsimp only
  split
  next h => exact ⟨rfl, rfl, fun hn => absurd h hn⟩
  next => exact ⟨rfl, rfl, fun _ => rfl⟩

/-- Settles O23: the outcomes of a write's run, what its conditions ask, and the versions that it gives. -/
theorem writesRun : Obligations.WritesRun := by
  unfold Obligations.WritesRun
  exact ⟨fun s x ops st => runWrite_unavailable, fun s x ops f => runWrite_conditionFailed,
    fun s t x ops hk hf hb hp => (runWrite_decided hk hf hb hp).1 t, fun s x ops hk hf hb hp => (runWrite_decided hk hf hb hp).2,
    fun s q k e o => failingEntry_single_eq_none_iff s q k, fun s q k o v => entryVersion_put s q k, versionAt_by_newest,
    conditionFailed_fields⟩

/-! ### Capsules that reach their commit point with their CSN -/

/-- An admitted capsule whose work is its answer completes with what that gives (R31). -/
theorem capsule_answered {s : State} {n op : Nat} {b : Berth} {m : Mooring} {c : Capsule}
    (run : Berth → Capsule → State → Nat → State × Completion) (h : Admitted s n op b m c) :
    capsule s n op (fun s b _ c => answerAt s n c (run b c)) =
      .next (decided (complete (run b c (admittedState s n c true) s.seqr.next).1 n
        (run b c (admittedState s n c true) s.seqr.next).2)) := by
  rw [capsule_admissible s n op _ b m c h.1, answerAt_eq]

@[simp] theorem quayOpen_admittedState (s : State) (n : Nat) (c : Capsule) (k : Bool) (q : Nat) :
    quayOpen (admittedState s n c k) q = quayOpen s q := by
  simp only [quayOpen, admittedState_flash_quays]

@[simp] theorem guaranteesFit_admittedState (s : State) (n : Nat) (c : Capsule) (k : Bool) (q : Option Nat) (v : List Byte) :
    guaranteesFit (admittedState s n c k) q v = guaranteesFit s q v := by
  simp only [guaranteesFit, admittedState_flash_quays]

@[simp] theorem createTarget_admittedState (s : State) (n : Nat) (c d : Capsule) (k : Bool) :
    createTarget (admittedState s n c k) d = createTarget s d := by
  simp only [createTarget, admittedState_flash_quays]

@[simp] theorem lowestSlot_admittedState (s : State) (n : Nat) (c : Capsule) (k : Bool) :
    lowestSlot (admittedState s n c k) = lowestSlot s := by
  simp only [lowestSlot, admittedState_flash_keyRecords, admittedState_cipher]

/-! ### QUAY_CREATE (R177, R178, R339) -/

/-- A block that breaks its rules, or whose quota does not fit, is refused with no effect (R178). -/
theorem quayCreate_range {s : State} {c : Capsule} (csn : Nat) (h : blockLegal c.value = false ∨
    guaranteesFit s (if c.flags % 2 = 1 then none else some c.quay) c.value = false) :
    quayCreate s c csn = (s, statusOnly c csn .range) := by
  unfold quayCreate
  cases hb : blockLegal c.value with
  | false => rfl
  | true =>
    have hg := h.resolve_left (by simp [hb])
    simp [hg]

theorem quayCreate_created {s : State} {c : Capsule} {q slot : Nat} (csn : Nat) (hb : blockLegal c.value = true)
    (hg : guaranteesFit s (if c.flags % 2 = 1 then none else some c.quay) c.value = true) (ht : createTarget s c = .ok q)
    (hl : s.cipher.locked = false) (he : s.cipher.entropyFailed = false) (hs : lowestSlot s = some slot) :
    quayCreate s c csn =
      (createQuay s q slot csn c.value, { statusOnly c csn .ok with result := fit (beBytes q 2) 16 }) := by
  simp only [quayCreate, hb, hg, ht, hl, he, hs, Bool.not_true, Bool.false_eq_true, if_false]

/-- A key record is written or erased, and nothing else changes (R353). -/
theorem saveKey_frame (s : State) (k : Nat) : ∃ t, saveKey s k = { s with flash := { s.flash with keyRecords := t } } := by
  unfold saveKey; split <;> exact ⟨_, rfl⟩

/-- The quay that a block creates: two draws are its keys (R177, R339). -/
theorem createQuay_fields (s : State) (q slot csn : Nat) (v : List Byte) :
    let t := createQuay s q slot csn v
    tabGet t.flash.quays q = some
      { erasing := false, posted := beAt v 0 1 == 1, maxValue := beAt v 4 4, guarGib := beAt v 8 4, limitGib := beAt v 12 4,
        used := 0, keys := 0, slot := slot, reserved := 0, createCsn := csn, refused := 0, lost := 0,
        indexKey := s.draws + 1 } ∧
    (∀ r, r ≠ q → tabGet t.flash.quays r = tabGet s.flash.quays r) ∧ t.draws = s.draws + 2 ∧
    t.flash.items = s.flash.items ∧ t.flash.rules = s.flash.rules ∧ t.index = s.index ∧ t.space = s.space := by
  unfold createQuay; dsimp only
  obtain ⟨r, h⟩ := saveKey_frame _ slot
  rw [h]
  refine ⟨?_, fun r hr => ?_, rfl, rfl, rfl, rfl, rfl⟩
  · simp
  · simp [Ne.symm hr]

/-! ### QUAY_SET (R178) -/

theorem quaySet_range {s : State} {c : Capsule} (csn : Nat)
    (h : blockLegal c.value = false ∨ guaranteesFit s (some c.quay) c.value = false) :
    quaySet s c csn = (s, statusOnly c csn .range) := by
  rcases h with h | h <;> simp [quaySet, h]

theorem quaySet_closed {s : State} {c : Capsule} (csn : Nat) (hb : blockLegal c.value = true)
    (hg : guaranteesFit s (some c.quay) c.value = true) (ho : quayOpen s c.quay = false) :
    quaySet s c csn = (s, statusOnly c csn .state) := by
  simp [quaySet, hb, hg, ho]

theorem quaySet_open {s : State} {c : Capsule} (csn : Nat) (hb : blockLegal c.value = true)
    (hg : guaranteesFit s (some c.quay) c.value = true) (ho : quayOpen s c.quay = true) :
    quaySet s c csn = ({ s with flash := { s.flash with quays := tabUpd s.flash.quays c.quay (fun y => { y with
      posted := beAt c.value 0 1 == 1
      maxValue := beAt c.value 4 4
      guarGib := beAt c.value 8 4
      limitGib := beAt c.value 12 4 }) } }, statusOnly c csn .ok) := by
  simp [quaySet, hb, hg, ho]

/-! ### QUAY_DESTROY (R179, R185, R342) -/

/-- The rules of a quay go, with what their searches and entries may change (R182). -/
theorem dropRules_frame (s : State) (q : Nat) : ∃ r ix lg f, dropRules s q = { s with
    regs := r, index := ix, log := lg
    flash := { s.flash with faults := f, rules := s.flash.rules.filter (fun x => x.quay != q) } } := by
  obtain ⟨r, ix, lg, f, h⟩ := removeRules_searched s ((rulesOf s q).map Rule.id)
  unfold dropRules; dsimp only; rw [h]; exact ⟨r, ix, lg, f, rfl⟩

/-- The charge of a quay afresh: nothing where it is ERASING (R158). -/
theorem recount_erasing {s : State} {q : Nat} {z : Quay} (h : tabGet (recount s q).flash.quays q = some z)
    (he : ∀ y, tabGet s.flash.quays q = some y → y.erasing = true ∧ y.indexKey = 0) :
    z.erasing = true ∧ z.used = 0 ∧ z.keys = 0 ∧ z.indexKey = 0 := by
  simp only [recount, tabGet_tabUpd, if_true, Option.map_eq_some_iff] at h
  obtain ⟨y, hy, rfl⟩ := h
  obtain ⟨he, hi⟩ := he y hy
  simp [he, hi]

/-- The quay's slot, key record and rekey go, and it is ERASING with no index key (R185, R342). -/
def erasingQuay (s : State) (q slot : Nat) : State :=
  { s with
    cipher := { s.cipher with slots := tabErase s.cipher.slots slot, rekey := s.cipher.rekey.filter (fun r => r.1 != q) }
    flash := { s.flash with
      keyRecords := tabErase s.flash.keyRecords slot
      quays := tabUpd s.flash.quays q (fun y => { y with erasing := true, used := 0, keys := 0, indexKey := 0 }) } }

theorem saveKey_freeSlot (s : State) (slot : Nat) : saveKey (freeSlot s slot) slot =
    { freeSlot s slot with flash := { s.flash with keyRecords := tabErase s.flash.keyRecords slot } } := by
  have h : slotOf (freeSlot s slot) slot = none := by simp [slotOf, freeSlot]
  unfold saveKey; rw [h]; rfl

/-- With every posted write of its quay encrypted, nothing becomes a deferred error (R179). -/
theorem destroyQuay_encrypted {s : State} {q : Nat} (slot : Nat) (h : plainPosted s q = []) :
    destroyQuay s q slot = recount (dropRules (erasingQuay s q slot) q) q := by
  have hd : destroyQuay s q slot = (plainPosted (recount (dropRules (erasingQuay s q slot) q) q) q).foldl
      (fun s csn => deferredError s csn .keyErased) (recount (dropRules (erasingQuay s q slot) q) q) := by
    unfold destroyQuay; rw [saveKey_freeSlot]; rfl
  have hp : plainPosted (recount (dropRules (erasingQuay s q slot) q) q) q = plainPosted s q := by
    obtain ⟨r, ix, lg, f, hr⟩ := dropRules_frame (erasingQuay s q slot) q
    rw [hr]; rfl
  rw [hd, hp, h]; rfl

theorem destroyQuay_fields {s : State} {q : Nat} (slot : Nat) (h : plainPosted s q = []) :
    let t := destroyQuay s q slot
    (∀ z, tabGet t.flash.quays q = some z → z.erasing = true ∧ z.used = 0 ∧ z.keys = 0 ∧ z.indexKey = 0) ∧
    t.flash.rules = s.flash.rules.filter (fun r => r.quay != q) ∧ t.flash.items = s.flash.items ∧
    tabGet t.flash.keyRecords slot = none ∧ slotOf t slot = none ∧ (∀ k, k ≠ slot → slotOf t k = slotOf s k) := by
  obtain ⟨r, ix, lg, f, hr⟩ := dropRules_frame (erasingQuay s q slot) q
  intro t
  have ht : t = recount (dropRules (erasingQuay s q slot) q) q := destroyQuay_encrypted slot h
  rw [ht, hr]
  refine ⟨fun z hz => recount_erasing hz fun y hy => ?_, rfl, rfl, ?_, ?_, fun k hk => ?_⟩
  · simp only [erasingQuay, tabGet_tabUpd, if_true, Option.map_eq_some_iff] at hy
    obtain ⟨y, -, rfl⟩ := hy
    exact ⟨rfl, rfl⟩
  · simp [recount, erasingQuay]
  · simp [recount, erasingQuay, slotOf]
  · simp [recount, erasingQuay, slotOf, Ne.symm hk]

/-- QUAY_DESTROY of an open quay destroys it and frees what waited; of another it is refused (R179). -/
theorem exec_quayDestroy_admitted {s : State} {n : Nat} {b : Berth} {m : Mooring} {c : Capsule} (h : Admitted s n 0x22 b m c) :
    exec (.quayDestroy n) s = .next (decided (let u := admittedState s n c true
      if quayOpen s c.quay then
        resumeAll (complete (destroyQuay u c.quay (quaySlot s c.quay)) n (statusOnly c s.seqr.next .ok))
      else complete u n (statusOnly c s.seqr.next .state))) := by
  show capsule s n 0x22 _ = _
  rw [capsule_admissible s n 0x22 _ b m c h.1]
  simp only [admitTag_takeRequest, quayOpen_admittedState, quaySlot_admittedState]

/-- Settles O25: the quay commands by what their blocks and quays are, and what creation and destruction leave. -/
theorem quayCommands : Obligations.QuayCommands := by
  unfold Obligations.QuayCommands
  refine ⟨?create, createQuay_fields, ?set, ?destroy, fun s q slot y hp _ => destroyQuay_fields slot hp⟩
  case create =>
    intro s n b m c h u who
    have he := capsule_answered (fun _ c s csn => quayCreate s c csn) h
    refine ⟨fun hb => he.trans ?_, fun q slot hb hg ht hl he' hs => he.trans ?_⟩
    · rw [quayCreate_range _ (by rwa [guaranteesFit_admittedState])]
    · rw [quayCreate_created _ hb (by rwa [guaranteesFit_admittedState]) (by rwa [createTarget_admittedState])
        (by rwa [admittedState_cipher]) (by rwa [admittedState_cipher]) (by rwa [lowestSlot_admittedState])]
  case set =>
    intro s n b m c h u
    have he := capsule_answered (fun _ c s csn => quaySet s c csn) h
    refine ⟨fun hb => he.trans ?_, fun hb hg ho => he.trans ?_, fun hb hg ho => he.trans ?_⟩
    · rw [quaySet_range _ (by rwa [guaranteesFit_admittedState])]
    · rw [quaySet_closed _ hb (by rwa [guaranteesFit_admittedState]) (by rwa [quayOpen_admittedState])]
    · rw [quaySet_open _ hb (by rwa [guaranteesFit_admittedState]) (by rwa [quayOpen_admittedState])]
  case destroy =>
    intro s n b m c h u
    have he := exec_quayDestroy_admitted h
    refine ⟨fun ho => he.trans ?_, fun ho => he.trans ?_⟩
    · simp only [ho, Bool.false_eq_true, if_false, u]
    · simp only [ho, if_true, u]

/-! ### SEAL and ABORT (R134, R143 to R145) -/

/-- SEAL begins a seal of its scope at its CSN (R134). -/
theorem exec_sealWrites_admitted (s : State) (n : Nat) (b : Berth) (m : Mooring) (c : Capsule) (h : Admitted s n 0x40 b m c) :
    exec (.sealWrites n) s = .next (decided (beginSeal (admittedState s n c true)
      { csn := s.seqr.next, scope := c.flags % 4, quay := c.quay, berth := n, purpose := .capsule n c.tag })) := by
  show capsule s n 0x40 _ = _
  rw [capsule_admissible s n 0x40 _ b m c h.1]
  simp only [admitTag_takeRequest]

section
variable {s : State} {n : Nat} {b : Berth} {m : Mooring} {c : Capsule} (h : Admitted s n 0x41 b m c)
include h

/-- An ABORT of a tag that is not outstanding names no CSN (R144). -/
theorem exec_abort_unknown (ht : ∀ t ∈ b.tags, t.tag ≠ c.param) : exec (.abort n) s =
    .next (decided (complete (admittedState s n c true) n (abortAnswer c.tag s.seqr.next 0 .abortTooLate))) := by
  have hf : b.tags.find? (fun t => t.tag == c.param) = none := List.find?_eq_none.2 (by simpa using ht)
  show capsule s n 0x41 _ = _
  rw [capsule_admissible s n 0x41 _ b m c h.1]
  simp only [admitTag_takeRequest, hf]

/-- An ABORT of a command past its commit point is too late (R144). -/
theorem exec_abort_committed {t : TagRec} (hf : b.tags.find? (fun t => t.tag == c.param) = some t) (hc : t.committed = true) :
    exec (.abort n) s =
      .next (decided (complete (admittedState s n c true) n (abortAnswer c.tag s.seqr.next t.csn .abortTooLate))) := by
  show capsule s n 0x41 _ = _
  rw [capsule_admissible s n 0x41 _ b m c h.1]
  simp only [admitTag_takeRequest, hf, hc, if_true]

/-- An ABORT of a write that is not committed takes it back (R144, R145). -/
theorem exec_abort_write {t : TagRec} {x : Cmd} (hf : b.tags.find? (fun t => t.tag == c.param) = some t)
    (hc : t.committed = false) (hx : s.cmds.find? (fun x => x.csn == t.csn) = some x) :
    exec (.abort n) s = .next (decided (resumeAll (abortWrite (admittedState s n c true) n c.tag s.seqr.next x))) := by
  show capsule s n 0x41 _ = _
  rw [capsule_admissible s n 0x41 _ b m c h.1]
  simp only [admitTag_takeRequest, hf, hc, Bool.false_eq_true, if_false, admittedState_cmds, hx]

end

/-- Where no page of the write has begun its transfer, no void marker is needed: both completions are written at once (R145). -/
theorem abortWrite_untransferred (s : State) (n tag csn : Nat) (x : Cmd) (hx : x.transferred = false)
    (ht : transferred (releaseWrite (dropPieces s x.csn) x false) x.csn = false) :
    let u := releaseWrite (dropPieces s x.csn) x false
    abortWrite s n tag csn x = complete (complete (dropCmd { u with flash := { u.flash with
        items := u.flash.items.filter (fun i => i.csn != x.csn) } } x.csn) x.berth
      (Completion.plain x.opcode x.tag .abortedHost x.csn)) n (abortAnswer tag csn x.csn .ok) :=
  if_neg (by simp [hx, ht])

/-! ### BERTH_RESET (R146, R147) -/

theorem exec_berthReset_admitted (s : State) (n : Nat) (b : Berth) (m : Mooring) (c : Capsule) (h : Admitted s n 0x42 b m c) :
    exec (.berthReset n) s = .next (decided (resetBerth (admittedState s n c true) (m.berths.getD (c.param % 16) 16384) n
      c.tag s.seqr.next)) := by
  show capsule s n 0x42 _ = _
  rw [capsule_admissible s n 0x42 _ b m c h.1]
  simp only [admitTag_takeRequest]

/-- A reset discards what the target's ring holds, in ring order, each capsule with a CSN of its own (R146). -/
theorem resetBerth_eq (s : State) (n source tag csn : Nat) (b : Berth) (h : berthOf s n = some b) :
    resetBerth s n source tag csn = (undecided b).foldl (discardCapsule n)
      (updBerth (withdraw s (fun q => q.berth == n && !q.reset)) n (fun y => { clearRing y with
        reset := some { csn := csn, berth := source, tag := tag, discarded := (undecided b).length,
                        running := (b.tags.filter (fun t => t.csn != csn)).length } })) := by
  unfold resetBerth; rw [h]

/-- A reset waits while a command admitted before it is outstanding on its target, and then completes (R147). -/
theorem exec_berthResetEnd_pending {s : State} {n : Nat} {b : Berth} {r : Resetting} (h : berthOf s n = some b)
    (hr : b.reset = some r) : exec (.berthResetEnd n) s = .next (settle (
      if b.tags.any (fun t => decide (t.csn < r.csn)) then s
      else complete (updBerth s n (fun b => { b with reset := none })) r.berth
        { Completion.plain 0x42 r.tag .ok r.csn with
          result := fit (beBytes r.discarded 2 ++ beBytes r.running 2) 16 })) := by
  show execBerthResetEnd n s = _
  unfold execBerthResetEnd
  simp only [h, hr]
  split <;> rfl

/-! ### Deferred records (R137, R142) -/

/-- DEFERRED_ACK is refused whole where it names a free index or OVERFLOW is clear, and else has its effect (R142). -/
theorem exec_deferredAck_admitted {s : State} {n : Nat} {b : Berth} {m : Mooring} {c : Capsule} (h : Admitted s n 0x44 b m c) :
    exec (.deferredAck n) s = .next (decided (let u := admittedState s n c true
      if c.param &&& (2 ^ 64 - 1 - deferredMask b) ≠ 0 ∨ (c.flags % 2 = 1 ∧ !b.overflow) then
        complete u n (statusOnly c s.seqr.next .state)
      else complete (updBerth u n (ackDeferreds c)) n (statusOnly c s.seqr.next .ok))) := by
  show capsule s n 0x44 _ = _
  rw [capsule_admissible s n 0x44 _ b m c h.1, answerAt_eq]
  dsimp only
  split <;> rfl

/-- Settles O27: the berth commands, clause by clause from the lemmas above. -/
theorem berthCommands : Obligations.BerthCommands := by
  unfold Obligations.BerthCommands
  refine ⟨exec_sealWrites_admitted, fun s n b m c h => ⟨exec_abort_unknown h, fun t => exec_abort_committed h,
      fun t x => exec_abort_write h⟩, abortWrite_untransferred, exec_berthReset_admitted, resetBerth_eq, ?resetEnd, ?read, ?ack⟩
  case resetEnd =>
    intro s n b r h hr
    rw [exec_berthResetEnd_pending h hr]
    refine ⟨fun ⟨t, ht, hl⟩ => ?_, fun hl => ?_⟩
    · rw [if_pos (List.any_eq_true.2 ⟨t, ht, decide_eq_true hl⟩)]
    · rw [if_neg (by simpa using hl)]
  case read =>
    exact fun s n b m c h => capsule_answered (fun b c s csn => (s, deferredAnswer b c csn)) h
  case ack =>
    intro s n b m c h u named
    have he := exec_deferredAck_admitted h
    refine ⟨fun hn => he.trans ?_, fun hn ho => he.trans ?_⟩
    · rw [if_pos (by simpa [named] using hn)]
    · rw [if_neg (by rintro (k | ⟨k, l⟩); exacts [k hn, by simp [ho k] at l])]

end Sys2Proof.Machine
end

section
/-! PROOFS. Key-value commands: the statements of the family of chapter 05, each with the lemmas about the model's functions
that it rests on. -/

namespace Sys2Proof.Machine

/-! ### What a search and a read store (R201, R207, R335) -/

theorem enqueueMsg_pipes (s : State) (m : Msg) :
    ∃ p, enqueueMsg s m = { s with cipher := { s.cipher with pipes := p } } := by
  unfold enqueueMsg; split
  · exact ⟨_, rfl⟩
  · exact ⟨_, rfl⟩

/-- The messages of a read come to the pipelines, and nothing else changes (R335). -/
theorem enqueueSegments_pipes (s : State) (prio csn slot epoch ctr : Nat) (ns : List Nat) :
    ∃ p, enqueueSegments s prio csn slot epoch ctr ns = { s with cipher := { s.cipher with pipes := p } } := by
  unfold enqueueSegments
  generalize ns.zipIdx = l
  induction l generalizing s with
  | nil => exact ⟨_, rfl⟩
  | cons x l ih =>
    obtain ⟨p, hp⟩ := enqueueMsg_pipes s ⟨csn, prio, 0, (x.1 + 15) / 16, slot, epoch, ctr + x.2, s.sessionUs⟩
    rw [List.foldl_cons, hp]
    exact ih _

/-- A search of the hot-key banks stores nothing: a collision may count, and a soft error be mended (R208, R214). -/
theorem hotLook_searched (s : State) (q : Nat) (key : List Byte) (d : Nat) : OnlySearched s (hotLook s q key d) := by
  have hcoll : ∀ u : State, OnlySearched u (bump u A.CM_HOT_COLL) := fun u => (bump_frame _ _).searched
  have hsoft : ∀ (u : State) (a : Nat), OnlySearched u (softError u a A.CM_HOT_SOFT) := fun u a => softError_searched u a _
  have hhit : ∀ (u : State) (c : Prop) [Decidable c], OnlySearched u (if c then u else bump u A.CM_HOT_COLL) := by
    intro u c _; split
    · exact OnlySearched.refl u
    · exact hcoll u
  unfold hotLook; dsimp only
  split
  next => exact OnlySearched.refl s
  next a _ =>
    split
    next => exact hhit s _
    next =>
      split
      next => exact hsoft s a
      next b _ =>
        split
        next => exact (hsoft s a).trans (hhit _ _)
        next => exact (hsoft s a).trans (hsoft _ b)

/-! ### The key's state for a read (R157, R164, R166, R284) -/

section
variable {s : State} {x : Cmd} {key : List Byte}

theorem lookUp_unavailable {st : Status} (h : keyUnavailable s x.quay = some st) :
    lookUp s x key = (s, .error (readFail x st 0)) := by
  simp only [lookUp, h]

/-- A key never written, or deleted, is not found (R157). -/
theorem lookUp_absent (hk : keyUnavailable s x.quay = none)
    (h : ∀ i, newestItem s.flash.items x.quay key x.csn = some i → i.kind = .deletion) :
    lookUp s x key = (s, .error (readFail x .notFound 0)) := by
  cases hi : newestItem s.flash.items x.quay key x.csn with
  | none => simp only [lookUp, hk, hi]
  | some i => simp only [lookUp, hk, hi, h i hi]

variable {i : Item} (hk : keyUnavailable s x.quay = none) (hi : newestItem s.flash.items x.quay key x.csn = some i)
include hk hi

theorem lookUp_lost (h : i.kind = .lost) : lookUp s x key =
    (s, .error { readFail x (lostAs i) i.version with result := fit (beBytes i.lostLen 8) 16 }) := by
  simp only [lookUp, hk, hi, h, itemLen]

theorem lookUp_headLost (h : i.kind = .value) (hl : headLost i = true) :
    lookUp s x key = (markLost s i, .error (readFail x .media i.version)) := by
  simp only [lookUp, hk, hi, h, hl, if_true]

theorem lookUp_found (h : i.kind = .value) (hl : headLost i = false) : lookUp s x key = (s, .ok i) := by
  simp only [lookUp, hk, hi, h, hl, Bool.false_eq_true, if_false]

end

/-- Where the look-up ends the read, GET and EXISTS answer alike (R159, R164). -/
theorem runRead_ended {s t : State} {x : Cmd} {key : List Byte} {c : Completion} (h : lookUp s x key = (t, .error c))
    (off len : Nat) : runGet s x key off len = complete t x.berth c ∧ runExists s x key = complete t x.berth c := by
  simp only [runGet, runExists, h, and_self]

theorem runExists_found {s t : State} {x : Cmd} {key : List Byte} {i : Item} (h : lookUp s x key = (t, .ok i)) :
    runExists s x key = complete (hotRead t i) x.berth
      { Completion.plain x.opcode x.tag .ok x.csn with
        version := i.version
        result := fit (beBytes i.value.length 8) 16 } := by
  simp only [runExists, h]

/-! ### The range of a read (R159, R160, R348) -/

/-- A value of one segment, read whole, is that segment. -/
theorem rangeSegments_single {n : Nat} (h1 : 1 ≤ n) (h2 : n ≤ 65536) : rangeSegments 0 n = [0] := by
  have hd : (n - 1) / 65536 = 0 := by omega
  simp [rangeSegments, hd, Nat.not_le.2 h1]

/-- A range of one segment that is released answers with its bytes (R160). -/
theorem rangeReply_released {off stop k : Nat} (h : rangeSegments off stop = [k]) (x : Cmd) (i : Item) (total : Nat)
    (bytes : Nat → List Byte) : rangeReply x i off stop total none bytes =
      { Completion.plain x.opcode x.tag .ok x.csn with
        version := i.version
        result := fit (beBytes i.value.length 8) 16
        valueLen := (bytes k).length
        value := bytes k } := by
  simp [rangeReply, h]

/-- A range of one segment that is not released answers why, with no byte (R160, R348). -/
theorem rangeReply_withheld {off stop k : Nat} (h : rangeSegments off stop = [k]) (x : Cmd) (i : Item) (total : Nat)
    {st : Status} (hst : st ≠ .ok) (bytes : Nat → List Byte) : rangeReply x i off stop total (some (k, st)) bytes =
      { readFail x st i.version with result := fit (beBytes i.value.length 8) 16 } := by
  simp [rangeReply, h, hst]

/-- A segment on readable pages whose epoch its slot holds, with its word good and no parity fault, is released unless its tag
fails (R348, R359). -/
theorem segmentFate_readable {s : State} {x : Cmd} {i : Item} {k : Nat} (hl : segmentLost i k = false) (hb : k ∉ x.badSegs)
    (hp : s.flash.otp.lineage = false ∨ ∀ p ∈ x.parity, p.1 ≠ k) :
    segmentFate s x i true k = if k ∈ x.badTags then some .integrity else none := by
  have hpar : (s.flash.otp.lineage && x.parity.any (fun p => p.1 == k)) = false := by
    rcases hp with hp | hp
    · simp [hp]
    · simp [show x.parity.any (fun p => p.1 == k) = false by simpa using hp]
  simp [segmentFate, hl, hb, hpar]

/-- What ends a range of one segment is what that segment meets (R348). -/
theorem rangeEnd_single {off stop k : Nat} (h : rangeSegments off stop = [k]) (s : State) (x : Cmd) (i : Item) (held : Bool) :
    rangeEnd s x i off stop held = (segmentFate s x i held k).map (fun st => (k, st)) := by
  unfold rangeEnd
  rw [h]
  cases hf : segmentFate s x i held k <;> simp [hf]

/-- A tag that fails counts (R348). -/
theorem endRead_integrity {s : State} {x : Cmd} {k : Nat} (hb : k ∉ x.badSegs) (i : Item) :
    endRead s x i (some (k, .integrity)) = bump s A.CP_TAG_FAIL := by
  simp [endRead, hb]

section
variable {s : State} {x : Cmd} {key : List Byte} {i : Item}

/-- GET of a whole value of one segment: the segment comes to a pipeline as a message, and the answer is that of its range. -/
theorem runGet_single (h : lookUp s x key = (s, .ok i)) (h1 : 1 ≤ i.value.length) (h2 : i.value.length ≤ 65536) :
    let u := enqueueSegments s 1 x.csn (quaySlot s x.quay) i.epoch i.ctr [i.value.length]
    let ended := (segmentFate s x i (epochHeld s (quaySlot s x.quay) i.epoch) 0).map (fun st => (0, st))
    runGet s x key 0 0 = complete (endRead (hotRead u i) x i ended) x.berth
      (rangeReply x i 0 i.value.length i.value.length ended (fun k =>
        (i.value.drop (65536 * k)).take (min i.value.length (65536 * (k + 1)) - 65536 * k))) := by
  intro u ended
  have hr := rangeSegments_single h1 h2
  have hlen : segmentLen i.value.length 0 = i.value.length := by simp [segmentLen, h2]
  have hend : rangeEnd u x i 0 i.value.length (epochHeld u (quaySlot u x.quay) i.epoch) = ended := by
    obtain ⟨p, hp⟩ := enqueueSegments_pipes s 1 x.csn (quaySlot s x.quay) i.epoch i.ctr [i.value.length]
    simp only [u, hp]
    exact rangeEnd_single hr s x i _
  simp only [runGet, h, if_true, hr, List.map_cons, List.map_nil, hlen, Nat.zero_max, Nat.sub_zero]
  rw [← hend]

/-- GET of a whole value of one segment that is readable, but perhaps for its tag: its bytes, or E_INTEGRITY and no byte
(R159, R160, R348). -/
theorem runGet_readable (h : lookUp s x key = (s, .ok i)) (h1 : 1 ≤ i.value.length) (h2 : i.value.length ≤ 65536)
    (hl : segmentLost i 0 = false) (he : epochHeld s (quaySlot s x.quay) i.epoch = true) (hb : 0 ∉ x.badSegs)
    (hp : s.flash.otp.lineage = false ∨ ∀ p ∈ x.parity, p.1 ≠ 0) :
    let u := enqueueSegments s 1 x.csn (quaySlot s x.quay) i.epoch i.ctr [i.value.length]
    (0 ∉ x.badTags → runGet s x key 0 0 = complete (hotRead u i) x.berth
      { Completion.plain x.opcode x.tag .ok x.csn with
        version := i.version
        result := fit (beBytes i.value.length 8) 16
        valueLen := i.value.length
        value := i.value }) ∧
    (0 ∈ x.badTags → runGet s x key 0 0 = complete (bump (hotRead u i) A.CP_TAG_FAIL) x.berth
      { readFail x .integrity i.version with result := fit (beBytes i.value.length 8) 16 }) := by
  intro u
  have hr := rangeSegments_single h1 h2
  rw [runGet_single h h1 h2, he, segmentFate_readable hl hb hp]
  refine ⟨fun ht => ?_, fun ht => ?_⟩
  · rw [if_neg ht, Option.map_none, rangeReply_released hr]
    simp only [endRead, Nat.mul_zero, List.drop_zero, Nat.zero_add, Nat.mul_one, Nat.min_eq_left h2, Nat.sub_zero,
      List.take_length, u]
  · rw [if_pos ht, Option.map_some, rangeReply_withheld hr _ _ _ (by decide), endRead_integrity hb]

end

/-- Settles O21: what GET and EXISTS answer by what the look-up finds, and what searches and messages store. -/
theorem readResults : Obligations.ReadResults := by
  unfold Obligations.ReadResults
  refine ⟨?unavailable, ?absent, ?lost, ?headLost, ?found, ?get, hotLook_searched, enqueueSegments_pipes⟩
  case unavailable => exact fun s x key off len st hk => runRead_ended (lookUp_unavailable hk) off len
  case absent => exact fun s x key off len hk hd => runRead_ended (lookUp_absent hk hd) off len
  case lost => exact fun s x key off len i hk hi hl => runRead_ended (lookUp_lost hk hi hl) off len
  case headLost => exact fun s x key off len i hk hi hv hl => runRead_ended (lookUp_headLost hk hi hv hl) off len
  case found => exact fun s x key i hk hi hv hl => runExists_found (lookUp_found hk hi hv hl)
  case get =>
    intro s x key i hk hi hv hh hl he hb h1 h2 hp
    exact runGet_readable (lookUp_found hk hi hv hh) h1 h2 hl he hb hp

/-! ### TOW (R174, R437, R439, R441) -/

/-- An admitted TOW enters with the next CSN (R174). -/
theorem exec_tow_admitted (s : State) (n : Nat) (b : Berth) (m : Mooring) (c : Capsule) (bad : ReadFaults)
    (h : Admitted s n 0x09 b m c) :
    exec (.tow n bad) s = .next (decided (enterTow (admittedState s n c true) (towOf n c s.seqr.next bad))) := by
  show capsule s n 0x09 _ = _
  rw [capsule_admissible s n 0x09 _ b m c h.1]
  simp only [admitTow, admitTag_takeRequest]

/-- The TOW is on the drive's list. -/
def listTow (a : State) (x : Tow) : State := { a with harbour := { a.harbour with tows := a.harbour.tows ++ [x] } }

/-- A TOW is on a towline, which is used now (R441). -/
def boardTow (u : State) (x : Tow) (t : Nat) : State :=
  updTow (updTowline u t (fun z => { z with lastUse := u.sessionUs })) x.csn (fun z => { z with towline := some t })

/-- A TOW takes the towline to its destination, or has one opened (R437, R439). -/
theorem enterTow_eq (a : State) (x : Tow) : enterTow a x = (let u := listTow a x
    match towlineTo u x.dest with
    | some (t, y) => if y.st = .open then resumeAll (startTow (boardTow u x t) x.csn) else boardTow u x t
    | none => match openTowline u x.dest with
      | .error st => endTow (towFailed u (statusCode st) x.dest) x .retry x.windowStart
      | .ok (v, t) => updTow v x.csn (fun z => { z with towline := some t })) := rfl

/-- Settles O24: a TOW is admitted, and enters by the towline there is to its destination. -/
theorem towIsAdmitted : Obligations.TowIsAdmitted := by
  unfold Obligations.TowIsAdmitted
  refine ⟨exec_tow_admitted, fun a x => ⟨fun t y hl ho => ?opened, fun t y hl ho => ?waiting, fun v t hl ho => ?opening,
    fun st hl ho => ?refused⟩⟩
  all_goals rw [enterTow_eq]
  case opened => simp only [listTow, hl, ho, if_true, boardTow]
  case waiting => simp only [listTow, hl, ho, if_false, boardTow]
  case opening => simp only [listTow, hl, ho]
  case refused => simp only [listTow, hl, ho]

/-! ### Rules in the index (R182, R211, R213) -/

@[simp] theorem prefixLens_admittedState (s : State) (n : Nat) (c : Capsule) (k : Bool) (q : Nat) :
    prefixLens (admittedState s n c k) q = prefixLens s q := by
  simp only [prefixLens, rulesOf, admittedState_flash_rules]

/-- With room in its pair a rule takes the append offset, and its body the engine with the fewest (R211, R213). -/
theorem placeRule_of_room {s : State} {r : Rule} (h : tabGetD s.index.appendAt (r.quay % 2) 0 < 131072) :
    let o := tabGetD s.index.appendAt (r.quay % 2) 0
    placeRule s r = dropCells { s with index := { s.index with
      ruleEntries := s.index.ruleEntries ++ [{ offset := o, rule := r.id, engine := bodyEngine s }]
      appendAt := tabPut s.index.appendAt (r.quay % 2) (o + 1) } } (r.quay % 2) [o] := by
  simp only [placeRule, enterRule, Nat.not_le.2 h, if_false]

/-- The cells of a pair are dropped, and nothing else changes. -/
theorem dropCells_upsets (s : State) (k : Nat) (os : List Nat) :
    ∃ us, dropCells s k os = { s with index := { s.index with upsets := us } } := by
  unfold dropCells; split <;> exact ⟨_, rfl⟩

theorem foldl_dropCells_upsets (offsets : State → Nat → List Nat) (ks : List Nat) (s : State) :
    ∃ us, ks.foldl (fun s k => dropCells s k (offsets s k)) s = { s with index := { s.index with upsets := us } } := by
  induction ks generalizing s with
  | nil => exact ⟨_, rfl⟩
  | cons k ks ih =>
    obtain ⟨us, hu⟩ := dropCells_upsets s k (offsets s k)
    rw [List.foldl_cons, hu]
    exact ih _

/-- The rules named, and no others, leave the index; the append offsets stay (R182, R211). -/
theorem removeRules_index (s : State) (ids : List Nat) : ∃ ix, removeRules s ids = { s with index := ix } ∧
    ix.ruleEntries = s.index.ruleEntries.filter (fun e => !ids.contains e.rule) ∧ ix.appendAt = s.index.appendAt := by
  obtain ⟨us, hu⟩ := foldl_dropCells_upsets
    (fun s k => ((pairRules s k).filter (fun e => ids.contains e.rule)).map RuleEntry.offset) (List.range 2) s
  simp only [removeRules, hu]
  refine ⟨_, rfl, List.filter_congr fun e he => ?_, rfl⟩
  simp [he]

/-! ### RULE_PUT and RULE_DEL (R180, R182) -/

section
variable {s : State} {c : Capsule} (csn : Nat)

theorem rulePut_illegal (h : ruleLegal c.value = false) : rulePut s c csn = (s, statusOnly c csn .range) := by
  simp [rulePut, h]

/-- The rules of a quay have at most four lengths (R182). -/
theorem rulePut_fifthLength (h : ruleLegal c.value = true) (h4 : 4 ≤ (prefixLens s c.quay).length)
    (hn : beAt c.value 18 1 ∉ prefixLens s c.quay) : rulePut s c csn = (s, statusOnly c csn .range) := by
  simp [rulePut, h, h4, hn]

theorem rulePut_placed (h : ruleLegal c.value = true)
    (hl : (prefixLens s c.quay).length < 4 ∨ beAt c.value 18 1 ∈ prefixLens s c.quay) (ho : quayOpen s c.quay = true)
    (hr : s.flash.rules.length < 65536) (hid : s.flash.topRule + 1 ≤ 0xFFFFFFFF) :
    rulePut s c csn = (placeRule { s with flash := { s.flash with
        rules := s.flash.rules ++ [ruleOf (s.flash.topRule + 1) c.value]
        topRule := s.flash.topRule + 1 } } (ruleOf (s.flash.topRule + 1) c.value),
      { statusOnly c csn .ok with result := fit (beBytes (s.flash.topRule + 1) 4) 16 }) := by
  have hfit : ¬(4 ≤ (prefixLens s c.quay).length ∧ ¬(prefixLens s c.quay).contains (beAt c.value 18 1)) := by
    rintro ⟨h4, hn⟩
    exact hl.elim (Nat.not_lt.2 h4) (by simpa using hn)
  have hroom : ¬(65536 ≤ s.flash.rules.length ∨ 0xFFFFFFFF < s.flash.topRule + 1) := by omega
  simp only [rulePut, h, ho, hfit, hroom, Bool.not_true, Bool.false_eq_true, if_false]

theorem ruleDel_known (h : ∃ r ∈ s.flash.rules, r.id = c.param) : ruleDel s c csn = (let v := removeRules s [c.param]
    ({ v with flash := { v.flash with rules := v.flash.rules.filter (fun r => r.id != c.param) } },
      statusOnly c csn .ok)) :=
  if_pos (by simpa using h)

theorem ruleDel_unknown (h : ∀ r ∈ s.flash.rules, r.id ≠ c.param) :
    ruleDel s c csn = (s, statusOnly c csn .notFound) :=
  if_neg (by simpa using h)

end

/-- Settles O26: the rule commands by what their bodies and IDs are, and what the index keeps of rules placed and removed. -/
theorem ruleCommands : Obligations.RuleCommands := by
  unfold Obligations.RuleCommands
  refine ⟨?put, fun s r => placeRule_of_room, removeRules_index, ?del, ?read⟩
  case put =>
    intro s n b m c h u lens id
    have he := capsule_answered (fun _ c s csn => rulePut s c csn) h
    refine ⟨fun hl => he.trans ?_, fun hl h4 hn => he.trans ?_, fun hl hp ho hr hid => he.trans ?_⟩
    · rw [rulePut_illegal _ hl]
    · rw [rulePut_fifthLength _ hl (by rwa [prefixLens_admittedState]) (by rwa [prefixLens_admittedState])]
    · rw [rulePut_placed _ hl (by rwa [prefixLens_admittedState]) (by rwa [quayOpen_admittedState])
        (by rwa [admittedState_flash_rules]) (by rwa [admittedState_flash_topRule]), admittedState_flash_topRule]
  case del =>
    intro s n b m c h u
    have he := capsule_answered (fun _ c s csn => ruleDel s c csn) h
    refine ⟨fun hr => he.trans ?_, fun hr => he.trans ?_⟩
    · rw [ruleDel_known _ (by rwa [admittedState_flash_rules])]
    · rw [ruleDel_unknown _ (by rwa [admittedState_flash_rules])]
  case read =>
    intro s n b m c h found
    refine (capsule_answered (fun _ c s csn => ruleRead s c csn) h).trans ?_
    simp only [ruleRead, admittedState_flash_rules, found]

/-! ### Windows of a TOW (R440 to R443) -/

/-- The acknowledgement of an outstanding capsule: the capsule is off the list, or the TOW ends (R440, R441). -/
theorem exec_towAck_outstanding (s : State) (t status q d n : Nat) (l : Towline) (x : Tow) (hl : towlineOf s t = some l)
    (hup : towlineUp l = true) (hsrc : l.source = true)
    (hx : s.harbour.tows.find? (fun x => x.towline == some t && x.outstanding.contains q) = some x) :
    let u := updTowline s t (fun y => { y with lastUse := s.sessionUs })
    exec (.towAck t status q d n) s = .next (settle (resumeAll (
      if status = 0 then updTow u x.csn (fun y => { y with outstanding := y.outstanding.filter (fun k => k != q) })
      else endTow (towFailed u status x.dest) x .retry x.windowStart))) := by
  intro u
  show execTowAck t status q d n s = _
  simp only [execTowAck, hl, hx, hup, hsrc, not_true, or_self, if_false]
  split <;> rfl

/-- A TOW that ends with E_RETRY leaves the list and completes with the bucket that it has reached (R174). -/
theorem endTow_retry (s : State) (x : Tow) (cursor : Nat) : ∃ v c, endTow s x .retry cursor = complete v x.berth c ∧
    v.harbour.tows = s.harbour.tows.filter (fun y => y.csn != x.csn) ∧ v.berths = s.berths ∧ v.moorings = s.moorings ∧
    v.cmds = s.cmds ∧ c.opcode = 0x09 ∧ c.tag = x.tag ∧ c.status = statusCode .retry ∧ c.csn = x.csn ∧ c.valueLen = 48 ∧
    c.value = beBytes x.keys 8 ++ beBytes x.granules 8 ++ beBytes x.firstCsn 8 ++ beBytes x.lastCsn 8 ++ beBytes cursor 16 := by
  unfold endTow; dsimp only
  rw [if_pos rfl]
  refine ⟨_, _, rfl, ?_⟩
  cases x.towline <;> simp only [Completion.plain, towValue, and_self]

/-- A TOW_DATA at a drive whose sequencer is not stopped is answered with its refusal, or admitted (R442, R443). -/
theorem exec_towData_live (s : State) (t : Nat) (d : TowData) (l : Towline) (hl : towlineOf s t = some l)
    (hup : towlineUp l = true) (hsrc : l.source = false) (hs : s.seqr.stopped = false) :
    let u := updTowline s t (fun y => { y with lastUse := s.sessionUs })
    (∀ st, towRefusal u d = some st → exec (.towData t d) s = .next (settle (sendCapsule u (.towline t) 0 none
      ([0x72#8, 0#8] ++ beBytes (statusCode st) 2 ++ beBytes d.msgSeq 4 ++ beBytes 0 8 ++ beBytes 0 4)))) ∧
    (towRefusal u d = none → exec (.towData t d) s = .next (settle (admitTowData u t d))) := by
  intro u
  refine ⟨fun st hr => ?_, fun hr => ?_⟩
  all_goals
    show execTowData t d s = _
    simp only [execTowData, hl, hup, hsrc, hs, not_true, Bool.false_eq_true, or_self, if_false]
    rw [hr]; rfl

/-! ### The checks of a TOW_DATA (R442) -/

theorem towRefusal_of_form {s : State} {d : TowData} {st : Status} (h : towForm d = some st) : towRefusal s d = some st := by
  simp only [towRefusal, h, Option.orElse_some]

theorem towForm_count {d : TowData} (h : d.entries.length ≠ d.declared) : towForm d = some .badLength :=
  if_pos (Or.inl h)

theorem towForm_range {d : TowData} (hc : d.entries.length = d.declared) (hs : d.size ≤ 83886080)
    (h : d.declared = 0 ∨ 256 < d.declared ∨ d.reservedZero = false ∨ ¬(d.entries.map TowEntry.key).Nodup) :
    towForm d = some .range := by
  have hlen : ¬(d.entries.length ≠ d.declared ∨ 83886080 < d.size) := by omega
  unfold towForm
  rw [if_neg hlen, if_pos (by simpa using h)]

/-- In modes 2, 3 and 5 a TOW_DATA in good form is E_STATE (R442). -/
theorem towRefusal_mode {s : State} {d : TowData} (h : towForm d = none) (hb : s.seqr.barrier = false)
    (hm : s.mode.cur = 2 ∨ s.mode.cur = 3 ∨ s.mode.cur = 5) : towRefusal s d = some .state := by
  have hmode : (!serviceOpen s || s.mode.cur == 2 || s.mode.cur == 3 || s.mode.cur == 5) = true := by
    rcases hm with hm | hm | hm <;> simp [hm]
  simp only [towRefusal, h, hb, hmode, Bool.false_eq_true, if_false, if_true, Option.orElse_none, Option.orElse_some]

/-- Settles O60: the acknowledgement of a window's capsule, the end of a TOW, and what the destination does with a
TOW_DATA. -/
theorem towWindows : Obligations.TowWindows := by
  unfold Obligations.TowWindows
  refine ⟨exec_towAck_outstanding, endTow_retry, exec_towData_live, fun s t d => ⟨fun hc => ?_, fun hc hs h => ?_,
    fun h hb hm => towRefusal_mode h hb hm, ⟨_, rfl, rfl⟩⟩⟩
  · exact towRefusal_of_form (towForm_count hc)
  · exact towRefusal_of_form (towForm_range hc hs h)

end Sys2Proof.Machine
end

section
/-! PROOFS. The index and its searches: the statements of the family of chapter 06, each with the lemmas about the model's
functions that it rests on. -/

namespace Sys2Proof.Machine

/-! ### What a write of LB_CONTROL sets off (R373, R374, R377, R380) -/

/-- LB_CONTROL reads as zero, so that a bit sent to it stands alone in its word. -/
theorem exec_lbControl_bit {s : State} (h : regWord s false A.LB_CONTROL = 0) (m b : Nat) :
    exec (.registerWrite m A.LB_CONTROL (withBit s A.LB_CONTROL b)) s = exec (.registerWrite m A.LB_CONTROL (word (2 ^ b))) s := by
  have hw : withBit s A.LB_CONTROL b = word (2 ^ b) := by unfold withBit; rw [h]; exact BitVec.zero_or
  rw [hw]

/-- Only FREEZE keeps the completion of a write of LB_CONTROL waiting, and not on the SRAM ring (R373, R380). -/
theorem completionWaits_lbControl (s : State) (w : Word) :
    completionWaits s A.LB_CONTROL w = (bit w 29 && s.log.media != 3) := by
  simp [completionWaits, A.SY_MODE_REQ, A.LB_CONTROL]

theorem wordPlaced_media (s : State) (m addr : Nat) (w : Word) : (wordPlaced s m addr w).log.media = s.log.media := by
  obtain ⟨_, _, h⟩ := storeWord_frame m (takeCsn s).2 addr w
  unfold wordPlaced; rw [h]; rfl

theorem trigger_lbControl (s : State) (w : Word) (m csn : Nat) (tag : Option (Nat × Nat)) :
    trigger s A.LB_CONTROL w m csn tag = lbControl s w m csn tag := rfl

/-- A write of LB_CONTROL without FREEZE is done at once, as `lbControl` says. -/
theorem exec_lbControl_done {s t : State} {m : Nat} {x : Mooring} {w : Word} (h : WriteAccepted s m x A.LB_CONTROL w)
    (hf : bit w 29 = false) (ht : lbControl (wordPlaced s m A.LB_CONTROL w) w m s.seqr.next none = t) :
    exec (.registerWrite m A.LB_CONTROL w) s = .next (decided (writeDone t m s.seqr.next)) := by
  rw [exec_registerWrite_accepted s m x _ w h, completionWaits_lbControl, hf, trigger_lbControl, ht]; rfl

/-- The words of LB_CONTROL that carry one bit do that bit's work. -/
theorem lbControl_ack (s : State) (m csn : Nat) (tag : Option (Nat × Nat)) : lbControl s 0x80000000 m csn tag =
    logRecord { s with log := { s.log with unacked := false } } 0x000B (src 4 0) true (leBytes m 2) := by
  simp [lbControl, bit]

theorem lbControl_nonce (s : State) (m csn : Nat) (tag : Option (Nat × Nat)) : lbControl s 0x40000000 m csn tag =
    { s with
      draws := s.draws + 1
      log := { s.log with
        nonce := some { draw := s.draws, seq := s.log.nextSeq - 1, issuedAt := s.sessionUs }
        nonceDraw := some s.draws
        nonceSeq := s.log.nextSeq - 1 } } := by
  simp [lbControl, bit]

theorem lbControl_freeze {s : State} (h : s.log.media ≠ 3) (m csn : Nat) (tag : Option (Nat × Nat)) :
    lbControl s 0x20000000 m csn tag =
      logRecord { s with log := { s.log with
        frozen := some { owner := m, since := s.sessionUs }
        frozenSeq := s.log.nextSeq - 1
        freezeWait := some (m, csn, tag) } } 0x0009 (src 4 0) false (leBytes m 2 ++ leBytes (s.log.nextSeq - 1) 8) := by
  simp [lbControl, bit, h]

theorem lbControl_thaw (s : State) (m csn : Nat) (tag : Option (Nat × Nat)) :
    lbControl s 0x10000000 m csn tag = endFreeze s m 0 := by
  simp [lbControl, bit]

/-- FREEZE on flash waits for what was created before it (R373). -/
theorem exec_freeze_accepted {s : State} {m : Nat} {x : Mooring} (hz : regWord s false A.LB_CONTROL = 0) (hm : s.log.media ≠ 3)
    (h : WriteAccepted s m x A.LB_CONTROL 0x20000000) :
    exec (.freeze m) s = .next (decided (let u := wordPlaced s m A.LB_CONTROL 0x20000000
      reviewSpace (logRecord { u with log := { u.log with
          frozen := some { owner := m, since := u.sessionUs }
          frozenSeq := u.log.nextSeq - 1
          freezeWait := some (m, s.seqr.next, none) } } 0x0009 (src 4 0) false
        (leBytes m 2 ++ leBytes (u.log.nextSeq - 1) 8)))) := by
  have hc : completionWaits s A.LB_CONTROL 0x20000000 = true := by
    rw [completionWaits_lbControl]; simpa using ⟨by decide, hm⟩
  have he : exec (.freeze m) s = exec (.registerWrite m A.LB_CONTROL 0x20000000) s := exec_lbControl_bit hz m 29
  have hp : (wordPlaced s m A.LB_CONTROL 0x20000000).log.media ≠ 3 := by rw [wordPlaced_media]; exact hm
  rw [he, exec_registerWrite_accepted s m x _ _ h, hc, trigger_lbControl, lbControl_freeze hp]; rfl

/-! ### What a write of a flash channel's or an engine's page sets off (R243, R248, R332) -/

theorem blockOfPage_channel {c : Nat} (h : c < 64) : blockOfPage (0x10 + c) = 14 := by
  unfold blockOfPage
  iterate 13 rw [if_neg (by omega)]
  exact if_pos (by omega)

theorem blockOfPage_engine {e : Nat} (h : e < 64) : blockOfPage (0x50 + e) = 15 := by
  unfold blockOfPage
  iterate 14 rw [if_neg (by omega)]
  exact if_pos (by omega)

/-- A word past the system's pages, and no header's, works by its unit's page. -/
theorem trigger_unit {addr p o : Nat} (hd : addr / 0x1000 = p) (hm : addr % 0x1000 = o) (hp : 0x10 ≤ p) (ho : 0x40 ≤ o) (s : State)
    (w : Word) (m csn : Nat) (tag : Option (Nat × Nat)) : trigger s addr w m csn tag =
      if blockOfPage p = 14 ∧ o = 0xA4 ∧ bit w 31 then
        updDie s (16 * (p - 0x10) + bits w 27 24) (fun d => { d with calDue := true })
      else if blockOfPage p = 14 ∧ o = 0xBC ∧ bit w 31 then
        holdTest { regSet s (p * 0x1000 + 0xC4) (word (2 ^ 31)) with space := { s.space with
          diag := tabPut s.space.diag (p - 0x10) (regGet s (p * 0x1000 + 0xB8), bits w 9 8) } } (64 + (p - 0x10))
      else if blockOfPage p = 15 ∧ o = 0x64 ∧ bit w 31 then
        holdTest (updEngine s (p - 0x50) (fun e => { e with testing := true })) (p - 0x50)
      else s := by
  unfold trigger
  dsimp only [A.SY_MODE_REQ, A.SY_PWR_CTRL, A.CF_OVL_MODE, A.CF_BOOT_MODE, A.CF_DEFAULTS_ACCEPT, A.MO_KILL, A.MO_CERT_GEN_MIN,
    A.LB_CONTROL, A.CM_TEST, A.DR_CKPT, A.HB_CTRL, A.HB_ID]
  rw [hd, hm]
  iterate 15 rw [if_neg (by omega)]

theorem fcBase_offset (c : Nat) {o : Nat} (ho : o < 0x1000) :
    (fcBase c + o) / 0x1000 = 0x10 + c ∧ (fcBase c + o) % 0x1000 = o := by unfold fcBase; omega

/-- No register of a unit's page is the mode request or LB_CONTROL. -/
theorem unit_ne {addr : Nat} (h : 0x10000 ≤ addr) : addr ≠ A.SY_MODE_REQ ∧ addr ≠ A.LB_CONTROL := by
  unfold A.SY_MODE_REQ A.LB_CONTROL; omega

/-- CAL_START of a channel: the die named becomes due (R243). -/
theorem trigger_calStart {c d : Nat} {w : Word} (hc : c < 64) (hb : bit w 31 = true) (hd : bits w 27 24 = d) (s : State) (m csn : Nat)
    (tag : Option (Nat × Nat)) : trigger s (fcBase c + 0xA4) w m csn tag =
      updDie s (16 * c + d) (fun y => { y with calDue := true }) := by
  obtain ⟨hp, ho⟩ := fcBase_offset c (o := 0xA4) (by decide)
  rw [trigger_unit hp ho (by omega) (by decide), if_pos ⟨blockOfPage_channel hc, rfl, hb⟩, hd, Nat.add_sub_cancel_left]

/-- DIAG_START of a channel: the read is taken down, and shows as under way (R248). -/
theorem trigger_diagStart {c k : Nat} {w : Word} (hc : c < 64) (hb : bit w 31 = true) (hk : bits w 9 8 = k) (s : State) (m csn : Nat)
    (tag : Option (Nat × Nat)) : trigger s (fcBase c + 0xBC) w m csn tag =
      holdTest { regSet s (fcBase c + 0xC4) 0x80000000 with
        space := { s.space with diag := tabPut s.space.diag c (regGet s (fcBase c + 0xB8), k) } } (64 + c) := by
  obtain ⟨hp, ho⟩ := fcBase_offset c (o := 0xBC) (by decide)
  have hbase : (0x10 + c) * 0x1000 = fcBase c := by unfold fcBase; omega
  rw [trigger_unit hp ho (by omega) (by decide), if_neg (by omega), if_pos ⟨blockOfPage_channel hc, rfl, hb⟩, hk, hbase,
    Nat.add_sub_cancel_left]; rfl

/-- TEST_START of an engine: its test is under way (R332). -/
theorem trigger_testStart {e : Nat} {w : Word} (he : e < 64) (hb : bit w 31 = true) (s : State) (m csn : Nat)
    (tag : Option (Nat × Nat)) : trigger s (0x50064 + 0x1000 * e) w m csn tag =
      holdTest (updEngine s e (fun y => { y with testing := true })) e := by
  have hp : (0x50064 + 0x1000 * e) / 0x1000 = 0x50 + e := by omega
  have ho : (0x50064 + 0x1000 * e) % 0x1000 = 0x64 := by omega
  have h15 := blockOfPage_engine he
  rw [trigger_unit hp ho (by omega) (by decide), if_neg (by omega), if_neg (by omega), if_pos ⟨h15, rfl, hb⟩,
    Nat.add_sub_cancel_left]

/-- A test accepted while an activation has fired is held back (R331, R420). -/
theorem holdTest_by_activation (s : State) (k : Nat) : (activating s = false → holdTest s k = s) ∧
    (activating s = true → heldBack (holdTest s k) k = true ∧
      holdTest s k = { s with update := { s.update with held := k :: s.update.held } }) := by
  refine ⟨fun h => if_neg (by rw [h]; exact Bool.false_ne_true), fun h => ?_⟩
  have ht : holdTest s k = { s with update := { s.update with held := k :: s.update.held } } := if_pos h
  have ha : activating { s with update := { s.update with held := k :: s.update.held } } = true := h
  exact ⟨by rw [ht]; unfold heldBack; rw [ha]; simp, ht⟩

/-! ### What the other unit writes set off -/

/-- HB_CTRL begins a rebuild by its bit 31 and ends it by its bit 30 (R445). -/
theorem trigger_rebuildStart {w : Word} (hb : bit w 31 = true) (he : bit w 30 = false) (s : State) (m csn : Nat)
    (tag : Option (Nat × Nat)) : trigger s A.HB_CTRL w m csn tag =
      (let u := enterMode s 4 8 csn
       { u with mode := { u.mode with operatorRebuild := true } }) := by
  unfold trigger; rw [hb, he]; rfl

theorem exec_rebuildStart_accepted {s : State} {m : Nat} {x : Mooring} (he : bit (withBit s A.HB_CTRL 31) 30 = false)
    (h : WriteAccepted s m x A.HB_CTRL (withBit s A.HB_CTRL 31)) : exec (.rebuildStart m) s = .next (decided (
      let u := enterMode (wordPlaced s m A.HB_CTRL (withBit s A.HB_CTRL 31)) 4 8 s.seqr.next
      writeDone { u with mode := { u.mode with operatorRebuild := true } } m s.seqr.next)) := by
  have hb : bit (withBit s A.HB_CTRL 31) 31 = true := bit_withBit _ _ (by decide)
  have ht := trigger_rebuildStart hb he (wordPlaced s m A.HB_CTRL (withBit s A.HB_CTRL 31)) m s.seqr.next none
  have hx : exec (.rebuildStart m) s = exec (.registerWrite m A.HB_CTRL (withBit s A.HB_CTRL 31)) s := rfl
  rw [hx, exec_registerWrite_done h (by decide) (by decide) ht]

theorem trigger_rebuildEnd {w : Word} (hb : bit w 31 = false) (he : bit w 30 = true) (s : State) (m csn : Nat)
    (tag : Option (Nat × Nat)) : trigger s A.HB_CTRL w m csn tag =
      reviewRebuild { s with mode := { s.mode with operatorRebuild := false } } := by
  unfold trigger; rw [hb, he]; rfl

theorem trigger_cmTest {w : Word} (hb : bit w 31 = true) (s : State) (m csn : Nat) (tag : Option (Nat × Nat)) :
    trigger s A.CM_TEST w m csn tag = startBankTest s := by
  unfold trigger; rw [hb]; rfl

theorem trigger_checkpoint {w : Word} (hb : bit w 31 = true) (s : State) (m csn : Nat) (tag : Option (Nat × Nat)) :
    trigger s A.DR_CKPT w m csn tag = { s with space := { s.space with ckptQueued := true } } := by
  unfold trigger; rw [hb]; rfl

/-- COMMIT of page 6 commits the key group, and then the page's shadow (R58, R361). -/
theorem exec_keyCommit {s : State} {m : Nat} {x : Mooring} (h : WriteAccepted s m x 0x6010 1) :
    exec (.registerWrite m 0x6010 1) s = .next (decided (writeDone (let u := wordPlaced s m 0x6010 1
      shadowLive (keyCommit u ((List.range 8).map (fun i => mergedWord u 6 (A.CP_KEY_DATA + 4 * i)))) 6) m s.seqr.next)) :=
  exec_registerWrite_done h (by decide) (by decide) (trigger_pageCtrl (p := 6) (by decide) _ _ _ _ _)

/-- Settles O18: each write is a single write whose word does the work that the lemmas above give. -/
theorem unitControlWrites : Obligations.UnitControlWrites := by
  unfold Obligations.UnitControlWrites
  refine ⟨?test, ?cal, ?diag, ?engine, holdTest_by_activation, ?ckpt, ?ack, ?nonce, fun s m x => exec_freeze_accepted, ?thaw,
    fun s m x => exec_rebuildStart_accepted, ?finish, ?hbId, ?key⟩
  case test =>
    exact fun s m x h => exec_registerWrite_done h (by decide) (by decide) (trigger_cmTest (bit_withBit _ _ (by decide)) _ _ _ _)
  case cal =>
    intro s m c d x hc hd w h
    have hne := unit_ne (addr := fcBase c + 0xA4) (by unfold fcBase; omega)
    have he : exec (.fcCalStart m c d) s = exec (.registerWrite m (fcBase c + 0xA4) w) s := if_pos ⟨hc, hd⟩
    have hb : bit w 31 = true := by
      rw [bit_insertBits _ 27 24 d 31 (by decide) (by decide) (by decide) (by decide)]; exact bit_withBit _ _ (by decide)
    exact he.trans (exec_registerWrite_done h hne.1 hne.2
      (trigger_calStart hc hb (bits_insertBits _ 27 24 d (by decide) (by decide) hd) _ _ _ _))
  case diag =>
    intro s m c k x hc hk w h
    have hne := unit_ne (addr := fcBase c + 0xBC) (by unfold fcBase; omega)
    have he : exec (.fcDiagStart m c k) s = exec (.registerWrite m (fcBase c + 0xBC) w) s := if_pos ⟨hc, hk⟩
    have hb : bit w 31 = true := by
      rw [bit_insertBits _ 9 8 k 31 (by decide) (by decide) (by decide) (by decide)]; exact bit_withBit _ _ (by decide)
    exact he.trans (exec_registerWrite_done h hne.1 hne.2
      (trigger_diagStart hc hb (bits_insertBits _ 9 8 k (by decide) (by decide) hk) _ _ _ _))
  case engine =>
    intro s m e x he a h
    have hne := unit_ne (addr := a) (by omega)
    have ha : a = 0x50000 + 0x1000 * e + 0x64 := by omega
    have hx : exec (.enTestStart m e) s = exec (.registerWrite m a (withBit s a 31)) s := by rw [ha]; exact if_pos he
    exact hx.trans (exec_registerWrite_done h hne.1 hne.2 (trigger_testStart he (bit_withBit _ _ (by decide)) _ _ _ _))
  case ckpt =>
    exact fun s m x h => exec_registerWrite_done h (by decide) (by decide) (trigger_checkpoint (bit_withBit _ _ (by decide)) _ _ _ _)
  case ack => exact fun s m x hz h => (exec_lbControl_bit hz m 31).trans (exec_lbControl_done h rfl (lbControl_ack _ _ _ _))
  case nonce => exact fun s m x hz h => (exec_lbControl_bit hz m 30).trans (exec_lbControl_done h rfl (lbControl_nonce _ _ _ _))
  case thaw => exact fun s m x hz h => (exec_lbControl_bit hz m 28).trans (exec_lbControl_done h rfl (lbControl_thaw _ _ _ _))
  case finish =>
    intro s m x w hb h
    have he : bit w 30 = true := bit_withBit _ _ (by decide)
    exact exec_registerWrite_done h (by decide) (by decide) (trigger_rebuildEnd hb he _ _ _ _)
  case hbId => exact fun s m w x h => exec_registerWrite_done h (by decide) (by decide) rfl
  case key =>
    intro s m x h
    have commit : ∀ op, (keyGroup s).1 = op → concludeSeq (keyGroupWrite s m op) = exec (.registerWrite m 0x6010 1) s :=
      fun op ho => congrArg concludeSeq (keyGroupWrite_eq m ho)
    exact ⟨fun ho => (commit 1 ho).trans (exec_keyCommit h), fun ho => (commit 2 ho).trans (exec_keyCommit h),
      fun ho => (commit 3 ho).trans (exec_keyCommit h)⟩

/-! ### Room in the map cache (R194) -/

/-- Of two frames, the one used longest ago: the first, where they are as old. -/
def olderFrame (m : Option (Nat × Chain)) (c : Nat × Chain) : Option (Nat × Chain) := match m with
  | none => some c
  | some a => if c.2.usedAt < a.2.usedAt then some c else some a

theorem evictable_eq (s : State) (set : Nat) : evictable s set =
    ((framesIn s set).filter (fun c => c.2.pending.isEmpty && c.2.readers.isEmpty)).foldl olderFrame none := rfl

theorem olderFrame_older (m : Option (Nat × Chain)) (c : Nat × Chain) : ∃ a, olderFrame m c = some a ∧ (a = c ∨ m = some a) ∧
    a.2.usedAt ≤ c.2.usedAt ∧ ∀ b, m = some b → a.2.usedAt ≤ b.2.usedAt := by
  cases m with
  | none => exact ⟨c, rfl, .inl rfl, le_refl _, by simp⟩
  | some d =>
    by_cases h : c.2.usedAt < d.2.usedAt
    · exact ⟨c, if_pos h, .inl rfl, le_refl _, fun b hb => by cases hb; omega⟩
    · exact ⟨d, if_neg h, .inr rfl, by omega, fun b hb => by cases hb; exact le_refl _⟩

/-- What the search for the oldest frame finds stands among those searched, and none of them is older. -/
theorem foldl_olderFrame (l : Tab Chain) : ∀ (m : Option (Nat × Chain)) (a : Nat × Chain), l.foldl olderFrame m = some a →
    (m = some a ∨ a ∈ l) ∧ (∀ b, m = some b → a.2.usedAt ≤ b.2.usedAt) ∧ ∀ b ∈ l, a.2.usedAt ≤ b.2.usedAt := by
  induction l with
  | nil => rintro m a rfl; exact ⟨.inl rfl, fun b h => by cases h; exact le_refl _, by simp⟩
  | cons c l ih =>
    intro m a h
    obtain ⟨d, hd, hdm, hdc, hdb⟩ := olderFrame_older m c
    obtain ⟨hm, hb, hl⟩ := ih _ a h
    have had : a.2.usedAt ≤ d.2.usedAt := hb d hd
    refine ⟨?_, fun b h => had.trans (hdb b h), List.forall_mem_cons.2 ⟨had.trans hdc, hl⟩⟩
    rw [hd] at hm
    rcases hm with hm | hm
    · cases hm
      exact hdm.symm.imp_right (fun e : a = c => by rw [e]; exact List.mem_cons_self ..)
    · exact .inr (List.mem_cons_of_mem _ hm)

/-- The frame that is given up is one of the set that nothing pins, and the one used longest ago of those (R194). -/
theorem evictable_oldest {s : State} {set j : Nat} {c : Chain} (h : evictable s set = some (j, c)) :
    (j, c) ∈ framesIn s set ∧ c.pending = [] ∧ c.readers = [] ∧
    ∀ k d, (k, d) ∈ framesIn s set → d.pending = [] → d.readers = [] → c.usedAt ≤ d.usedAt := by
  rw [evictable_eq] at h
  obtain ⟨hm, -, hl⟩ := foldl_olderFrame _ _ _ h
  obtain ⟨hf, hu⟩ := List.mem_filter.1 (hm.resolve_left (by simp))
  rw [Bool.and_eq_true, List.isEmpty_iff, List.isEmpty_iff] at hu
  exact ⟨hf, hu.1, hu.2, fun k d hd hp hr => hl (k, d) (List.mem_filter.2 ⟨hd, by simp [hp, hr]⟩)⟩

theorem makeRoom_fits {s : State} {set n : Nat} (fuel : Nat) (h : waysIn s set + n ≤ 4) : makeRoom (fuel + 1) s set n = some s :=
  if_pos h

theorem makeRoom_clean {s : State} {set n j : Nat} {c : Chain} (fuel : Nat) (h : 4 < waysIn s set + n)
    (he : evictable s set = some (j, c)) (hc : c.dirtySince = none) : makeRoom (fuel + 1) s set n =
      makeRoom fuel { s with index := { s.index with chains := tabErase s.index.chains j } } set n := by
  rw [makeRoom, if_neg (by omega), he]; dsimp only; rw [hc]; rfl

theorem makeRoom_dirty {s : State} {set n j t : Nat} {c : Chain} (fuel : Nat) (h : 4 < waysIn s set + n)
    (he : evictable s set = some (j, c)) (hc : c.dirtySince = some t) : makeRoom (fuel + 1) s set n = none := by
  rw [makeRoom, if_neg (by omega), he]; dsimp only; rw [hc]; rfl

/-! ### The fetch of a chain (R194, R280) -/

theorem exec_leafFetch_of_room {s u : State} {b : Nat} {c : Chain} (hf : fetched s b = some c) (hl : live s = true)
    (hr : s.boot.readySpace = true) (h : makeRoom 5 s (b % cacheSets) (waysOf c) = some u) :
    exec (.leafFetch b) s = .next (settle (resumeAll (placeLeaf u b c))) := by
  show execLeafFetch b s = _
  unfold execLeafFetch
  rw [hf]; dsimp only; rw [hl, hr, h]; rfl

theorem exec_leafFetch_waits {s : State} {b : Nat} {c : Chain} (hf : fetched s b = some c) (hl : live s = true)
    (hr : s.boot.readySpace = true) (h : makeRoom 5 s (b % cacheSets) (waysOf c) = none) :
    exec (.leafFetch b) s = .next (settle s) := by
  show execLeafFetch b s = _
  unfold execLeafFetch
  rw [hf]; dsimp only; rw [hl, hr, h]; rfl

theorem dirtyLimit_frame (n : Nat) (s : State) : OnlyRegs s (dirtyLimit n s) := by
  unfold dirtyLimit; dsimp only; split
  · exact raise_frame _ _ _
  · exact OnlyRegs.refl s

/-- A chain that loses the entries of quays being erased keeps its pins and its age. -/
theorem cutErasing_pins (s : State) (c : Chain) : (cutErasing s c).fetching = c.fetching ∧ (cutErasing s c).usedAt = c.usedAt ∧
    (cutErasing s c).pending = c.pending ∧ (cutErasing s c).readers = c.readers := by
  unfold cutErasing; dsimp only; split <;> exact ⟨rfl, rfl, rfl, rfl⟩

theorem cutErasing_kept {s : State} {c : Chain} (h : ∀ l ∈ c.leaves, ∀ e ∈ l.entries, quayErasing s e.quay = false) :
    cutErasing s c = c := by
  have hg : (c.leaves.flatMap Leaf.entries).filter (fun e => quayErasing s e.quay) = [] := by
    rw [List.filter_eq_nil_iff]
    intro e he
    obtain ⟨l, hl, he⟩ := List.mem_flatMap.1 he
    rw [h l hl e he]; exact Bool.false_ne_true
  unfold cutErasing; dsimp only; rw [hg]; rfl

/-- A chain as it takes its frames. -/
def arrivedChain (s : State) (c : Chain) : Chain := { c with fetching := false, usedAt := s.sessionUs }

theorem placeLeaf_chains (s : State) (b : Nat) (c : Chain) : (placeLeaf s b c).index.chains =
    tabPut s.index.chains b (cutErasing s (arrivedChain s c)) := by
  unfold placeLeaf; rw [(dirtyLimit_frame _ _).index]; rfl

/-- A chain that has arrived is in its frames with its pins, used now; the others stand. -/
theorem placeLeaf_arrived (s : State) (b : Nat) (c : Chain) : ∃ x, tabGet (placeLeaf s b c).index.chains b = some x ∧
    x.fetching = false ∧ x.usedAt = s.sessionUs ∧ x.pending = c.pending ∧ x.readers = c.readers ∧
    ((∀ l ∈ c.leaves, ∀ e ∈ l.entries, quayErasing s e.quay = false) → x.leaves = c.leaves) ∧
    ∀ j, j ≠ b → tabGet (placeLeaf s b c).index.chains j = tabGet s.index.chains j := by
  obtain ⟨hf, hu, hp, hr⟩ := cutErasing_pins s (arrivedChain s c)
  refine ⟨cutErasing s (arrivedChain s c), ?_, hf, hu, hp, hr, fun h => ?_, fun j hj => ?_⟩
  · rw [placeLeaf_chains, tabGet_tabPut, if_pos rfl]
  · exact (congrArg Chain.leaves (cutErasing_kept (c := arrivedChain s c) h)).trans rfl
  · rw [placeLeaf_chains, tabGet_tabPut, if_neg (Ne.symm hj)]

/-! ### The write-back of a chain (R196, R197, R240, R274) -/

theorem exec_chainWriteback_due {s u : State} {b id : Nat} {c : Chain} (ok : Bool) (hc : tabGet s.index.chains b = some c)
    (hl : live s = true) (hh : s.power.holdUpReady = true) (hf : c.fetching = false) (hw : writebackDue s b c = true)
    (hr : roomIn s .index (64 * c.leaves.length) = some (u, id)) :
    exec (.chainWriteback ⟨b, ok⟩) s = .next (settle (if ok then writeBack u b c id else copyFailed u id)) := by
  show execChainWriteback ⟨b, ok⟩ s = _
  unfold execChainWriteback
  dsimp only
  rw [hc]; dsimp only; rw [hl, hh, hf, hw, hr]; rfl

/-- No pending change of a chain lies below its CLEAN_CSN (R196). -/
theorem cleanNow_le_pending (s : State) {c : Chain} {q : Nat} (h : q ∈ c.pending) : cleanNow s c ≤ q := by
  unfold cleanNow
  rw [listMin?_eq_min?]
  obtain ⟨m, hm⟩ := Option.isSome_iff_exists.1 (List.isSome_min?_of_mem h)
  rw [hm]
  exact (min_le_right _ _).trans ((List.min?_eq_some_iff.1 hm).2 q h)

theorem cleanNow_le_next (s : State) (c : Chain) : cleanNow s c ≤ s.seqr.next := min_le_left _ _

/-- What a written chain leaves in its frames: it is clean, of the next generation (R196). -/
def writtenChain (s : State) (c : Chain) : Chain :=
  { c with leaves := c.leaves.map (fun l => { l with dirty := false }), dirtySince := none, cleanCsn := cleanNow s c,
           generation := c.generation + 1 }

/-- What a written chain leaves on its set (R188). -/
def writtenCopy (s : State) (c : Chain) (id : Nat) (locs : List Nat) : LeafCopy :=
  { cleanCsn := cleanNow s c, generation := c.generation + 1, setId := id, locs := locs, leaves := c.leaves.map Leaf.entries }

theorem leafMoved_programmed (s : State) (b : Nat) : OnlyProgrammed s (leafMoved s b) := by
  unfold leafMoved; split
  · exact updSet_programmed _ _ _
  · exact OnlyProgrammed.refl s

/-- A write-back programs its leaves, and then places the chain, its copy and its word of the directory. -/
theorem writeBack_frame (s : State) (b id : Nat) (c : Chain) : ∃ u locs sets, OnlyPacked s u ∧ writeBack s b c id =
    { u with
      index := { u.index with
        chains := tabPut u.index.chains b (writtenChain s c)
        dir := tabPut u.index.dir b (locs.headD 0) }
      flash := { u.flash with
        leaves := tabPut u.flash.leaves b (tabGetD u.flash.leaves b [] ++ [writtenCopy s c id locs])
        sets := sets } } :=
  ⟨_, _, _, (leafMoved_programmed s b).packed.trans (packLeaves_packed id b (c.generation + 1) (cleanNow s c) c.leaves 0 _), rfl⟩

theorem writeBack_placed (s : State) (b id : Nat) (c : Chain) :
    tabGet (writeBack s b c id).index.chains b = some (writtenChain s c) ∧
    (∃ locs, tabGet (writeBack s b c id).flash.leaves b = some (tabGetD s.flash.leaves b [] ++ [writtenCopy s c id locs]) ∧
      tabGet (writeBack s b c id).index.dir b = some (locs.headD 0)) ∧
    (writeBack s b c id).flash.items = s.flash.items ∧ (writeBack s b c id).flash.quays = s.flash.quays := by
  obtain ⟨_, locs, sets, ⟨_, _, _, _, _, _, rfl⟩, h⟩ := writeBack_frame s b id c
  rw [h]
  exact ⟨by simp, ⟨locs, by simp, by simp⟩, rfl, rfl⟩

/-! ### The bytes of a leaf (R189, R190) -/

theorem leafEntryBytes_fields (e : LeafEntry) : leafEntryBytes e =
    leBytes e.digest 16 ++ (leBytes e.loc 8 ++ (leBytes e.version 8 ++ leBytes (entryMeta e) 8)) := by
  simp only [leafEntryBytes, List.append_assoc]

theorem leafEntryBytes_length (e : LeafEntry) : (leafEntryBytes e).length = 40 := by
  simp [leafEntryBytes, leBytes_len]

/-- A field of an entry, after the bytes before it. -/
theorem leAt_leafEntryBytes {e : LeafEntry} {a b : List Byte} {n k off : Nat} (h : leafEntryBytes e = a ++ (leBytes n k ++ b))
    (hoff : a.length = off) : leAt (leafEntryBytes e) off k = n % 256 ^ k := by
  rw [h, ← hoff]; exact leAt_append a b n k

theorem leafEntryBytes_read (e : LeafEntry) : leAt (leafEntryBytes e) 0 16 = e.digest % 2 ^ 128 ∧
    leAt (leafEntryBytes e) 16 8 = e.loc % 2 ^ 64 ∧ leAt (leafEntryBytes e) 24 8 = e.version % 2 ^ 64 := by
  have h16 : 2 ^ 128 = 256 ^ 16 := by norm_num
  have h8 : 2 ^ 64 = 256 ^ 8 := by norm_num
  rw [h16, h8]
  exact ⟨leAt_leafEntryBytes ((leafEntryBytes_fields e).trans (List.nil_append _).symm) rfl,
    leAt_leafEntryBytes (leafEntryBytes_fields e) (leBytes_len _ _),
    leAt_leafEntryBytes (a := leBytes e.digest 16 ++ leBytes e.loc 8) (b := leBytes (entryMeta e) 8)
      (by simp only [leafEntryBytes_fields, List.append_assoc]) (by simp [leBytes_len])⟩

theorem leafHead_length (b depth count g clean : Nat) (next : Option Nat) : (leafHead b depth count g clean next).length = 92 := by
  simp [leafHead, leBytes_len, zeroBytes]

/-- A leaf is its head, the CRC of head and entries, and its entries (R188). -/
theorem leafBytes_layout (b depth g clean : Nat) (next : Option Nat) (es : List LeafEntry) :
    (leafBytes b depth g clean next es).length = 4096 ∧
    (leafBytes b depth g clean next es).take 96 = leafHead b depth es.length g clean next ++
      leBytes (crc32c (leafHead b depth es.length g clean next ++ fit (es.flatMap leafEntryBytes) 4000)) 4 := by
  unfold leafBytes
  dsimp only
  generalize crc32c _ = k
  exact ⟨by simp [leafHead_length, leBytes_len, fit_len], List.take_left' (by simp [leafHead_length, leBytes_len])⟩

/-! ### The entries of a chain (R190) -/

/-- The model's sum is the library's. -/
theorem listSum_eq_sum (xs : List Nat) : listSum xs = xs.sum := List.sum_eq_foldl.symm

theorem leafInsert_length (e : LeafEntry) (es : List LeafEntry) : (leafInsert e es).length = es.length + 1 := by
  induction es with
  | nil => rfl
  | cons x es ih =>
    unfold leafInsert; split
    · rfl
    · simp [ih]

theorem chainAdd_room {e : LeafEntry} {l : Leaf} (h : l.entries.length < 100) (ls : List Leaf) :
    chainAdd e (l :: ls) = { entries := leafInsert e l.entries, dirty := true } :: ls := if_pos h

theorem chainAdd_full {e : LeafEntry} {l : Leaf} (h : 100 ≤ l.entries.length) (ls : List Leaf) :
    chainAdd e (l :: ls) = { l with dirty := l.dirty || ls.isEmpty } :: chainAdd e ls := if_neg (by omega)

/-- An entry for which some leaf has room begins no leaf. -/
theorem chainAdd_length {e : LeafEntry} {ls : List Leaf} (h : ∃ l ∈ ls, l.entries.length < 100) :
    (chainAdd e ls).length = ls.length := by
  induction ls with
  | nil => simp at h
  | cons l ls ih =>
    rcases Nat.lt_or_ge l.entries.length 100 with hl | hl
    · rw [chainAdd_room hl]; rfl
    · obtain ⟨x, hx, hlt⟩ := h
      have hx : x ∈ ls := (List.mem_cons.1 hx).resolve_left (fun he => by subst he; omega)
      rw [chainAdd_full hl, List.length_cons, ih ⟨x, hx, hlt⟩, List.length_cons]

/-- Where every leaf is full the entry begins a new one, and the last leaf names it: counted from `k` on. -/
theorem chainAdd_begins {e : LeafEntry} {ls : List Leaf} (h : ∀ l ∈ ls, 100 ≤ l.entries.length) (k : Nat) :
    chainAdd e ls = ((ls.zipIdx k).map (fun p => { p.1 with dirty := p.1.dirty || p.2 + 1 == k + ls.length })) ++
      [{ entries := [e], dirty := true }] := by
  induction ls generalizing k with
  | nil => rfl
  | cons l ls ih =>
    have hlast : ls.isEmpty = (k + 1 == k + (l :: ls).length) := by cases ls <;> simp
    have hlen : k + 1 + ls.length = k + (l :: ls).length := by rw [List.length_cons]; omega
    rw [chainAdd_full (h l (List.mem_cons_self ..)), ih (fun x hx => h x (List.mem_cons_of_mem _ hx)) (k + 1), hlast, hlen]
    rfl

theorem chainAdd_entries (e : LeafEntry) (ls : List Leaf) :
    listSum ((chainAdd e ls).map (fun l => l.entries.length)) = listSum (ls.map (fun l => l.entries.length)) + 1 := by
  rw [listSum_eq_sum, listSum_eq_sum]
  induction ls with
  | nil => rfl
  | cons l ls ih =>
    rcases Nat.lt_or_ge l.entries.length 100 with hl | hl
    · simp only [chainAdd_room hl, List.map_cons, List.sum_cons, leafInsert_length]; omega
    · simp only [chainAdd_full hl, List.map_cons, List.sum_cons, ih]; omega

/-! ### The scrub of the index dies (R219) -/

/-- What a cell should hold, its bank's class and when it was last read do not depend on what has struck it. -/
theorem strikeCell_frame (s : State) (addr : Nat) (flips : BitVec 160) :
    ∃ u, strikeCell s addr flips = { s with index := { s.index with upsets := u } } := by
  unfold strikeCell; split <;> exact ⟨_, rfl⟩

theorem cellAt_rewriteCell (s : State) (addr : Nat) : cellAt (rewriteCell s addr) addr = tableCell s addr := by
  have ht : tabGet (rewriteCell s addr).index.upsets addr = none := by simp [rewriteCell]
  unfold cellAt tabGetD; rw [ht]; rfl

theorem cellAt_strikeCell (s : State) (addr : Nat) (flips : BitVec 160) :
    cellAt (strikeCell s addr flips) addr = cellAt s addr ^^^ flips := by
  by_cases h : flips = 0
  · rw [h, strikeCell, if_pos rfl]; exact BitVec.xor_zero.symm
  · have hs : strikeCell s addr flips =
        { s with index := { s.index with upsets := tabPut s.index.upsets addr (cellAt s addr ^^^ flips) } } := if_neg h
    rw [hs, cellAt, tabGetD, tabGet_tabPut, if_pos rfl]; rfl

/-- The scrub of a valid entry, in the state in which the upsets have struck it. -/
theorem exec_indexScrub_struck {s : State} {bank off : Nat} (flips : BitVec 160) (hl : live s = true)
    (hu : s.boot.readyUnits = true) (hb : 1 ≤ s.index.banks.getD bank 0) (he : entryAt s bank off = true) :
    exec (.indexScrub bank off flips) s = .next (settle (
    let u := strikeCell s (131072 * bank + off) flips
    let v := { u with index := { u.index with
      scrubAt := s.sessionUs
      scrubbed := tabPut u.index.scrubbed (131072 * bank + off) s.poweredUs } }
    if scrubDue s bank (131072 * bank + off) = true ∧ s.seqr.barrier = false then
      if cellAt u (131072 * bank + off) = tableCell s (131072 * bank + off) then v
      else softError v (131072 * bank + off) (softCounter s bank)
    else u)) := by
  show execIndexScrub bank off flips s = _
  obtain ⟨x, hx⟩ := strikeCell_frame s (131072 * bank + off) flips
  unfold execIndexScrub
  dsimp only
  rw [if_pos (by rw [hl, hu, he, decide_eq_true hb]; rfl), hx]
  have hd : (scrubDue { s with index := { s.index with upsets := x } } bank (131072 * bank + off) &&
      mayBegin { s with index := { s.index with upsets := x } }) = true ↔
      scrubDue s bank (131072 * bank + off) = true ∧ s.seqr.barrier = false := by
    rw [Bool.and_eq_true, mayBegin, Bool.not_eq_true']; rfl
  rw [if_congr hd rfl rfl]
  split
  · rfl
  · rfl

/-! ### Bank tests (R220) -/

/-- A test that is under way, or begun since it is due, moves its bank to its spare. -/
theorem exec_bankTest_migrates {s u : State} {t : BankTest} (hl : live s = true) (hu : s.boot.readyUnits = true)
    (hp : s.index.powered = true) (ha : activating s = false)
    (hs : (if (s.index.test.isNone && testDue s) = true then startBankTest s else s) = u) (ht : u.index.test = some t)
    (hc : u.index.banks.getD t.bank 0 ≠ 5) : exec .bankTest s = .next (settle (migrateBank u t)) := by
  show execBankTest s = _
  unfold execBankTest
  rw [if_pos (by rw [hl, hu, hp, ha]; rfl), hs]
  dsimp only
  rw [ht]
  exact if_neg hc

/-- The state in which a test has ended, and its end shows (R220). -/
def bankTested (s : State) (t : BankTest) : State :=
  raise { s with index := { s.index with
    test := none
    lastTested := t.bank
    testedAt := tabPut s.index.testedAt t.bank s.poweredUs } } 7 2

theorem exec_bankTestEnd_tested {s : State} {t : BankTest} (pass : Bool) (hl : live s = true) (ht : s.index.test = some t)
    (hc : s.index.banks.getD t.bank 0 = 5) : exec (.bankTestEnd pass) s = .next (settle (
      let u := if pass then bankTested s t else faultAct (bankTested s t) 6 t.bank 0
      if u.index.banks.getD t.bank 0 = 5 then setBankClass u t.bank 4 else u)) := by
  show execBankTestEnd pass s = _
  unfold execBankTestEnd
  rw [ht]
  exact if_pos (by rw [hl, hc]; rfl)

theorem bankTested_banks (s : State) (t : BankTest) : (bankTested s t).index.banks = s.index.banks := by
  unfold bankTested; rw [raise_index]

/-! ### Engine self-tests (R331, R332, R420) -/

theorem heldBack_iff (s : State) (k : Nat) : heldBack s k = true ↔ activating s = true ∧ k ∈ s.update.held := by
  unfold heldBack; rw [Bool.and_eq_true, List.contains_iff_mem]

theorem exec_engineTestEnd_held {s : State} {n : Nat} (ok : Bool) (ha : activating s = true) (hn : n ∈ s.update.held) :
    exec (.engineTestEnd n ok) s = .next (settle s) := by
  have hh : heldBack s n = true := (heldBack_iff s n).2 ⟨ha, hn⟩
  exact if_neg (by rw [hh, Bool.not_true, Bool.and_false]; exact Bool.false_ne_true)

theorem exec_engineTestEnd_tested {s : State} {n : Nat} (ok : Bool) (hl : live s = true) (ht : (engineOf s n).testing = true)
    (hc : engineCmds s n = []) (hh : activating s = true → n ∉ s.update.held) : exec (.engineTestEnd n ok) s = .next (settle (
      let u := fieldSet (raise (updEngine s n (fun e => { e with testing := false })) (0x50 + n) 0) (0x50064 + 0x1000 * n) 1 0
        (if ok then 1 else 2)
      if ok then u else faultAct u 0 n 0)) := by
  have hb : heldBack s n = false := Bool.eq_false_iff.2 (fun h => hh ((heldBack_iff s n).1 h).1 ((heldBack_iff s n).1 h).2)
  exact if_pos (by rw [hl, ht, hc, hb]; rfl)

/-- Settles O37: the index's commands, clause by clause from the lemmas above. -/
theorem indexCommands : Obligations.IndexCommands := by
  unfold Obligations.IndexCommands
  refine ⟨fun s b c hf hl hr => ⟨fun u => exec_leafFetch_of_room hf hl hr, exec_leafFetch_waits hf hl hr⟩,
    fun s fuel set n => ⟨makeRoom_fits fuel, fun j c h he => ⟨makeRoom_clean fuel h he, fun t => makeRoom_dirty fuel h he⟩⟩,
    fun s set j c => evictable_oldest, placeLeaf_arrived, ?due, ?written, fun e => ⟨leafEntryBytes_length e, leafEntryBytes_read e⟩,
    leafBytes_layout, fun e ls => ⟨chainAdd_length, ?begins, chainAdd_entries e ls⟩, ?scrub,
    fun s addr flips => ⟨cellAt_rewriteCell s addr, cellAt_strikeCell s addr flips⟩, ?migrate, ?dueTest, ?tested,
    fun s n ok => exec_engineTestEnd_held ok,
    fun s n hl ht hc hh => ⟨exec_engineTestEnd_tested true hl ht hc hh, exec_engineTestEnd_tested false hl ht hc hh⟩⟩
  case due =>
    exact fun s u b id c hc hl hh hf hw hr =>
      ⟨exec_chainWriteback_due true hc hl hh hf hw hr, exec_chainWriteback_due false hc hl hh hf hw hr⟩
  case written =>
    intro s b id c
    obtain ⟨hc, ⟨locs, hl, hd⟩, hi, hq⟩ := writeBack_placed s b id c
    have hp : ∀ q ∈ c.pending, cleanNow s c ≤ q := fun q => cleanNow_le_pending s
    refine ⟨⟨_, hc, rfl, rfl, hp, cleanNow_le_next s c, rfl, ?_, ?_⟩,
      ⟨_, hl, rfl, rfl, rfl, hp, cleanNow_le_next s c, hd⟩, hi, hq⟩
    · exact List.map_map
    · intro l hl
      obtain ⟨x, -, rfl⟩ := List.mem_map.1 hl
      rfl
  case begins =>
    intro h
    rw [chainAdd_begins h 0, Nat.zero_add]
  case scrub =>
    intro s bank off flips hl hu hb he
    have hx := exec_indexScrub_struck flips hl hu hb he
    refine ⟨fun h => hx.trans ?_, fun hd hm hc => hx.trans ?_, fun hd hm hc => hx.trans ?_⟩
    · exact congrArg (fun t => Host.Outcome.next (settle t)) (if_neg (by rcases h with h | h <;> simp [h]))
    · exact congrArg (fun t => Host.Outcome.next (settle t)) ((if_pos ⟨hd, hm⟩).trans (if_pos hc))
    · exact congrArg (fun t => Host.Outcome.next (settle t)) ((if_pos ⟨hd, hm⟩).trans (if_neg hc))
  case migrate =>
    exact fun s t hl hu hp ha ht => exec_bankTest_migrates hl hu hp ha (by rw [ht]; rfl) ht
  case dueTest =>
    exact fun s t hl hu hp ha hn hd => exec_bankTest_migrates hl hu hp ha (if_pos (by rw [hn, hd]; rfl))
  case tested =>
    intro s t hl ht hc
    refine ⟨(exec_bankTestEnd_tested true hl ht hc).trans ?_, exec_bankTestEnd_tested false hl ht hc⟩
    exact congrArg (fun t => Host.Outcome.next (settle t)) (if_pos (by rw [← hc, ← bankTested_banks s t]; rfl))

end Sys2Proof.Machine
end

section
/-! PROOFS. The flash array: the statements of the family of chapter 07, each with the lemmas about the model's functions that
it rests on. -/

namespace Sys2Proof.Machine

/-! ### The copies of the OTP row (R244, R245) -/

theorem factoryCopy_eq_none_iff (s : State) : factoryCopy s = none ↔
    factoryOk s s.flash.row0 = factoryOk s s.flash.row512 ∧
      (factoryOk s s.flash.row0 = true → factoryBytes s s.flash.row0 ≠ factoryBytes s s.flash.row512) := by
  unfold factoryCopy; dsimp only
  cases factoryOk s s.flash.row0 <;> cases factoryOk s s.flash.row512 <;> simp

theorem factoryCopy_of_first {s : State} (h0 : factoryOk s s.flash.row0 = true) (h1 : factoryOk s s.flash.row512 = false) :
    factoryCopy s = some s.flash.row0 := by
  unfold factoryCopy; dsimp only; rw [h0, h1]

/-- A copy whose FACTORY_CRC fails gives no field: what stands comes from the other. -/
theorem factoryCopy_of_second {s : State} {r : OtpRow} (h0 : factoryOk s s.flash.row0 = false) (h : factoryCopy s = some r) :
    r = s.flash.row512 := by
  unfold factoryCopy at h; dsimp only at h
  rw [h0] at h
  cases h1 : factoryOk s s.flash.row512 <;> rw [h1] at h
  · cases h
  · exact (Option.some.inj h).symm

theorem otpImage_eq_none_iff (s : State) : otpImage s = none ↔ factoryCopy s = none := Option.map_eq_none_iff

/-- Highest ROLLBACK position programmed plus one, of the bits that at least one copy has programmed. -/
def rollbackFloor (s : State) : Nat :=
  let back := programmed 128 s.flash.row0.rollback s.flash.row512.rollback
  if back = 0 then 0 else Nat.log2 back + 1

/-- What an image is made of. -/
theorem otpImage_fields {s : State} {o : Otp} (h : otpImage s = some o) : ∃ r, factoryCopy s = some r ∧
    (o.serial = r.serial ∧ o.lot = r.lot ∧ o.macBase = r.macBase) ∧ o.roots = (List.range 4).map (rootImage s) ∧
    o.secVersion = rollbackFloor s := by
  obtain ⟨r, hr, rfl⟩ := Option.map_eq_some_iff.1 h
  exact ⟨r, hr, ⟨rfl, rfl, rfl⟩, rfl, rfl⟩

theorem rootImage_of_both {s : State} {k a b : Nat} (h0 : rootOf s.flash.row0 k = some a) (h1 : rootOf s.flash.row512 k = some b) :
    rootImage s k = if a = b then some a else none := by
  unfold rootImage rootSplit
  by_cases h : a = b <;> simp [h0, h1, h]

theorem rootImage_of_first {s : State} {k : Nat} (h : rootOf s.flash.row512 k = none) : rootImage s k = rootOf s.flash.row0 k := by
  unfold rootImage rootSplit
  cases h0 : rootOf s.flash.row0 k <;> simp [h]

theorem rootImage_of_second {s : State} {k : Nat} (h : rootOf s.flash.row0 k = none) : rootImage s k = rootOf s.flash.row512 k := by
  simp [rootImage, rootSplit, h]

/-- A bit counts as programmed when the first copy has it. -/
theorem testBit_programmed {n a k : Nat} (b : Nat) (hk : k < n) (ha : a.testBit k = false) : (programmed n a b).testBit k = true := by
  simp [programmed, Nat.testBit_xor, Nat.testBit_two_pow_sub_one, Nat.testBit_mod_two_pow, hk, ha]

theorem lt_rollbackFloor {s : State} {n : Nat} (hn : n < 128) (h : s.flash.row0.rollback.testBit n = false) : n < rollbackFloor s := by
  have hb := Nat.ge_two_pow_of_testBit (testBit_programmed s.flash.row512.rollback hn h)
  have h0 : programmed 128 s.flash.row0.rollback s.flash.row512.rollback ≠ 0 :=
    Nat.ne_of_gt (Nat.lt_of_lt_of_le (Nat.two_pow_pos n) hb)
  unfold rollbackFloor; dsimp only
  rw [if_neg h0]
  exact Nat.lt_succ_of_le ((Nat.le_log2 h0).2 hb)

/-! ### Programming the OTP row (R246) -/

/-- Programming clears bits of a field and sets none. -/
theorem burn_clears (o : Otp) (r : OtpRow) : (burn o r).rollback &&& r.rollback = (burn o r).rollback ∧
    (burn o r).lineage &&& r.lineage = (burn o r).lineage ∧ (burn o r).debug &&& r.debug = (burn o r).debug := by
  refine ⟨Nat.eq_of_testBit_eq fun i => ?_, ?_, ?_⟩
  · simp only [burn, Nat.testBit_and, Nat.testBit_xor]
    cases r.rollback.testBit i <;> simp
  · show r.lineage &&& lineageByte o &&& r.lineage = _
    rw [Nat.and_right_comm, Nat.and_self]; rfl
  · show r.debug &&& debugByte o &&& r.debug = _
    rw [Nat.and_right_comm, Nat.and_self]; rfl

/-! ### Bank markers (R407) -/

/-- The bytes of a marker that MARKER_CRC covers. -/
def markerHead (b : Banks) : List Byte :=
  leBytes 0x424B4D39 4 ++ (leBytes b.active 1 ++ ([0, 0, 0] ++ (leBytes b.generation 4 ++ (leBytes b.switchBoot 4 ++
    (leBytes b.release 4 ++ beBytes b.setDigest 48)))))

theorem markerBytes_eq (b : Banks) : markerBytes b = markerHead b ++ leBytes (crc32c (markerHead b)) 4 := by
  simp only [markerBytes, markerHead, List.append_assoc]

theorem markerHead_length (b : Banks) : (markerHead b).length = 0x44 := by
  simp [markerHead, leBytes_len, beBytes_len]

/-- A page that a marker is programmed in begins with the marker's bytes. -/
theorem markerPage_data (m : PageMeta) (b : Banks) : ∃ rest, (Page.of m (markerBytes b)).data =
    markerHead b ++ (leBytes (crc32c (markerHead b)) 4 ++ rest) := by
  have hl : (markerBytes b).length ≤ 16384 := by rw [markerBytes_eq]; simp [markerHead_length, leBytes_len]
  refine ⟨zeroBytes (16384 - (markerBytes b).length), ?_⟩
  show fit (markerBytes b) 16384 = _
  unfold fit
  rw [List.take_of_length_le hl, ← List.append_assoc, ← markerBytes_eq]

/-- Past a field stand the bytes after it. -/
theorem drop_field {v a b : List Byte} {off k : Nat} (h : v.drop off = a ++ b) (ha : a.length = k) : v.drop (off + k) = b := by
  rw [← List.drop_drop, h, List.drop_left' ha]

theorem leAt_of_drop {v b : List Byte} {n k off : Nat} (h : v.drop off = leBytes n k ++ b) (hn : n < 256 ^ k) : leAt v off k = n := by
  unfold leAt; rw [h, List.take_left' (leBytes_len k n), leNat_leBytes, Nat.mod_eq_of_lt hn]

theorem beAt_of_drop {v b : List Byte} {n k off w : Nat} (h : v.drop off = beBytes n k ++ b) (hw : w = 8 * k) (hn : n < 2 ^ w) :
    beAt v off k = n := by
  subst hw
  have hz : beAt v off k = beAt ([] ++ (beBytes n k ++ b)) ([] : List Byte).length k := by unfold beAt; rw [h]; rfl
  rw [hz, beAt_append, Nat.mod_eq_of_lt (hn.trans_eq (Nat.pow_mul 2 8 k))]

/-- The fields of a marker read back from the bytes that begin with its head (R407). -/
theorem markerHead_read {b : Banks} {v rest : List Byte} (hv : v = markerHead b ++ rest) (ha : b.active < 256)
    (hg : b.generation < 2 ^ 32) (hs : b.switchBoot < 2 ^ 32) (hr : b.release < 2 ^ 32) (hd : b.setDigest < 2 ^ 384) :
    leAt v 0 4 = 0x424B4D39 ∧ leAt v 4 1 = b.active ∧ leAt v 8 4 = b.generation ∧ leAt v 0xC 4 = b.switchBoot ∧
    leAt v 0x10 4 = b.release ∧ beAt v 0x14 48 = b.setDigest := by
  simp only [markerHead, List.append_assoc] at hv
  have hmagic : v.drop 0 = leBytes 0x424B4D39 4 ++ _ := hv
  have hactive := drop_field hmagic (leBytes_len _ _)
  have hzeros := drop_field hactive (leBytes_len _ _)
  have hgen := drop_field hzeros rfl
  have hboot := drop_field hgen (leBytes_len _ _)
  have hrel := drop_field hboot (leBytes_len _ _)
  have hset := drop_field hrel (leBytes_len _ _)
  exact ⟨leAt_of_drop hmagic (by norm_num), leAt_of_drop hactive (by norm_num; exact ha), leAt_of_drop hgen hg,
    leAt_of_drop hboot hs, leAt_of_drop hrel hr, beAt_of_drop (w := 384) hset rfl hd⟩

theorem markerAt_programmed (m : PageMeta) {b : Banks} {g page : Nat} (ha : b.active < 256) (hg : b.generation < 2 ^ 32)
    (hs : b.switchBoot < 2 ^ 32) (hr : b.release < 2 ^ 32) (hd : b.setDigest < 2 ^ 384) (hp : page < 4096) :
    markerAt (4096 * g + page, Page.of m (markerBytes b)) = some { b with block := g % 1024 - 1022, page := page + 1 } := by
  obtain ⟨rest, hv⟩ := markerPage_data m b
  obtain ⟨hmagic, hactive, hgen, hboot, hrel, hset⟩ := markerHead_read hv ha hg hs hr hd
  have hcrc : leAt (Page.of m (markerBytes b)).data 0x44 4 = crc32c ((Page.of m (markerBytes b)).data.take 0x44) := by
    rw [leAt_of_drop (by rw [hv, List.drop_left' (markerHead_length b)]) (BitVec.isLt _), hv, List.take_left' (markerHead_length b)]
  have hblock : (4096 * g + page) / 4096 = g := by omega
  have hpage : (4096 * g + page) % 4096 = page := by omega
  unfold markerAt; dsimp only
  rw [if_pos ⟨hmagic, hcrc⟩, hactive, hgen, hboot, hrel, hset, hblock, hpage]

/-! ### The boot ROM (R387 to R389, R391) -/

/-- The drive once the ROM has formed the OTP image and found the active bank. -/
def romRead (s : State) (o : Otp) : State :=
  { s with flash := { s.flash with otp := o, banks := newestMarker s }
           boot := { s.boot with rootsOut := (List.range 4).filter (rootSplit s) } }

theorem copyPasses_iff (s : State) (c : Option Nat) : copyPasses s c = true ↔ ∃ sv, c = some sv ∧ s.flash.otp.secVersion ≤ sv := by
  cases c <;> simp [copyPasses]

/-- A copy that fails the rollback test does not pass. -/
theorem copyPasses_below {s : State} {c : Option Nat} (h : ∀ sv, c = some sv → sv < s.flash.otp.secVersion) :
    copyPasses s c = false :=
  Bool.eq_false_iff.2 fun hc => by
    obtain ⟨sv, hs, hle⟩ := (copyPasses_iff s c).1 hc
    exact Nat.not_le.2 (h sv hs) hle

section
variable {s : State} (r : RomReport) {o : Otp} (hl : live s = true) (hb : s.boot.stage = .rom)
include hl hb

theorem exec_bootRom_noImage (ho : otpImage s = none) :
    exec (.bootRom r) s = .next (settle { s with boot := { s.boot with stage := .stoppedOtp } }) := by
  show execBootRom r s = _
  unfold execBootRom
  rw [if_neg (by simp [hl, hb]), ho]; rfl

theorem exec_bootRom_image (ho : otpImage s = some o) (he : r.entropyOk = true) : exec (.bootRom r) s = .next (settle (
      let u := romRead s o
      if copyPasses u r.primary then handOver u false
      else if copyPasses u r.mirror then
        handOver (if r.primary.isSome then firstResult u (statusCode .rollback) else u) true
      else { u with boot := { u.boot with stage := .stoppedImage } })) := by
  show execBootRom r s = _
  unfold execBootRom
  rw [if_neg (by simp [hl, hb]), ho]
  dsimp only
  rw [if_pos he]
  show (if copyPasses (romRead s o) r.primary then conclude _ else if copyPasses (romRead s o) r.mirror then conclude _ else conclude _) = _
  simp only [conclude_eq]
  split
  · rfl
  · split <;> rfl

theorem exec_bootRom_mirror {sv : Nat} (ho : otpImage s = some o) (he : r.entropyOk = true) (hp : r.primary = none)
    (hm : r.mirror = some sv) (hv : o.secVersion ≤ sv) :
    exec (.bootRom r) s = .next (settle (handOver (romRead s o) true)) := by
  rw [exec_bootRom_image r hl hb ho he]
  dsimp only
  rw [if_neg (by simp [hp, copyPasses]), if_pos ((copyPasses_iff _ _).2 ⟨sv, hm, hv⟩), hp]; rfl

end

/-- The attestation key of R389 is never 0. -/
theorem keysPresent_handOver (s : State) (mirror : Bool) : keysPresent (handOver s mirror) = true := by
  have h : (handOver s mirror).boot.keyStore.ak ≠ 0 := Nat.succ_ne_zero _
  exact bne_iff_ne.2 h

/-- Settles O11: the boot ROM, clause by clause from the lemmas above. -/
theorem bootRomHandsOver : Obligations.BootRomHandsOver := by
  unfold Obligations.BootRomHandsOver
  refine ⟨?primary, ?mirror, fun s r hl hb => exec_bootRom_noImage r hl hb, ?stopped,
    fun s => (otpImage_eq_none_iff s).trans (factoryCopy_eq_none_iff s), ?first, ?second, ?roots, ?rollback, ?burn, ?rows,
    fun m b g page => markerAt_programmed m⟩
  case primary =>
    intro s r o sv hl hb ho he hp hv
    refine (exec_bootRom_image r hl hb ho he).trans ?_
    dsimp only
    rw [if_pos ((copyPasses_iff _ _).2 ⟨sv, hp, hv⟩)]
    rfl
  case mirror =>
    intro s r o sv hl hb ho he hp hm hv
    refine ⟨_, exec_bootRom_mirror r hl hb ho he hp hm hv, ?_⟩
    simp only [keysPresent, settle_boot, settle_cipher, settle_flash]
    exact ⟨rfl, rfl, rfl, rfl, keysPresent_handOver _ _, rfl, rfl⟩
  case stopped =>
    intro s r o hl hb ho he hp hm
    refine (exec_bootRom_image r hl hb ho he).trans ?_
    dsimp only
    rw [if_neg (Bool.eq_false_iff.1 (copyPasses_below (s := romRead s o) hp)),
      if_neg (Bool.eq_false_iff.1 (copyPasses_below (s := romRead s o) hm))]
    rfl
  case first =>
    intro s o ho h0 h1
    obtain ⟨r, hr, hf, -, -⟩ := otpImage_fields ho
    obtain rfl := Option.some.inj ((factoryCopy_of_first h0 h1).symm.trans hr)
    exact hf
  case second =>
    intro s o ho h0
    obtain ⟨r, hr, hf, -, -⟩ := otpImage_fields ho
    obtain rfl := factoryCopy_of_second h0 hr
    exact hf
  case roots =>
    intro s o k ho hk
    obtain ⟨r, -, -, hroots, -⟩ := otpImage_fields ho
    rw [hroots, List.getElem?_map, List.getElem?_range hk]
    refine congrArg some ?_
    cases h0 : rootOf s.flash.row0 k with
    | none => exact rootImage_of_second h0
    | some a =>
      cases h1 : rootOf s.flash.row512 k with
      | none => exact (rootImage_of_first h1).trans h0
      | some b => exact rootImage_of_both h0 h1
  case rollback =>
    intro s o n ho hn h
    obtain ⟨r, -, -, -, hv⟩ := otpImage_fields ho
    rw [hv]; exact lt_rollbackFloor hn h
  case burn =>
    intro o r
    obtain ⟨hroll, hline, hdebug⟩ := burn_clears o r
    exact ⟨hroll, hline, hdebug, fun s => rfl⟩
  case rows => exact fun s o ok => rfl

/-! ### A die that is changed -/

@[simp] theorem dieOf_updDie (s : State) (d : Nat) (f : Die → Die) : dieOf (updDie s d f) d = f (dieOf s d) := by
  simp [dieOf, updDie, tabGetD]

/-- Two changes of a die are one. -/
theorem updDie_updDie (s : State) (d : Nat) (f g : Die → Die) : updDie (updDie s d f) d g = updDie s d (fun x => g (f x)) := by
  have h : updDie (updDie s d f) d g = { s with dies := tabPut (tabPut s.dies d (f (dieOf s d))) d (g (dieOf (updDie s d f) d)) } := rfl
  rw [h, dieOf_updDie, tabPut_tabPut]; rfl

/-- A change of a die is what it makes of the die that stands there. -/
theorem updDie_congr {s : State} {d : Nat} {f g : Die → Die} (h : f (dieOf s d) = g (dieOf s d)) : updDie s d f = updDie s d g := by
  unfold updDie; rw [h]

/-- Whether a die serves is read of the dies alone. -/
theorem dieUnavailable_congr {s t : State} (h : t.dies = s.dies) (d : Nat) : dieUnavailable t d = dieUnavailable s d := by
  unfold dieUnavailable dieOf; rw [h]

/-! ### Suspension (R237) -/

theorem maySuspend_suspended {s : State} {d : Nat} (h : (dieOf s d).op = 6 ∨ (dieOf s d).op = 4) : maySuspend s d = false := by
  rcases h with h | h <;> simp [maySuspend, h]

theorem maySuspend_erase {s : State} {d : Nat} (h : (dieOf s d).op = 5)
    (hn : (dieOf s d).suspends < fieldOf s (fcBase (chanOf d) + 0xA0) 4 0)
    (ht : (dieOf s d).runSince + fieldOf s (fcBase (chanOf d) + 0xA0) 31 16 ≤ s.sessionUs) : maySuspend s d = true := by
  simp [maySuspend, fcField, h, hn, ht]

theorem maySuspend_program {s : State} {d : Nat} (h : (dieOf s d).op = 3)
    (hn : (dieOf s d).suspends < fieldOf s (fcBase (chanOf d) + 0xA0) 10 8) : maySuspend s d = true := by
  simp [maySuspend, fcField, h, hn]

/-- A read that joins a die's queue has no part in whether the die may be suspended. -/
theorem maySuspend_queued (s : State) (d n : Nat) :
    maySuspend (updDie s d (fun x => { x with queuedReads := x.queuedReads + n })) d = maySuspend s d := by
  unfold maySuspend; rw [dieOf_updDie]; rfl

theorem exec_eraseSuspend_waits {s : State} {d : Nat} (hl : live s = true)
    (ho : ((dieOf s d).op = 6 ∨ (dieOf s d).op = 4) ∨ (dieOf s d).op = 5 ∨ (dieOf s d).op = 3) (hm : maySuspend s d = false) :
    exec (.eraseSuspend d) s = .next (settle (updDie s d (fun x => { x with queuedReads := x.queuedReads + 1 }))) := by
  show execEraseSuspend d s = _
  unfold execEraseSuspend; dsimp only
  rw [if_pos (by rcases ho with (h | h) | h | h <;> simp [hl, h]), maySuspend_queued, hm]; rfl

/-- A die that suspends its erase or program `k` for a read that joins its queue. -/
def suspendedFor (us k : Nat) (x : Die) : Die :=
  { x with op := k, suspends := x.suspends + 1, suspendedAt := us, readsServed := 0, queuedReads := x.queuedReads + 1 }

theorem exec_eraseSuspend_suspends {s : State} {d k : Nat} (hl : live s = true)
    (ho : (dieOf s d).op = 5 ∧ k = 6 ∨ (dieOf s d).op = 3 ∧ k = 4) (hm : maySuspend s d = true) :
    exec (.eraseSuspend d) s = .next (settle (updDie s d (suspendedFor s.sessionUs k))) := by
  show execEraseSuspend d s = _
  unfold execEraseSuspend; dsimp only
  rw [if_pos (by rcases ho with ⟨h, -⟩ | ⟨h, -⟩ <;> simp [hl, h]), maySuspend_queued, if_pos hm, updDie_updDie, conclude_eq]
  congr 2
  apply updDie_congr
  rcases ho with ⟨h, rfl⟩ | ⟨h, rfl⟩ <;> simp [suspendedFor, h, updDie]

theorem exec_eraseResume_due {s : State} {d : Nat} (hl : live s = true) (ho : (dieOf s d).op = 6 ∨ (dieOf s d).op = 4)
    (hr : (dieOf s d).queuedReads = 0 ∨ 16 ≤ (dieOf s d).readsServed ∨ (dieOf s d).suspendedAt + 400 ≤ s.sessionUs) :
    exec (.eraseResume d) s = .next (settle (updDie s d (fun x => { x with
      op := if x.op = 6 then 5 else 3, runSince := s.sessionUs }))) := by
  have hm : mayResume s (dieOf s d) = true := by simpa [mayResume, or_assoc] using And.intro ho hr
  exact if_pos (by rw [hl, hm]; rfl)

/-! ### Reads (R242, R263) -/

theorem exec_arrayReadDone_served {s : State} {d b : Nat} (page : Nat) {step : Nat} (hl : live s = true) (hs : readServed s d b = true)
    (hw : readWaits s (4096 * d + b) step = false) :
    let u := charge (charge s (workOn s 0 0 d 1 none)) (workOn s 0 1 d 4 none)
    let v := if dieUnavailable s d then u else noteRetry u d step
    exec (.arrayReadDone d b page step) s = .next (settle (serveQueued (readEnds v (4096 * d + b) page step) d)) :=
  if_pos (by rw [hl, hs, hw]; rfl)

/-- A read that ends on a serving die without a step of the ladder is one array read of its block. -/
theorem readEnds_plain {s : State} {b : Nat} (page : Nat) (h : dieUnavailable s (dieOfBlock b) = false) :
    readEnds s b page 0 = countReads s b 1 := by
  have h0 : lastStep s b 0 = 0 := by simp [lastStep, h]
  simp [readEnds, ladderRuns, h0, h, ladderReads, countEnding]

@[simp] theorem blockOf_updBlock (s : State) (b : Nat) (f : Block → Block) : blockOf (updBlock s b f) b = f (blockOf s b) := by
  simp [blockOf, updBlock, tabGetD]

/-- A change of a block is what it makes of the block that stands there. -/
theorem updBlock_congr {s : State} {b : Nat} {f g : Block → Block} (h : f (blockOf s b) = g (blockOf s b)) :
    updBlock s b f = updBlock s b g := by
  unfold updBlock; rw [h]

/-- The refresh threshold of a block is read of its mode and of CA_RD_CTRL. -/
theorem readLimit_congr {s t : State} {b : Nat} (ht : (blockOf t b).tlc = (blockOf s b).tlc)
    (hr : regGet t A.CA_RD_CTRL = regGet s A.CA_RD_CTRL) : readLimit t b = readLimit s b := by
  unfold readLimit fieldOf; rw [ht, hr]

/-- FC_READS of a channel is another register than CA_RD_CTRL. -/
theorem readCount_ne_threshold (ch : Nat) : fcBase ch + 0x84 ≠ A.CA_RD_CTRL := by
  unfold fcBase A.CA_RD_CTRL; omega

/-- Reads below the threshold count in the channel and in the block, and ask for no refresh. -/
theorem countReads_below {s : State} {b n : Nat} (hn : n ≠ 0) (h : (blockOf s b).reads + n < readLimit s b) :
    countReads s b n = updBlock (bumpBy s (fcBase (chanOf (dieOfBlock b)) + 0x84) n) b (fun x => { x with reads := x.reads + n }) := by
  have hb : ∀ k, blockOf (bumpBy s k n) b = blockOf s b := fun k => by unfold blockOf; rw [bumpBy_flash]
  have hl : readLimit (updBlock (bumpBy s (fcBase (chanOf (dieOfBlock b)) + 0x84) n) b (fun x => { x with reads := x.reads + n })) b =
      readLimit s b :=
    readLimit_congr (by rw [blockOf_updBlock, hb])
      ((regGet_congr _ _ rfl _).trans (regGet_bumpBy_ne s _ _ n (readCount_ne_threshold _)))
  unfold countReads; dsimp only
  rw [if_neg hn, if_neg (by rw [hl, blockOf_updBlock, hb]; exact Nat.not_le.2 h)]

theorem readEnds_first {s : State} {b : Nat} (page : Nat) (hd : (dieOf s (dieOfBlock b)).st = 0) (hl : 1 < readLimit s b)
    (hr : (blockOf s b).reads = 0) :
    readEnds s b page 0 = updBlock (bumpBy s (fcBase (chanOf (dieOfBlock b)) + 0x84) 1) b (fun x => { x with reads := 1 }) := by
  rw [readEnds_plain page (by simp [dieUnavailable, hd]), countReads_below Nat.one_ne_zero (by rw [hr]; exact hl)]
  refine updBlock_congr ?_
  have hb : (blockOf (bumpBy s (fcBase (chanOf (dieOfBlock b)) + 0x84) 1) b).reads = 0 := by
    unfold blockOf at hr ⊢; rw [bumpBy_flash, hr]
  rw [hb]

/-! ### Erases (R239 to R241, R249) -/

theorem exec_eraseDone_running {s : State} {b : Nat} (f : List Nat) (hl : live s = true) (ho : (dieOf s (dieOfBlock b)).op = 5)
    (hp : (dieOf s (dieOfBlock b)).plane = b / 1024 % 4) (hb : (dieOf s (dieOfBlock b)).block = b % 1024) :
    exec (.eraseDone b f) s = .next (settle (
      let u := updDie s (dieOfBlock b) (fun x => { x with op := 0, suspends := 0, plane := 0, block := 0 })
      let v := if f.all (fun n => decide (n ≤ 8)) then blockErased u b else eraseFailed u b
      reviewCampaigns (startErases (resumeAll (retryPieces (drainPosted v)))))) :=
  if_pos (by rw [hl, ho, hp, hb]; simp)

theorem giveBlocks_blocks (s : State) (k : Nat) : (giveBlocks s k).flash.blocks = s.flash.blocks := rfl

/-- A block that has been erased, with its count and its native wear. -/
theorem blockOf_blockErased (s : State) (b : Nat) : blockOf (blockErased s b) b = { blockOf s b with
    erases := (blockOf s b).erases + 1, wear := (blockOf s b).wear + eraseWear (blockOf s b), reads := 0, unfinished := false,
    eraseFails := 0, firstCycle := false } := by
  unfold blockErased; dsimp only
  split <;> simp [blockOf, giveBlocks_blocks, bump, updBlock, tabGetD]

theorem blockErased_items (s : State) (b : Nat) : (blockErased s b).flash.items = s.flash.items := by
  unfold blockErased; dsimp only
  split <;> simp [giveBlocks, bump, updBlock]

/-! ### Calibration (R243) -/

/-- A die is named by its channel, its package and its place there (R224). -/
theorem die_of_package (d : Nat) : 16 * (d / 16) + 8 * (d / 8 % 2) + d % 8 = d := by omega

theorem exec_calibrationDue {s : State} {d : Nat} (hl : live s = true) (hc : calibrationDue s d = true) :
    exec (.calibrationDue (d / 16) (d / 8 % 2) (d % 8)) s =
      let u := updDie s d (fun x => { x with calDue := true })
      if calGrant u d then .next (settle (updDie (fieldSet u (fcBase (chanOf d) + 0xA8) 27 24 (d % 16)) d
        (fun x => { x with
          st := 2, op := 7, runSince := s.sessionUs, calDue := false, readSec := 0, reads1 := 0, retried1 := 0 })))
      else .next (settle u) := by
  show execCalibrationDue _ _ _ s = _
  unfold execCalibrationDue
  rw [die_of_package]
  dsimp only
  rw [if_pos (by rw [hl, hc]; rfl), fieldSet_sessionUs]
  rfl

/-- The offsets of a die are registers. -/
theorem storeOffsets_frame (s : State) (d : Nat) (o : Tab Word) : OnlyRegs s (storeOffsets s d o) :=
  foldl_onlyRegs _ (fun _ _ => (regSet_frame _ _ _).trans (regSet_frame _ _ _)) _ s

theorem exec_calibrationDone_calibrating {s : State} {d : Nat} (o : Tab Word) (hl : live s = true) (hs : (dieOf s d).st = 2) :
    exec (.calibrationDone (d / 16) (d % 16) o) s = .next (settle (startErases (resumeAll (retryPieces (closeParity (raise
      (updDie (storeOffsets s d o) d (fun x => { x with
        st := 0, op := 0, calAt := s.poweredUs, calTemp := (packageTemp s d).getD x.calTemp }))
      (0x10 + chanOf d) 1)))))) := by
  have ht : packageTemp (storeOffsets s d o) d = packageTemp s d := by
    unfold packageTemp sensorValue; rw [(storeOffsets_frame s d o).sensors]
  show execCalibrationDone _ _ o s = _
  unfold execCalibrationDone
  rw [Nat.div_add_mod d 16]
  dsimp only
  rw [if_pos (by rw [hl, hs]; rfl), ht, (storeOffsets_frame s d o).poweredUs, conclude_eq]

/-! ### The diagnostic read (R248) -/

/-- FC_DIAG_STATUS of a read that has ended: RECON, ERASED, the last step of the ladder, and E_MEDIA where decoding failed. -/
theorem diagStatus_fields (mode step : Nat) (away er ok : Bool) : diagStatus mode step away er ok =
    pack [(if mode = 0 ∧ (away = true ∨ step = 8 ∧ ok = true) then 1 else 0, 30, 1), (if er then 1 else 0, 29, 1),
      (if mode = 0 then min (if away then max step 8 else step) 8 else 0, 24, 4),
      (if mode = 0 ∧ ok = false ∧ er = false then 0x0401 else 0, 0, 16)] := by
  have hm : statusCode .media = 0x0401 := rfl
  unfold diagStatus flag
  simp only [hm, Bool.and_eq_true, Bool.or_eq_true, Bool.not_eq_true', beq_iff_eq]

theorem diagReads_eq {s u : State} (h : u.dies = s.dies) (mode b step : Nat) (er ok : Bool) : diagReads u mode b step er ok =
    if mode = 0 ∧ er = false then ladderRuns u b (if ok then step else 9)
    else countReads u b (if dieUnavailable s (dieOfBlock b) then 0 else if mode = 2 then 2 else 1) := by
  unfold diagReads
  simp only [dieUnavailable_congr h, Bool.not_eq_true']

theorem exec_diagReadDone_ends {s : State} {ch step : Nat} (flips : Nat) (er ok : Bool) (bytes : List Byte) (hl : live s = true)
    (hb : bit (regGet s (fcBase ch + 0xC4)) 31 = true) (hh : heldBack s (64 + ch) = false)
    (hs : readServed s (dieOfBlock (diagBlock s ch)) (diagBlock s ch % 4096) = true) (hw : readWaits s (diagBlock s ch) step = false) :
    exec (.diagReadDone ch step er ok flips bytes) s = .next (settle (
      let b := diagBlock s ch
      let mode := (diagAsked s ch).2
      let u := regSet s (fcBase ch + 0xC4) (diagStatus mode step (dieUnavailable s (dieOfBlock b)) er ok)
      let v := if mode = 2 then regSet u (fcBase ch + 0xCC) (word flips) else u
      let r := serveQueued (diagReads v mode b step er ok) (dieOfBlock b)
      raise (diagWindow { r with space := { r.space with diag := tabErase r.space.diag ch } } ch
        (diagBytes s mode b (bits (diagAsked s ch).1 11 0) ok bytes)) (0x10 + ch) 2)) :=
  if_pos (by rw [hl, hb, hh, hs, hw]; rfl)

theorem exec_diagReadDone_held {s : State} {ch : Nat} (step flips : Nat) (er ok : Bool) (bytes : List Byte)
    (ha : activating s = true) (hn : 64 + ch ∈ s.update.held) : exec (.diagReadDone ch step er ok flips bytes) s = .next (settle s) := by
  have hh : heldBack s (64 + ch) = true := (heldBack_iff s _).2 ⟨ha, hn⟩
  exact if_neg (by simp [hh])

/-- Settles O34: the commands of a die, clause by clause from the lemmas above. -/
theorem dieCommands : Obligations.DieCommands := by
  unfold Obligations.DieCommands
  refine ⟨?suspension, fun s d b page step => exec_arrayReadDone_served page, fun s b page => readEnds_first page,
    fun s b f => exec_eraseDone_running f, ?erased, ?calibration, fun s d o => exec_calibrationDone_calibrating o, ?diagnostic,
    fun s ch step flips er ok bytes => exec_diagReadDone_held step flips er ok bytes⟩
  case suspension =>
    refine fun s d hl => ⟨?_, fun ho hn ht => exec_eraseSuspend_suspends hl (.inl ⟨ho, rfl⟩) (maySuspend_erase ho hn ht),
      fun ho hn => exec_eraseSuspend_suspends hl (.inr ⟨ho, rfl⟩) (maySuspend_program ho hn), exec_eraseResume_due hl⟩
    rintro (ho | ⟨ho, hm⟩)
    · exact exec_eraseSuspend_waits hl (.inl ho) (maySuspend_suspended ho)
    · exact exec_eraseSuspend_waits hl (.inr ho) hm
  case erased =>
    intro s b
    rw [blockOf_blockErased]
    exact ⟨rfl, rfl, rfl, rfl, blockErased_items s b⟩
  case calibration =>
    intro s d hl hc
    exact ⟨fun hg => (exec_calibrationDue hl hc).trans (if_neg (by simp [hg])),
      fun hg => (exec_calibrationDue hl hc).trans (if_pos hg)⟩
  case diagnostic =>
    intro s ch step flips er ok bytes hl hb b mode hn hs hw
    have hh : heldBack s (64 + ch) = false := Bool.eq_false_iff.2 (fun h => hn ((heldBack_iff s _).1 h).1 ((heldBack_iff s _).1 h).2)
    have hv : ∀ w, (if mode = 2 then regSet (regSet s (fcBase ch + 0xC4) w) (fcBase ch + 0xCC) (word flips)
        else regSet s (fcBase ch + 0xC4) w).dies = s.dies := fun w => by split <;> simp
    have h := exec_diagReadDone_ends flips er ok bytes hl hb hh hs hw
    dsimp only at h
    rw [diagReads_eq (hv _), diagStatus_fields] at h
    exact h

end Sys2Proof.Machine
end

section
/-! PROOFS. Careening: the statements of the family of chapter 08, each with the lemmas about the model's functions that it
rests on. -/

namespace Sys2Proof.Machine

/-! ### A dock that is changed -/

@[simp] theorem dockOf_updDock (s : State) (d : Nat) (f : Dock → Dock) : dockOf (updDock s d f) d = f (dockOf s d) := by
  simp [dockOf, updDock, tabGetD]

/-- Two changes of a dock are one. -/
theorem updDock_updDock (s : State) (d : Nat) (f g : Dock → Dock) :
    updDock (updDock s d f) d g = updDock s d (fun x => g (f x)) := by
  have h : updDock (updDock s d f) d g =
      { s with careen := { s.careen with docks := tabPut (tabPut s.careen.docks d (f (dockOf s d))) d (g (dockOf (updDock s d f) d)) } } := rfl
  rw [h, dockOf_updDock, tabPut_tabPut]; rfl

/-- A dock is read of the careening part of the state alone. -/
theorem dockOf_congr {s t : State} (h : t.careen = s.careen) (d : Nat) : dockOf t d = dockOf s d := by
  unfold dockOf; rw [h]

/-! ### The clock through life and faults (R261, R262) -/

theorem recomputeLife_sessionUs (s : State) : (recomputeLife s).sessionUs = s.sessionUs := by
  unfold recomputeLife; dsimp only
  split
  · rfl
  · simp

theorem heaterOut_sessionUs (s : State) (p : Nat) : (heaterOut s p).sessionUs = s.sessionUs := by
  unfold heaterOut
  split
  · rfl
  · exact (recomputeLife_sessionUs _).trans (raise_sessionUs _ _ _)

/-! ### Campaigns start (R250, R251) -/

theorem exec_campaignStart_begins {s : State} {id w : Nat} (hl : live s = true) (hs : serviceOpen s = true)
    (ha : activating s = false) (hd : firstDue s = some (id, w))
    (hc : s.careen.campaigns.length < fieldOf s A.CA_CTRL 22 16) (hz : s.space.state = 0) (hp : paused s = false) :
    exec .campaignStart s = .next (settle (reviewCampaigns (beginCampaign s id))) := by
  show execCampaignStart s = _
  simp [execCampaignStart, hl, hs, ha, hd, hc, hz, hp, conclude_eq]

theorem exec_campaignStart_waits {s : State} (hl : live s = true) (hs : serviceOpen s = true) (ha : activating s = false)
    (h : firstDue s = none ∨ fieldOf s A.CA_CTRL 22 16 ≤ s.careen.campaigns.length ∨ s.space.state ≠ 0 ∨ paused s = true) :
    exec .campaignStart s = .next (settle (reviewCampaigns s)) := by
  have hopen : (live s && serviceOpen s && !activating s) = true := by rw [hl, hs, ha]; rfl
  show execCampaignStart s = _
  unfold execCampaignStart
  rw [if_pos hopen, conclude_eq]
  cases hd : firstDue s with
  | none => rfl
  | some x =>
    have hmay : (decide (s.careen.campaigns.length < fieldOf s A.CA_CTRL 22 16) && s.space.state == 0 && !paused s) = false := by
      rcases h with h | h | h | h
      · rw [hd] at h; cases h
      · simp [Nat.not_lt.2 h]
      · simp [h]
      · simp [h]
    simp only [hmay, Bool.false_eq_true, if_false]

/-! ### Dry dock is granted (R232, R253, R309) -/

/-- Before a grant is decided, campaigns that can go on do so. -/
theorem exec_dryDockGrant_reviewed {s : State} {d : Nat} (hl : live s = true) (ha : activating s = false) :
    exec (.dryDockGrant d) s = .next (settle (if dockGrant (reviewCampaigns s) d = true then enterDock (reviewCampaigns s) d
      else reviewCampaigns s)) := by
  have hr : (live s && !activating s) = true := by rw [hl, ha]; rfl
  show execDryDockGrant d s = _
  unfold execDryDockGrant
  dsimp only
  rw [if_pos hr]
  split <;> rfl

/-- The sampling of a die's heaters is of its sensors only. -/
theorem sampleHeaters_sensors (s : State) (d : Nat) (on : Bool) : ∃ x, sampleHeaters s d on = { s with sensors := x } :=
  List.foldlRecOn (motive := fun t => ∃ x, t = { s with sensors := x }) _ _ ⟨_, rfl⟩
    (fun _ ⟨_, ht⟩ _ _ => ⟨_, by rw [ht]; rfl⟩)

/-- A granted dock changes its die, its dock, the ledger, the logbook and the sensors, and nothing else. -/
theorem enterDock_frame (s : State) (d : Nat) : ∃ l r x, enterDock s d = updDock { updDie (charge s (dockEnergy s d)) d
    (fun x => { x with st := 1, op := 8 }) with log := l, regs := r, sensors := x } d
    (fun x => { x with phase := 2, pulses := 0, since := s.sessionUs, overran := false }) := by
  unfold enterDock
  dsimp only
  obtain ⟨l, r, hl⟩ := logRecord_frame (updDie (charge s (dockEnergy s d)) d (fun x => { x with st := 1, op := 8 })) 0x0043
    (src 10 0) false (leBytes d 2 ++ leBytes (dockOf s d).plane 1 ++ [0] ++ leBytes (4 * stripeOf d + (dockOf s d).plane) 2) false
  rw [hl]
  obtain ⟨x, hx⟩ := sampleHeaters_sensors
    { updDie (charge s (dockEnergy s d)) d (fun x => { x with st := 1, op := 8 }) with log := l, regs := r } d true
  rw [hx]
  exact ⟨l, r, x, rfl⟩

/-! ### The pulse train (R255, R261) -/

/-- The phase of a dock changes now. -/
theorem dockPhase_of_clock {u : State} {t : Nat} (h : u.sessionUs = t) (d k : Nat) :
    dockPhase u d k = updDock u d (fun x => { x with phase := k, since := t, overran := false }) := by
  unfold dockPhase; rw [h]

/-- The heater of a docked die has been measured. -/
def heaterMeasured (s : State) (d raw : Nat) : State :=
  updPlane s (dockPlane s d) (fun x => { x with drift := driftOf s (dockPlane s d) raw, measured := true })

theorem exec_heaterCheck_ends {s : State} {d : Nat} (raw : Nat) (hl : live s = true) (hp : (dockOf s d).phase = 2)
    (ht : (dockOf s d).since + 2000 ≤ s.sessionUs) : exec (.heaterCheck d raw) s = .next (settle (
      if fieldOf s A.CA_HEATER_LIMIT 23 0 ≤ driftOf s (dockPlane s d) raw
      then updDock (heaterOut (heaterMeasured s d raw) (dockPlane s d)) d
        (fun x => { x with phase := 6, since := s.sessionUs, overran := false })
      else recomputeLife (updDock (heaterMeasured s d raw) d
        (fun x => { x with heated := true, phase := 3, since := s.sessionUs, overran := false })))) := by
  have hc : (live s && (dockOf s d).phase == 2 && phaseLasted s d 2000) = true := by simp [hl, hp, phaseLasted, ht]
  have hx : exec (.heaterCheck d raw) s = conclude (if fieldOf s A.CA_HEATER_LIMIT 23 0 ≤ driftOf s (dockPlane s d) raw
      then dockPhase (heaterOut (heaterMeasured s d raw) (dockPlane s d)) d 6
      else recomputeLife (dockPhase (updDock (heaterMeasured s d raw) d (fun x => { x with heated := true })) d 3)) :=
    (if_pos hc).trans (apply_ite conclude _ _ _).symm
  have hs : (heaterOut (heaterMeasured s d raw) (dockPlane s d)).sessionUs = s.sessionUs := heaterOut_sessionUs _ _
  have hu : (updDock (heaterMeasured s d raw) d (fun x => { x with heated := true })).sessionUs = s.sessionUs := rfl
  rw [hx, dockPhase_of_clock hs, dockPhase_of_clock hu, updDock_updDock, conclude_eq]

theorem exec_heaterCheck_early {s : State} {d : Nat} (raw : Nat) (ht : s.sessionUs < (dockOf s d).since + 2000) :
    exec (.heaterCheck d raw) s = .next (settle s) :=
  have hc : phaseLasted s d 2000 = false := decide_eq_false (Nat.not_le.2 ht)
  if_neg (by rw [hc, Bool.and_false]; exact Bool.false_ne_true)

section
variable {s : State} {d : Nat}

theorem exec_ramp_inTime (hl : live s = true) (hp : (dockOf s d).phase = 3) : exec (.ramp d false) s =
    .next (settle (if heaterAtLeast s (dockPlane s d) (fieldOf s A.CA_ANNEAL 27 16) = true then dockPhase s d 4 else s)) :=
  if_pos (by rw [hl, hp]; rfl)

theorem phaseOverran_once {us : Nat} (ht : (dockOf s d).since + us < s.sessionUs) (ho : (dockOf s d).overran = false) :
    phaseOverran s d us = true := by
  simp [phaseOverran, ht, ho]

theorem exec_ramp_overran (hl : live s = true) (hp : (dockOf s d).phase = 3) (ht : (dockOf s d).since + 50000 < s.sessionUs)
    (ho : (dockOf s d).overran = false) : exec (.ramp d true) s = .next (settle (let u := overranFault s d
      if u.flash.failedHeaters.contains (dockPlane s d) then dockPhase u d 5 else u)) :=
  (if_pos (by rw [hl, hp]; rfl)).trans (if_pos (phaseOverran_once ht ho))

theorem exec_pulseTrain_ends (hl : live s = true) (hp : (dockOf s d).phase = 4)
    (ht : (dockOf s d).since + 12000 * fieldOf s A.CA_ANNEAL 15 8 ≤ s.sessionUs) : exec (.pulseTrain d) s =
    .next (settle (updDock s d (fun x =>
      { x with pulses := fieldOf s A.CA_ANNEAL 15 8, phase := 5, since := s.sessionUs, overran := false }))) := by
  have hc : (live s && (dockOf s d).phase == 4 && phaseLasted s d (12000 * fieldOf s A.CA_ANNEAL 15 8)) = true := by
    simp [hl, hp, phaseLasted, ht]
  have hu : (updDock s d (fun x => { x with pulses := fieldOf s A.CA_ANNEAL 15 8 })).sessionUs = s.sessionUs := rfl
  have hx : exec (.pulseTrain d) s =
      conclude (dockPhase (updDock s d (fun x => { x with pulses := fieldOf s A.CA_ANNEAL 15 8 })) d 5) := if_pos hc
  rw [hx, dockPhase_of_clock hu, updDock_updDock, conclude_eq]

theorem exec_cool_inTime (hl : live s = true) (hp : (dockOf s d).phase = 5) :
    exec (.cool d false) s = .next (settle (if hasCooled s d then dockPhase s d 6 else s)) :=
  if_pos (by rw [hl, hp]; rfl)

theorem exec_cool_overran (hl : live s = true) (hp : (dockOf s d).phase = 5) (ht : (dockOf s d).since + 80000 < s.sessionUs)
    (ho : (dockOf s d).overran = false) : exec (.cool d true) s = .next (settle (overranFault s d)) :=
  (if_pos (by rw [hl, hp]; rfl)).trans
    (congrArg (fun t => Host.Outcome.next (settle t)) (if_pos (phaseOverran_once ht ho)))

theorem exec_release_ends (hl : live s = true) (hp : (dockOf s d).phase = 6) (ht : (dockOf s d).since + 4000 ≤ s.sessionUs) :
    exec (.release d) s = .next (settle (reviewCampaigns (startErases (resumeAll (retryPieces (closeParity
      (leaveDock (sampleHeaters (updDie s d (fun x => { x with st := 0, op := 0 })) d false) d))))))) :=
  if_pos (by simp [hl, hp, phaseLasted, ht])

/-! ### Aborts (R256) -/

theorem exec_careenAbort_holds {c : AbortCause} (hl : live s = true) (h2 : 2 ≤ (dockOf s d).phase) (h4 : (dockOf s d).phase ≤ 4)
    (ha : abortHolds s d c = true) : exec (.careenAbort d c) s = .next (settle (abortCareen s d c)) :=
  if_pos (by simp [hl, inTrain, h2, h4, ha])

/-- An abort for another cause than the temperature counts no fault: its dock changes, and of the rest the logbook and the
registers. -/
theorem abortCareen_frame {c : AbortCause} (h : c ≠ .overTemp) : OnlyLog (updDock s d (fun x => { x with
    phase := 5, since := s.sessionUs, pulses := pulsesDone s x, overran := false, aborted := true,
    retryAt := s.sessionUs + 10000000 })) (abortCareen s d c) := by
  unfold abortCareen
  dsimp only
  rw [if_neg h]
  exact ((bump_logged _ _).trans (logRecord_frame _ _ _ _ _ _)).trans (raise_logged _ _ _)

theorem exec_careenRetry_due (hl : live s = true) (hu : activating s = false) (hp : paused s = false)
    (ha : (dockOf s d).aborted = true) (h0 : (dockOf s d).phase = 0) (ht : (dockOf s d).retryAt ≤ s.sessionUs)
    (he : emergency s = false) (hf : sensorDown s (sensorKey 3 (dockPlane s d)) = false) :
    exec (.careenRetry d) s = .next (settle (requestDock s d (dockOf s d).plane)) :=
  if_pos (by simp [hl, hu, hp, ha, h0, ht, he, hf])

end

/-- Settles O35: dry dock from the grant to the release, its aborts and retries, phase by phase from the lemmas above. -/
theorem dryDockPhases : Obligations.DryDockPhases := by
  unfold Obligations.DryDockPhases
  refine ⟨?campaign, ?grant, ?entered, fun s d raw => exec_heaterCheck_ends raw, fun s d raw => exec_heaterCheck_early raw,
    ?phases, fun s d c => exec_careenAbort_holds, ?aborted, fun s d => exec_careenRetry_due⟩
  case campaign =>
    exact fun s hl hs ha => ⟨fun id w => exec_campaignStart_begins hl hs ha, exec_campaignStart_waits hl hs ha⟩
  case grant =>
    intro s d hl ha
    refine ⟨fun hg => ?_, fun hg => ?_⟩
    · rw [exec_dryDockGrant_reviewed hl ha, if_pos hg]
    · rw [exec_dryDockGrant_reviewed hl ha, if_neg (by rw [hg]; exact Bool.false_ne_true)]
  case entered =>
    intro s d
    obtain ⟨l, r, x, h⟩ := enterDock_frame s d
    have hd : dieOf (enterDock s d) d = { dieOf s d with st := 1, op := 8 } := by
      rw [h]; exact dieOf_updDie (charge s (dockEnergy s d)) d (fun x => { x with st := 1, op := 8 })
    have hk : dockOf (enterDock s d) d =
        { dockOf s d with phase := 2, pulses := 0, since := s.sessionUs, overran := false } := by
      rw [h, dockOf_updDock]; rfl
    rw [hd, hk, h]
    exact ⟨rfl, rfl, rfl, rfl, rfl, rfl⟩
  case phases =>
    intro s d hl
    refine ⟨fun hp ht => ?_, fun hp ht => ?_, exec_ramp_overran hl, exec_pulseTrain_ends hl, fun hp ht => ?_, fun hp ht hf => ?_,
      exec_cool_overran hl, exec_release_ends hl⟩
    · rw [exec_ramp_inTime hl hp, if_pos ht]
    · rw [exec_ramp_inTime hl hp, ht]; rfl
    · have hc : hasCooled s d = true := by simp [hasCooled, ht]
      rw [exec_cool_inTime hl hp, if_pos hc]
    · have hc : hasCooled s d = false := by simp [hasCooled, ht, hf]
      rw [exec_cool_inTime hl hp, hc]; rfl
  case aborted =>
    intro s d c hc
    have hk := abortCareen_frame (s := s) (d := d) hc
    rw [dockOf_congr hk.careen, dockOf_updDock, hk.flash]
    exact ⟨rfl, rfl, rfl, rfl⟩

/-! ### Verify (R252, R258, R259, R420) -/

section
variable {s : State} {d : Nat} (r : VerifyReport) (hl : live s = true) (hb : s.seqr.barrier = false) (hp : (dockOf s d).phase = 7)
include hl hb hp

theorem blockVerify_begins : (live s && mayBegin s && (dockOf s d).phase == 7) = true := by simp [hl, mayBegin, hb, hp]

theorem exec_blockVerify_block {n : Nat} (hn : nextVerify s d = some n) : exec (.blockVerify d r) s = .next (settle (
    let u := updDock (verifyBlock s d (1024 * dockPlane s d + n) r) d (fun x => { x with next := n + 1 })
    if nextVerify u d = none then verifyEnds u d else u)) := by
  show execBlockVerify d r s = _
  unfold execBlockVerify
  rw [if_pos (blockVerify_begins hl hb hp), hn]
  simp only [Option.isNone_iff_eq_none, conclude_eq]

theorem exec_blockVerify_none (hn : nextVerify s d = none) :
    exec (.blockVerify d r) s = .next (settle (verifyEnds s d)) := by
  show execBlockVerify d r s = _
  unfold execBlockVerify
  rw [if_pos (blockVerify_begins hl hb hp), hn]; rfl

end

theorem residueOf_below {t t0 : Nat} (h : t ≤ t0) : residueOf t t0 = 0 := if_pos h

theorem residueOf_between {t t0 : Nat} (h : t0 < t) (ht : t < 576) : residueOf t t0 = 65536 * (t - t0) / (576 - t0) := by
  have hlt : 65536 * (t - t0) / (576 - t0) < 65536 := by
    rw [Nat.div_lt_iff_lt_mul (by omega)]; omega
  unfold residueOf
  rw [if_neg (Nat.not_le.2 h), Nat.min_eq_right (by omega)]

theorem residueOf_full {t0 : Nat} (h : t0 < 576) : residueOf 576 t0 = 65535 := by
  unfold residueOf
  rw [if_neg (Nat.not_le.2 h), Nat.mul_div_cancel _ (by omega)]; rfl

/-- A block that has passed verify. -/
theorem blockOf_verifyPasses (s : State) (d b : Nat) (r : VerifyReport) : blockOf (verifyPasses s d b r) b =
    { blockOf s b with
      residue := residueOf (listSum (patternFlips r)) (blockOf s b).s0, erases := (blockOf s b).erases + 1, wear := 0,
      careens := (blockOf s b).careens + 1, reads := 0, firstCycle := true } :=
  blockOf_updBlock s b (fun x => { x with
    residue := residueOf (listSum (patternFlips r)) x.s0, erases := x.erases + 1, wear := 0, careens := x.careens + 1,
    reads := 0, firstCycle := true })

/-! ### Life and refresh (R262 to R264, R420) -/

theorem exec_lifeRecompute_due {s : State} (hl : live s = true) (hr : s.boot.readySpace = true)
    (ht : s.careen.lifeAt + 60000000 ≤ s.sessionUs) : exec .lifeRecompute s = .next (settle (recomputeLife s)) :=
  if_pos (by simp [hl, hr, ht])

theorem exec_refresh_due {s : State} {id k : Nat} {x : StripeSet} (hx : tabGet s.flash.sets id = some x) (hd : x.refreshDue = some k)
    (hl : live s = true) (hs : serviceOpen s = true) (hb : s.seqr.barrier = false) (hk : k < 16) :
    exec (.refresh id) s = .next (settle (beginRefresh s id k)) := by
  show execRefresh id s = _
  simp [execRefresh, hx, hd, hl, hs, mayBegin, hb, hk, conclude_eq]

/-! ### Nothing begins under the barrier (R420) -/

section
variable {s : State} (hb : s.seqr.barrier = true)
include hb

theorem mayBegin_barrier : mayBegin s = false := by rw [mayBegin, hb]; rfl

theorem exec_blockVerify_barrier (d : Nat) (r : VerifyReport) : exec (.blockVerify d r) s = .next (settle s) := by
  show execBlockVerify d r s = _
  unfold execBlockVerify
  rw [mayBegin_barrier hb, Bool.and_false, Bool.false_and]; rfl

theorem exec_refresh_barrier (id : Nat) : exec (.refresh id) s = .next (settle s) := by
  show execRefresh id s = _
  unfold execRefresh
  split
  · split
    · exact if_neg (by simp [mayBegin_barrier hb])
    · rfl
  · rfl

theorem exec_patrolRead_barrier (id : Nat) (flips : List Nat) : exec (.patrolRead id flips) s = .next (settle s) :=
  if_neg (by simp [mayBegin_barrier hb])

end

/-! ### The patrol (R265) -/

theorem exec_patrolRead_next {s : State} {id : Nat} (flips : List Nat) (hl : live s = true) (hs : serviceOpen s = true)
    (hb : s.seqr.barrier = false) (hn : patrolNext s = some id) :
    exec (.patrolRead id flips) s = .next (settle (patrolAct s id flips)) :=
  if_pos (by simp [hl, hs, mayBegin, hb, hn])

theorem exec_patrolRead_other {s : State} {id : Nat} (flips : List Nat) (hn : patrolNext s ≠ some id) :
    exec (.patrolRead id flips) s = .next (settle s) :=
  if_neg (by simp [hn])

theorem patrolAct_set {s : State} {id : Nat} {x : StripeSet} (flips : List Nat) (hi : id < patrolMirror)
    (hx : tabGet s.flash.sets id = some x) : patrolAct s id flips =
      (let u := x.blocks.foldl (fun v b => countReads v b 4) (patrolMoves s id)
      if retentionOk flips then u else markDue u id 2) := by
  have hm : tabGet (patrolMoves s id).flash.sets id = some x := hx
  unfold patrolAct
  dsimp only
  rw [if_neg (Nat.not_le.2 hi), hm]; rfl

theorem patrolAct_mirrored (s : State) (b : Nat) (flips : List Nat) : patrolAct s (patrolMirror + b) flips =
    mirrorRead (patrolMoves s (patrolMirror + b)) b (retentionOk flips) := by
  unfold patrolAct
  dsimp only
  rw [if_pos (Nat.le_add_right _ _), Nat.add_sub_cancel_left]

/-- While a sweep is under way, what the patrol finds next of it stands past the last. -/
theorem patrolNext_of_not_due {s : State} {id : Nat} (hn : patrolNext s = some id) (hc : 0 < s.careen.patrolCount)
    (hd : sweepDue s = false) : s.flash.patrolAt < id := by
  unfold patrolNext at hn
  rw [if_neg hc.ne', hd] at hn
  cases hf : (patrolOrder s).find? (fun i => decide (s.flash.patrolAt < i)) with
  | none => rw [hf] at hn; cases hn
  | some i =>
    rw [hf] at hn
    cases hn
    exact of_decide_eq_true (List.find?_some (p := fun i => decide (s.flash.patrolAt < i)) hf)

/-- A sweep after the first is due by its period alone. -/
theorem sweepDue_period {s : State} (hc : 0 < s.careen.patrolCount) (hd : sweepDue s = true) :
    s.careen.patrolStart + 86400000000 * fieldOf s A.CA_PATROL 23 16 ≤ s.poweredUs := by
  simpa [sweepDue, hc.ne'] using hd

/-! ### The survey (R266, R420) -/

theorem exec_retentionSurvey_activating {s : State} (cls b : Nat) (flips : List Nat) (ha : activating s = true) :
    exec (.retentionSurvey cls b flips) s = .next (settle s) :=
  if_neg (by simp [ha])

theorem exec_retentionSurvey_other {s : State} {cls b : Nat} (flips : List Nat) (hw : (cls, b) ∉ s.careen.survey.work) :
    exec (.retentionSurvey cls b flips) s = .next (settle s) :=
  if_neg (by simp [hw])

theorem exec_retentionSurvey_reads {s : State} {cls b : Nat} (flips : List Nat) (hl : live s = true) (hs : serviceOpen s = true)
    (hy : s.careen.survey.active = true) (ha : activating s = false) (hw : (cls, b) ∈ s.careen.survey.work) :
    exec (.retentionSurvey cls b flips) s = .next (settle (surveyBlock s cls b (retentionOk flips))) :=
  if_pos (by simp [hl, hs, hy, ha, hw])

theorem surveyReads_mirrored (s : State) (b : Nat) (ok : Bool) : surveyReads s 8 b ok = mirrorRead s b ok := if_pos rfl

theorem exec_surveyDeadlineEnd_due {s : State} (hl : live s = true) (ht : 600000000 ≤ s.sessionUs) :
    exec .surveyDeadlineEnd s = .next (settle (updSurvey s (fun y => { y with deadline := false }))) :=
  if_pos (by simp [hl, ht])

/-- Settles O36: verify, life, refresh, the patrol and the survey, clause by clause from the lemmas above. -/
theorem verifyAndSurvey : Obligations.VerifyAndSurvey := by
  unfold Obligations.VerifyAndSurvey
  refine ⟨fun s d r hl hb hp => ⟨fun n => exec_blockVerify_block r hl hb hp, exec_blockVerify_none r hl hb hp⟩,
    fun t t0 h0 _ => ⟨residueOf_below, residueOf_between, fun _ ht => ht ▸ residueOf_full h0⟩, ?passed,
    fun s => exec_lifeRecompute_due, fun s id k x => exec_refresh_due,
    fun s hb => ⟨exec_blockVerify_barrier hb, exec_refresh_barrier hb, exec_patrolRead_barrier hb⟩,
    fun s id flips hl hs hb => ⟨exec_patrolRead_next flips hl hs hb, exec_patrolRead_other flips⟩, ?patrol, ?period,
    fun flips => Iff.rfl, ?survey, surveyReads_mirrored, fun s cls ok => rfl, fun s => exec_surveyDeadlineEnd_due⟩
  case passed =>
    intro s d b r
    rw [blockOf_verifyPasses]
    exact ⟨rfl, rfl, rfl, rfl, rfl, rfl⟩
  case patrol =>
    intro s id flips
    refine ⟨fun x => patrolAct_set flips, fun b hi => ?_, rfl⟩
    rw [hi, patrolAct_mirrored]; rfl
  case period =>
    intro s id hn hc hle
    refine sweepDue_period hc (Bool.of_not_eq_false fun hd => ?_)
    exact Nat.not_lt.2 hle (patrolNext_of_not_due hn hc hd)
  case survey =>
    exact fun s cls b flips hl hs hy => ⟨exec_retentionSurvey_activating cls b flips, exec_retentionSurvey_reads flips hl hs hy,
      exec_retentionSurvey_other flips⟩

end Sys2Proof.Machine
end

section
/-! PROOFS. Space and recovery: the statements of the family of chapter 09, each with the lemmas about the model's functions
that it rests on. -/

namespace Sys2Proof.Machine

/-! ### What follows every command leaves a consistent state (R288, R323, R458, R470, R471) -/

theorem fieldOf_settle (s : State) {k : Nat} (h1 : k ≠ 0x8014) (h2 : k ≠ 0x801C) (hi lo : Nat) :
    fieldOf (settle s) k hi lo = fieldOf s k hi lo := by
  rw [fieldOf, regGet_settle s k h1 h2]; rfl

@[simp] theorem ballast_settle (s : State) : ballast (settle s) = ballast s := by
  simp [ballast, wornBlocks, failedStripes, noCareen, planeOf, fieldOf_settle]

@[simp] theorem fill_settle (s : State) : fill (settle s) = fill s := by
  simp [fill, committedGranules]

@[simp] theorem usableFree_settle (s : State) : usableFree (settle s) = usableFree s := by
  simp [usableFree]

/-- The space state's conditions do not depend on what follows a command. -/
theorem spaceEntry_settle (s : State) : spaceEntry (settle s) = spaceEntry s := by
  funext k
  unfold spaceEntry
  simp only [fill_settle, usableFree_settle, ballast_settle, fieldOf_settle s (k := A.DR_SPACE_THR) (by decide) (by decide),
    fieldOf_settle s (k := A.DR_FREE_THR) (by decide) (by decide)]

theorem spaceLeave_settle (s : State) : spaceLeave (settle s) = spaceLeave s := by
  funext k
  unfold spaceLeave
  simp only [fill_settle, usableFree_settle, fieldOf_settle s (k := A.DR_SPACE_THR) (by decide) (by decide),
    fieldOf_settle s (k := A.DR_FREE_THR) (by decide) (by decide)]

/-- The space state that R288 gives stands: asked again, with the conditions unchanged, R288 gives the same. A state that was
entered is the worst whose condition holds, and to leave it gives that one again. -/
theorem spaceNext_again {s t : State} (he : spaceEntry t = spaceEntry s) (hl : spaceLeave t = spaceLeave s)
    (hn : t.space.state = spaceNext s) : spaceNext t = spaceNext s := by
  have hw : spaceWorst t = spaceWorst s := by unfold spaceWorst; rw [he]
  unfold spaceNext at hn ⊢
  dsimp only at hn ⊢
  rw [hw, hl, hn]
  split_ifs at hn ⊢ <;> omega

theorem settle_spaceSettled (s : State) : SpaceSettled (settle s) := by
  have hn : (settle s).space.state = spaceNext s := by rw [settle_space]
  exact hn.trans (spaceNext_again (spaceEntry_settle s) (spaceLeave_settle s) hn).symm

/-- What follows every command leaves a consistent state, whatever the state was. -/
theorem settle_consistent (s : State) : Consistent (settle s) :=
  ⟨settle_lines s, settle_idle s, settle_spaceSettled s⟩

/-! ### Every step ends with what follows every command -/

/-- The outcome is a next state that has been settled. -/
def Concludes (o : Host.Outcome State Fault Refusal) : Prop := ∃ u, o = .next (settle u)

theorem concludes_conclude (u : State) : Concludes (conclude u) := ⟨u, rfl⟩

/-- Every command ends with what follows every command: the capsules, the register writes and the answers on the bus at once,
the others on each branch of their meaning. -/
theorem exec_concludes (c : Instr) (s : State) : Concludes (exec c s) := by
  cases c
  case get | put | delete | existsKey | cas | batch | scan | exportValue | quayCreate | quaySet | quayDestroy | rulePut |
    ruleDel | ruleRead | sealWrites | abort | berthReset | deferredRead | deferredAck | mgmtRead | mgmtWrite | capability |
    lbRead | lbClear | quote | unlock | otpRequest | upOpen | upWrite | upCommit | upAbandon | upArm | upDisarm | upTrigger |
    postedDurable | registerWrite | commit | abandon | clrErr | pgEvtStatusClear | lock | syModeReq | pstateLimit | shutdown |
    cfOvlMode | cfDefaultsAccept | retrain | moKill | cmTestStart | ckptNow | ackVolatile | newNonce | freeze | thaw |
    rebuildStart | rebuildEnd | hbIdWrite | writeExportKey | rekeyQuaySlot | eraseExportSlot | getmwl | getmrl | getpid |
    getbcr | getdcr | tow =>
    exact concludes_conclude _
  all_goals dsimp only [exec, execData, execAck, execClose, execClosed, execArpRequest, execNeighbourSolicitation,
    execEchoRequest, execHello, execHostAuth, execHandshakeTimeout, execAckDelayExpiry, execRetransmissionTimeout, execIdleAck,
    execIdleTimeout, execTeardownComplete, execOldEpochRelease, execRekeyRefusalTimeout, execDriveRekey, execLinkDetect,
    execAutonegotiation, execTraining, execFecLock, execLinkLost, execCapsuleFrameGapTimeout, execBerthResetEnd,
    execCsnChunkReserve, execLogFlush, execCoalesced, execWrapped, execLogMediaFailed, execFreezeTimeout, execQuoteReq,
    execSidebandQuoteReady, execStagingLockTimeout, execArmingDeadline, execPrepare, execSwitchTime, execDrain,
    execDrainBudget, execRestart, execRevert, execLandingPageClose, execLandingConfirmed, execProgramFailed, execEraseSuspend,
    execEraseResume, execArrayReadDone, execEraseDone, execCalibrationDue, execCalibrationDone, execDiagReadDone,
    execInputRise, execDetect, execBulkCharge, execRails, execHoldUpReady, execHoldUpTimeout, execPowerFail, execFinish,
    execPark, execPwrdis, execStrapRead, execBootRom, execStageTwo, execMount, execFullScan, execAlarm, execAlarmSettle,
    execEntropyHealthFail, execAutoRekey, execRekeySweepEnd, execCounterChunkReserve, execCipherSuspend, execCipherResume,
    execPipeUncorrectable, execParityFault, execHandshakeWatchdog, execDramScrub, execShadowTimeout, execShutdownComplete,
    execMoCertGenMin, execFcCalStart, execFcDiagStart, execEnTestStart, execI3cPrivateRead, execI3cPrivateWrite,
    execI3cTransferTimeout, execLbSbNewest, execLbSbOlder, execEnec, execDisec, execRstdaa, execEntdaa, execSetnewda,
    execGetstatus, execCampaignStart, execDryDockGrant, execHeaterCheck, execRamp, execPulseTrain, execCool, execRelease,
    execCareenAbort, execCareenRetry, execBlockVerify, execLifeRecompute, execRefresh, execPatrolRead, execRetentionSurvey,
    execSurveyDeadlineEnd, execLeafFetch, execChainWriteback, execIndexScrub, execBankTest, execBankTestEnd, execEngineTestEnd,
    execWarehousing, execDredging, execRecordCopy, execSetDissolve, execLostPageSweep, execCheckpointBegin, execCheckpointDone,
    execSensorSample, execSensorFailed, execSensorReadmitted, execRingMeasurement, execRailLimit, execTideWindowEnd,
    execStepDown, execStepUp, execEmergencyPersist, execLowTideReturn, execThermalTrip, execPstateEntry,
    execMaintenanceExcursion, execPoweredTime, execBeaconSend, execBeacon, execMemberAge, execCohortTrigger, execWelcome,
    execMoored, execRefuse, execRefuseSealed, execGone, execTowlineIdle, execTowlineClosed, execTowAck, execTowData]
  all_goals repeat' split
  all_goals exact concludes_conclude _

/-- So does a step, with a command waiting or without (log entries 2, 172). -/
theorem step_concludes (s : State) : Concludes (step s) := by
  unfold step
  split
  next =>
    unfold idleStep
    dsimp only
    split
    · exact ⟨_, rfl⟩
    · exact ⟨_, rfl⟩
  next => exact exec_concludes _ _

/-- Settles O3: at reset the lines, the idle timer and the space state are computed. -/
theorem resetIsConsistent : Obligations.ResetIsConsistent := by
  unfold Obligations.ResetIsConsistent
  exact ⟨rfl, rfl, rfl⟩

/-- Settles O5: every step ends with what follows every command, and that leaves a consistent state. -/
theorem everyStepKeepsConsistent : Obligations.EveryStepKeepsConsistent := by
  unfold Obligations.EveryStepKeepsConsistent
  intro s t h
  obtain ⟨u, hu⟩ := step_concludes s
  cases hu.symm.trans h
  exact settle_consistent u

/-! ### The commands of space: none begins under the barrier (R420) -/

section
variable {s : State} (hb : s.seqr.barrier = true)
include hb

theorem exec_warehousing_barrier : exec .warehousing s = .next (settle s) := by
  show execWarehousing s = _
  unfold execWarehousing
  split
  · exact if_neg (by simp [mayBegin_barrier hb])
  · rfl

theorem exec_dredging_barrier : exec .dredging s = .next (settle s) :=
  if_neg (by simp [mayBegin_barrier hb])

theorem exec_recordCopy_barrier (csn entry id : Nat) (ok : Bool) : exec (.recordCopy csn entry id ok) s = .next (settle s) := by
  show execRecordCopy csn entry id ok s = _
  unfold execRecordCopy
  split
  · rfl
  · exact if_neg (by simp [mayBegin_barrier hb])

theorem exec_lostPageSweep_barrier (id : Nat) : exec (.lostPageSweep id) s = .next (settle s) := by
  show execLostPageSweep id s = _
  unfold execLostPageSweep
  split
  · exact if_neg (by simp [mayBegin_barrier hb])
  · rfl

theorem exec_checkpointBegin_barrier : exec .checkpointBegin s = .next (settle s) :=
  if_neg (by simp [mayBegin_barrier hb])

end

/-! ### Warehousing and dredging (R278 to R281) -/

theorem exec_warehousing_folds {s : State} {id : Nat} {x : StripeSet} (hf : foldNext s = some (id, x)) (hl : live s = true)
    (hs : serviceOpen s = true) (hb : s.seqr.barrier = false) (ha : allApplied s id = true) :
    exec .warehousing s = .next (settle (updSet s id (fun x => { x with moving := true }))) := by
  show execWarehousing s = _
  unfold execWarehousing
  rw [hf]
  exact if_pos (by simp [hl, hs, mayBegin, hb, ha])

section
variable {s u : State} (hl : live s = true) (hs : serviceOpen s = true) (hb : s.seqr.barrier = false)
  (hu : freeQuays (walkErasing (reviewDredging s)) = u)
include hl hs hb hu

theorem exec_dredging_idle (h : u.space.dredging = false ∨ dredgeBusy u = true ∨ dredgeVictim u = none) :
    exec .dredging s = .next (settle u) := by
  show execDredging s = _
  unfold execDredging
  rw [if_pos (by simp [hl, hs, mayBegin, hb]), hu]
  rcases h with h | h | h
  · exact if_neg (by simp [h])
  · exact if_neg (by simp [h])
  · dsimp only; rw [h]; exact ite_self _

theorem exec_dredging_victim {id : Nat} (hd : u.space.dredging = true) (hn : dredgeBusy u = false)
    (hv : dredgeVictim u = some id) : exec .dredging s = .next (settle (updSet
      { u with space := { u.space with victim := id } } id (fun x => { x with moving := true }))) := by
  show execDredging s = _
  unfold execDredging
  rw [if_pos (by simp [hl, hs, mayBegin, hb]), hu, if_pos (by simp [hd, hn]), hv]; rfl

end

/-- A quay stays unless it is ERASING and neither a record nor an index entry of it is left (R179). -/
theorem mem_freeQuays (s : State) (q : Nat) (y : Quay) : (q, y) ∈ (freeQuays s).flash.quays ↔
    (q, y) ∈ s.flash.quays ∧ (y.erasing = false ∨ (∃ i ∈ s.flash.items, i.quay = q) ∨ quayInLeaves s q = true) := by
  simp [freeQuays, or_assoc]

/-! ### Copies (R271, R282, R283, R346) -/

theorem exec_recordCopy_found {s : State} {csn entry id : Nat} (ok : Bool) {i : Item}
    (hi : (validOn s id).find? (fun i => i.csn == csn && i.entry == entry && !itemUnread i) = some i) (hl : live s = true)
    (hr : s.power.holdUpReady = true) (hb : s.seqr.barrier = false) (hm : setMoves s id = true ∨ sweepEpoch s i ≠ none)
    (hc : leafCached s i = true) : exec (.recordCopy csn entry id ok) s = .next (settle (copyItem s i id ok)) := by
  show execRecordCopy csn entry id ok s = _
  unfold execRecordCopy
  rw [hi]
  exact if_pos (by simpa [hl, hr, mayBegin, hb, hc, Option.isSome_iff_ne_none] using hm)

theorem copyItem_placed {s u : State} {i : Item} {id : Nat} (src : Nat) (h : roomIn s .warehouse (itemUnits i) = some (u, id)) :
    copyItem s i src true = (
      let c := copyOf u i
      let p := packUnits c.1 id i.csn i.recordId (recordBytes (itemKey c.1 c.2) c.2)
      moveItem p.1 i { c.2 with setId := id, spans := p.2 } src) := by
  unfold copyItem; rw [h]; rfl

theorem copyItem_failed {s u : State} {i : Item} {id : Nat} (src : Nat) (h : roomIn s .warehouse (itemUnits i) = some (u, id)) :
    copyItem s i src false = copyFailed u id := by
  unfold copyItem; rw [h]; rfl

theorem copyOf_unswept {s : State} {i : Item} (h : sweepEpoch s i = none) : copyOf s i =
    (s, { i with pseq := 0, batch := false, marked := false, commit := false, badPages := [] }) := by
  unfold copyOf; rw [h]

/-! ### A leaf that takes a change (R194, R196) -/

/-- Room in the map cache is made of it alone. -/
theorem makeRoom_searched (set n : Nat) : ∀ fuel (s t : State), makeRoom fuel s set n = some t → OnlySearched s t := by
  intro fuel
  induction fuel with
  | zero => exact fun s t h => by cases h
  | succ fuel ih =>
    intro s t h
    unfold makeRoom at h
    split at h
    · cases h; exact .refl s
    · split at h
      · split at h
        · cases h
        · exact (index_searched s _).trans (ih _ _ h)
      · cases h

theorem chainTouch_searched (s : State) (b csn : Nat) (f : Chain → Chain) : OnlySearched s (chainTouch s b csn f) := by
  unfold chainTouch
  split
  · exact index_searched s _
  · dsimp only
    split
    next t ht =>
      refine OnlySearched.trans ?_ (index_searched t _)
      split at ht
      · cases ht
      · exact makeRoom_searched _ _ _ _ _ ht
    next => exact index_searched s _

theorem leafChange_searched (s : State) (i : Item) : OnlySearched s (leafChange s i) :=
  (chainTouch_searched _ _ _ _).trans (dirtyLimit_frame _ _).searched

theorem hotPlace_searched (s : State) (i : Item) : OnlySearched s (hotPlace s i) := index_searched s _

/-- The items and the stripe sets stand while a leaf takes the location of a copy. -/
theorem relocate_flash (s : State) (c : Item) : (hotPlace (leafChange s c) c).flash.items = s.flash.items ∧
    (hotPlace (leafChange s c) c).flash.sets = s.flash.sets := by
  obtain ⟨_, _, _, _, h⟩ := (leafChange_searched s c).trans (hotPlace_searched _ c)
  rw [h]; exact ⟨rfl, rfl⟩

/-- The source set as it waits for the chain of a record that was moved away. -/
def movedFrom (b : Nat) (x : StripeSet) : StripeSet := { x with moved := if x.moved.contains b then x.moved else b :: x.moved }

theorem mem_movedFrom (b : Nat) (x : StripeSet) : b ∈ (movedFrom b x).moved := by
  unfold movedFrom
  dsimp only
  split
  next h => exact List.contains_iff_mem.1 h
  next => exact List.mem_cons_self ..

theorem moveItem_flash (s : State) (i c : Item) (src : Nat) : (moveItem s i c src).flash = (updSet (hotPlace (leafChange
    { s with flash := { s.flash with items := s.flash.items.map (fun x => if x = i then c else x) } } c) c) src
      (movedFrom (bucketOf i.digest))).flash := by
  unfold moveItem
  dsimp only
  split <;> rfl

theorem moveItem_items (s : State) (i c : Item) (src : Nat) :
    (moveItem s i c src).flash.items = s.flash.items.map (fun x => if x = i then c else x) := by
  rw [moveItem_flash]; exact (relocate_flash _ c).1

theorem moveItem_source {s : State} {src : Nat} {x : StripeSet} (i c : Item) (hx : tabGet s.flash.sets src = some x) :
    tabGet (moveItem s i c src).flash.sets src = some (movedFrom (bucketOf i.digest) x) := by
  rw [moveItem_flash, updSet, (relocate_flash _ c).2]
  simp [hx]

/-! ### Dissolving and lost-page sweeps (R279, R284) -/

theorem exec_setDissolve_done {s : State} {id : Nat} {x : StripeSet} (hx : tabGet s.flash.sets id = some x) (hl : live s = true)
    (hm : mayDissolve s id x = true) : exec (.setDissolve id) s = .next (settle (dissolve s id x)) := by
  show execSetDissolve id s = _
  unfold execSetDissolve
  rw [hx]
  exact if_pos (by simp [hl, hm])

theorem mayDissolve_iff (s : State) (id : Nat) (x : StripeSet) : mayDissolve s id x = true ↔
    x.isOpen = false ∧ setMoves s id = true ∧ validOn s id = [] ∧ leavesOn s id = [] ∧ allApplied s id = true ∧
    pinnedSet s id = false ∧ x.moved = [] ∧ x.ckptNeeded ≤ s.space.ckptSeq ∧ x.sweepPending = false := by
  simp [mayDissolve, and_assoc]

theorem exec_lostPageSweep_pending {s : State} {id : Nat} {x : StripeSet} (hx : tabGet s.flash.sets id = some x)
    (hl : live s = true) (hb : s.seqr.barrier = false) (hp : x.sweepPending = true) : exec (.lostPageSweep id) s =
      .next (settle (resumeAll (raise (updSet (((validOn s id).filter itemUnread).foldl markLost s) id
        (fun x => { x with sweepPending := false })) 8 5))) := by
  show execLostPageSweep id s = _
  unfold execLostPageSweep
  rw [hx]
  exact if_pos (by simp [hl, mayBegin, hb, hp])

/-! ### Checkpoints (R292 to R294) -/

theorem persistPowered_sessionUs (s : State) : (persistPowered s).sessionUs = s.sessionUs := by
  unfold persistPowered; dsimp only; rw [logRecord_sessionUs]

/-- The checkpoint that begins with the state as it stands. -/
def ckptOf (s : State) : Ckpt :=
  { begunAt := s.sessionUs, csn := s.seqr.next, horizon := horizon s, durablePseq := s.space.durablePseq, clean := cleanBegin s,
    mount := false, preUsed := s.space.preUsed, tables := tablesNow s }

theorem beginCkpt_eq (s : State) : beginCkpt s = (
    let u := if cleanBegin s then persistPowered s else s
    { u with space := { u.space with
        ckpt := some (ckptOf s), ckptQueued := false, ckptAt := s.sessionUs, landedBytes := 0 } }) := by
  unfold beginCkpt
  dsimp only
  split
  · rw [persistPowered_sessionUs]; rfl
  · rfl

theorem exec_checkpointBegin_due {s : State} (hl : live s = true) (hr : s.power.holdUpReady = true)
    (hs : s.boot.readySpace = true) (hn : s.space.ckpt = none) (ho : ckptOver s = false) (hd : ckptDue s = true)
    (hb : s.seqr.barrier = false) :
    exec .checkpointBegin s = .next (settle (beginCkpt s)) :=
  if_pos (by simp [hl, hr, hs, hn, ho, hd, mayBegin, hb])

/-- What a checkpoint that is on both copies leaves as the newest. -/
theorem exec_checkpointDone_saved {s : State} {k : Ckpt} (hl : live s = true) (hk : s.space.ckpt = some k) :
    exec .checkpointDone s = .next (settle { s with
      flash := { s.flash with
        saved := some { seq := s.space.ckptSeq + 1, csn := k.csn, horizon := k.horizon, durablePseq := k.durablePseq,
                        clean := k.clean, lowWater := s.flash.lowWater, usable := true, tables := k.tables } }
      space := { s.space with
        ckpt := none
        ckptSeq := s.space.ckptSeq + 1
        preUsed := s.space.preUsed.filter (fun x => !k.preUsed.contains x) } }) := by
  show execCheckpointDone s = _
  unfold execCheckpointDone
  rw [hk]
  exact if_pos hl

/-- Settles O38: the moving of data and checkpoints, clause by clause from the lemmas above. -/
theorem spaceCommands : Obligations.SpaceCommands := by
  unfold Obligations.SpaceCommands
  refine ⟨fun s id x => exec_warehousing_folds,
    fun s hb => ⟨exec_warehousing_barrier hb, exec_dredging_barrier hb, exec_recordCopy_barrier hb,
      exec_lostPageSweep_barrier hb, exec_checkpointBegin_barrier hb⟩,
    fun s hl hs hb => ⟨exec_dredging_idle hl hs hb rfl, fun id => exec_dredging_victim hl hs hb rfl⟩, mem_freeQuays,
    fun s csn entry id ok i => exec_recordCopy_found ok, fun s u i src id h => ⟨copyItem_placed src h, copyItem_failed src h⟩,
    fun s i => copyOf_unswept, ?moved, fun s id x => exec_setDissolve_done, mayDissolve_iff,
    fun s id x => exec_lostPageSweep_pending, ?begun, fun s k => exec_checkpointDone_saved⟩
  case moved =>
    exact fun s i c src => ⟨moveItem_items s i c src, fun x hx => ⟨_, moveItem_source i c hx, mem_movedFrom _ x⟩⟩
  case begun =>
    intro s hl hr hs hn ho hd hb
    exact (exec_checkpointBegin_due hl hr hs hn ho hd hb).trans (by rw [beginCkpt_eq]; rfl)

/-! ### The unbroken run of posted numbers (R298) -/

/-- What the run has passed is there, and it ends where a number is missing or where its fuel does. -/
theorem runEnd_spec (qs : List Nat) : ∀ fuel d, d ≤ runEnd qs fuel d ∧ (∀ q, d < q → q ≤ runEnd qs fuel d → q ∈ qs) ∧
    (runEnd qs fuel d + 1 ∉ qs ∨ runEnd qs fuel d = d + fuel) := by
  intro fuel
  induction fuel with
  | zero => exact fun d => ⟨le_rfl, fun q h1 h2 => absurd h1 (Nat.not_lt.2 h2), .inr rfl⟩
  | succ fuel ih =>
    intro d
    unfold runEnd
    split
    next hc =>
      obtain ⟨hle, hmem, hend⟩ := ih (d + 1)
      refine ⟨by omega, fun q h1 h2 => ?_, hend.imp_right fun h => by omega⟩
      rcases Nat.lt_or_eq_of_le (Nat.succ_le_of_lt h1) with h | rfl
      · exact hmem q h h2
      · exact List.contains_iff_mem.1 hc
    next hc => exact ⟨le_rfl, fun q h1 h2 => absurd h1 (Nat.not_lt.2 h2), .inl fun h => hc (List.contains_iff_mem.2 h)⟩

/-- The fuel of one step for each number found lasts: the number after the run's end is missing. -/
theorem runEnd_succ_not_mem (qs : List Nat) (d : Nat) : runEnd qs qs.length d + 1 ∉ qs := by
  obtain ⟨hle, hmem, hend⟩ := runEnd_spec qs qs.length d
  rcases hend with h | h
  · exact h
  · intro hin
    have hsub : List.range' (d + 1) (qs.length + 1) ⊆ qs := by
      intro q hq
      obtain ⟨h1, h2⟩ := List.mem_range'_1.1 hq
      rcases Nat.lt_or_ge (runEnd qs qs.length d) q with hlt | hge
      · rwa [show q = runEnd qs qs.length d + 1 by omega]
      · exact hmem q h1 hge
    have hlen := (List.subperm_of_subset List.nodup_range' hsub).length_le
    rw [List.length_range'] at hlen
    omega

/-! ### What recovery keeps (R297, R298) -/

/-- The items that rules 1 to 3 count. -/
def countedItems (s : State) : List Item := s.flash.items.filter (countsSoFar s (savedHorizon s))

/-- Their posted numbers. -/
def countedPseqs (s : State) : List Nat := (countedItems s).map Item.pseq

/-- P: the end of the unbroken run of the counted posted numbers. -/
def recoveredPseq (s : State) : Nat := runEnd (countedPseqs s) (countedPseqs s).length (basePseq s)

/-- The counted items up to P. -/
def keptItems (s : State) : List Item := (countedItems s).filter (fun i => decide (i.pseq ≤ recoveredPseq s))

theorem replay_durablePseq (s : State) : (replay s).space.durablePseq = recoveredPseq s := rfl

theorem replay_durableCsn (s : State) : (replay s).space.durableCsn = durableAfter (keptItems s) (recoveredPseq s) := rfl

theorem rebuildLeaf_searched (s : State) (i : Item) : OnlySearched s (rebuildLeaf s i) := index_searched s _

/-- The new base is read of the items and the pages, which the rebuilt leaves leave alone. -/
theorem replay_nextPseq (s : State) : (replay s).space.nextPseq = newBase s := by
  have h : ∃ l : List Item, (replay s).space.nextPseq =
      newBase (l.foldl rebuildLeaf { s with index := { s.index with dir := newestDir s } }) := ⟨_, rfl⟩
  obtain ⟨l, h⟩ := h
  obtain ⟨_, _, _, _, hu⟩ := (index_searched s _).trans (foldl_searched rebuildLeaf rebuildLeaf_searched l _)
  rw [h, hu]; rfl

theorem mem_countedItems {s : State} {i : Item} : i ∈ countedItems s ↔
    i ∈ s.flash.items ∧ countsSoFar s (savedHorizon s) i = true := List.mem_filter

theorem mem_countedPseqs {s : State} {q : Nat} : q ∈ countedPseqs s ↔
    ∃ i ∈ s.flash.items, countsSoFar s (savedHorizon s) i = true ∧ i.pseq = q := by
  simp only [countedPseqs, List.mem_map, mem_countedItems, and_assoc]

theorem keptItems_eq (s : State) : keptItems s =
    s.flash.items.filter (fun i => countsSoFar s (savedHorizon s) i && decide (i.pseq ≤ recoveredPseq s)) := by
  simp only [keptItems, countedItems, List.filter_filter, Bool.and_comm]

theorem replay_items (s : State) : (replay s).flash.items =
    (s.flash.items.filter (fun i => countsSoFar s (savedHorizon s) i && decide (i.pseq ≤ recoveredPseq s))).map
      (fun i => { i with settled := true, durable := true, encrypted := true }) := by
  rw [← keptItems_eq]; rfl

theorem replay_discarded (s : State) : (replay s).space.discarded =
    (s.flash.items.filter (fun i => countsSoFar s (savedHorizon s) i && decide (recoveredPseq s < i.pseq))).length := by
  have h : (replay s).space.discarded = (countedItems s).length - (keptItems s).length := rfl
  have hsplit := List.length_eq_length_filter_add (l := countedItems s) (fun i => decide (i.pseq ≤ recoveredPseq s))
  have hrest : (countedItems s).filter (fun i => !decide (i.pseq ≤ recoveredPseq s)) =
      s.flash.items.filter (fun i => countsSoFar s (savedHorizon s) i && decide (recoveredPseq s < i.pseq)) := by
    simp only [countedItems, List.filter_filter, Bool.and_comm, ← decide_not, Nat.not_le]
  rw [h, ← hrest, hsplit, keptItems, Nat.add_sub_cancel_left]

/-- A posted write that bears the number P gives DR_DURABLE its CSN. -/
theorem durableAfter_of_mem {keep : List Item} {p : Nat} (hp : p ≠ 0) (h : ∃ i ∈ keep, i.pseq = p) :
    ∃ i ∈ keep, i.pseq = p ∧ durableAfter keep p = i.csn := by
  obtain ⟨j, hj, rfl⟩ := h
  unfold durableAfter
  cases hf : keep.find? (fun i => i.pseq != 0 && i.pseq == j.pseq) with
  | none => simpa [hp] using List.find?_eq_none.1 hf j hj
  | some i =>
    have hi := List.find?_some hf
    exact ⟨i, List.mem_of_find?_eq_some hf, (by simpa [hp] using hi : _ ∧ i.pseq = j.pseq).2, rfl⟩

/-! ### The new base of POSTED_SEQ (R298) -/

theorem countsSoFar_iff (s : State) (h : Nat) (i : Item) : countsSoFar s h i = true ↔
    i.landed = true ∧ (itemReads s i = true ∨ i.csn < h) ∧ (i.marked = false ∨ i.commit = true) ∧ i.csn ∉ s.flash.voids := by
  simp [countsSoFar, and_assoc]

/-- The posted numbers found: rule 1 of R297 alone. -/
def foundPseqs (s : State) : List Nat :=
  (s.flash.items.filter (fun i => i.landed && (itemReads s i || decide (i.csn < savedHorizon s)))).map Item.pseq

theorem mem_foundPseqs {s : State} {q : Nat} : q ∈ foundPseqs s ↔
    ∃ i ∈ s.flash.items, (i.landed = true ∧ (itemReads s i = true ∨ i.csn < savedHorizon s)) ∧ i.pseq = q := by
  simp [foundPseqs, and_assoc]

theorem newBase_eq (s : State) : newBase s = (max (listMax (foundPseqs s)) (basePseq s) / 2 ^ 32 + 1) * 2 ^ 32 := rfl

/-- The highest number found stands in the list, or none lies above the durable one. -/
theorem max_foundPseqs_mem (s : State) : max (listMax (foundPseqs s)) (basePseq s) = basePseq s ∨
    max (listMax (foundPseqs s)) (basePseq s) ∈ foundPseqs s := by
  rcases le_total (listMax (foundPseqs s)) (basePseq s) with h | h
  · exact .inl (max_eq_right h)
  · rw [max_eq_left h]
    by_cases hn : foundPseqs s = []
    · rw [hn] at h ⊢
      exact .inl (le_antisymm (Nat.zero_le _) h)
    · exact .inr (listMax_mem hn)

/-- The next multiple of `b` lies above `m`, by at most `b`. -/
theorem lt_nextMultiple (m b : Nat) (hb : 0 < b) : m < (m / b + 1) * b ∧ (m / b + 1) * b ≤ m + b :=
  ⟨Nat.lt_mul_of_div_lt (Nat.lt_succ_self _) hb, (Nat.succ_mul _ _).trans_le (Nat.add_le_add_right (Nat.div_mul_le_self m b) b)⟩

/-- Settles O14: recovery keeps what it counts up to the end of the run, and numbers what is posted next above all it found. -/
theorem recoveryKeeps : Obligations.RecoveryKeeps := by
  unfold Obligations.RecoveryKeeps
  refine ⟨?keeps, ?saved, ?base, ?checkpoint, countsSoFar_iff⟩
  case keeps =>
    intro s
    obtain ⟨hle, hrun, -⟩ := runEnd_spec (countedPseqs s) (countedPseqs s).length (basePseq s)
    refine ⟨recoveredPseq s, replay_durablePseq s, hle, fun q h1 h2 => mem_countedPseqs.1 (hrun q h1 h2), fun i hi hc hq => ?_,
      replay_items s, replay_discarded s, fun hlt => ?_⟩
    · exact runEnd_succ_not_mem (countedPseqs s) (basePseq s) (mem_countedPseqs.2 ⟨i, hi, hc, hq⟩)
    · obtain ⟨j, hj, hjc, hjp⟩ := mem_countedPseqs.1 (hrun (recoveredPseq s) hlt le_rfl)
      have hkept : j ∈ keptItems s := List.mem_filter.2 ⟨mem_countedItems.2 ⟨hj, hjc⟩, decide_eq_true hjp.le⟩
      obtain ⟨i, hi, hip, hd⟩ := durableAfter_of_mem (Nat.ne_zero_of_lt hlt) ⟨j, hkept, hjp⟩
      obtain ⟨him, hic⟩ := mem_countedItems.1 (List.mem_filter.1 hi).1
      exact ⟨i, him, hic, hip, (replay_durableCsn s).trans hd⟩
  case saved =>
    intro s k h
    unfold basePseq savedHorizon
    rw [h]
    exact ⟨rfl, rfl⟩
  case base =>
    intro s
    dsimp only
    rw [replay_nextPseq, newBase_eq]
    obtain ⟨hlt, hle⟩ := lt_nextMultiple (max (listMax (foundPseqs s)) (basePseq s)) (2 ^ 32) (by decide)
    refine ⟨Dvd.intro_left _ rfl, lt_of_le_of_lt (le_max_right _ _) hlt, fun i hi hf => ?_, ?_⟩
    · have hm := le_listMax (mem_foundPseqs.2 ⟨i, hi, hf, rfl⟩)
      exact lt_of_le_of_lt (hm.trans (le_max_left _ _)) hlt
    · rcases max_foundPseqs_mem s with h | h
      · exact .inl (hle.trans_eq (by rw [h]))
      · obtain ⟨i, hi, hf, hq⟩ := mem_foundPseqs.1 h
        exact .inr ⟨i, hi, hf, hle.trans_eq (by rw [hq])⟩
  case checkpoint =>
    exact fun s => ⟨_, rfl, rfl, rfl, rfl⟩

/-! ### Sorting by rising key -/

section
variable {α : Type} (key : α → Nat)

theorem insertBy_perm (x : α) (l : List α) : (insertBy key x l).Perm (x :: l) := by
  induction l with
  | nil => exact .refl _
  | cons y r ih =>
    unfold insertBy
    split
    · exact .refl _
    · exact (ih.cons y).trans (.swap x y r)

theorem insertBy_sorted (x : α) {l : List α} (h : l.Pairwise (fun a b => key a ≤ key b)) :
    (insertBy key x l).Pairwise (fun a b => key a ≤ key b) := by
  induction l with
  | nil => exact List.pairwise_singleton _ _
  | cons y r ih =>
    obtain ⟨hy, hr⟩ := List.pairwise_cons.1 h
    unfold insertBy
    split
    next hx =>
      refine List.pairwise_cons.2 ⟨fun z hz => ?_, h⟩
      rcases List.mem_cons.1 hz with rfl | hz
      · exact hx.le
      · exact hx.le.trans (hy z hz)
    next hx =>
      refine List.pairwise_cons.2 ⟨fun z hz => ?_, ih hr⟩
      rcases List.mem_cons.1 ((insertBy_perm key x r).mem_iff.1 hz) with rfl | hz
      · exact Nat.not_lt.1 hx
      · exact hy z hz

/-- Sorting loses nothing and adds nothing. -/
theorem sortBy_perm (l : List α) : (sortBy key l).Perm l := by
  have h : ∀ acc, (l.foldl (fun acc x => insertBy key x acc) acc).Perm (l ++ acc) := by
    induction l with
    | nil => exact fun acc => .refl acc
    | cons x l ih =>
      exact fun acc => (ih _).trans (((insertBy_perm key x acc).append_left l).trans List.perm_middle)
  exact (h []).trans (.of_eq (List.append_nil l))

theorem sortBy_sorted (l : List α) : (sortBy key l).Pairwise (fun a b => key a ≤ key b) :=
  List.foldlRecOn l _ List.Pairwise.nil (fun _ h x _ => insertBy_sorted key x h)

end

/-! ### The posted writes that become durable (R277, R298) -/

/-- A posted write is on flash, with its commit marker where it needs one. -/
def readyToLast (i : Item) : Bool := i.landed && (!i.marked || i.commit)

theorem readyToLast_iff (i : Item) : readyToLast i = true ↔ i.landed = true ∧ (i.marked = false ∨ i.commit = true) := by
  simp [readyToLast]

theorem durablePrefix_eq_takeWhile (l : List Item) : durablePrefix l = l.takeWhile readyToLast := by
  induction l with
  | nil => rfl
  | cons i l ih =>
    unfold durablePrefix
    rw [List.takeWhile_cons, ih]; rfl

theorem mem_undurable {s : State} {i : Item} : i ∈ undurable s ↔ i ∈ s.flash.items ∧ i.pseq ≠ 0 ∧ i.durable = false := by
  simp [undurable]

/-- In a sorted list, what stands before a member of a leading run is in the run. -/
theorem mem_takeWhile_of_lt {α : Type} {key : α → Nat} {p : α → Bool} {l : List α} (hs : l.Pairwise (fun a b => key a ≤ key b))
    {a b : α} (ha : a ∈ l.takeWhile p) (hb : b ∈ l) (h : key b < key a) : b ∈ l.takeWhile p := by
  rw [← List.takeWhile_append_dropWhile (p := p) (l := l)] at hs hb
  refine (List.mem_append.1 hb).resolve_right fun hd => ?_
  exact Nat.not_lt.2 ((List.pairwise_append.1 hs).2.2 a ha b hd) h

/-- In a sorted list, a member with nothing before or beside it that fails the test is in the leading run. -/
theorem mem_takeWhile_of_forall {α : Type} {key : α → Nat} {p : α → Bool} {l : List α}
    (hs : l.Pairwise (fun a b => key a ≤ key b)) {b : α} (hb : b ∈ l) (h : ∀ c ∈ l, key c ≤ key b → p c = true) :
    b ∈ l.takeWhile p := by
  induction l with
  | nil => exact hb
  | cons a l ih =>
    obtain ⟨ha, hl⟩ := List.pairwise_cons.1 hs
    have hab : key a ≤ key b := by
      rcases List.mem_cons.1 hb with rfl | hb
      · exact le_rfl
      · exact ha b hb
    rw [List.takeWhile_cons, if_pos (h a (List.mem_cons_self ..) hab)]
    rcases List.mem_cons.1 hb with rfl | hb
    · exact List.mem_cons_self ..
    · exact List.mem_cons_of_mem _ (ih hl hb fun c hc => h c (List.mem_cons_of_mem _ hc))

/-- Settles O33: what becomes durable is a leading run of the undurable posted writes, which are sorted by their CSNs. -/
theorem durabilityIsAPrefix : Obligations.DurabilityIsAPrefix := by
  unfold Obligations.DurabilityIsAPrefix
  intro s
  dsimp only
  rw [durablePrefix_eq_takeWhile]
  have hs := sortBy_sorted Item.csn (undurable s)
  have hm : ∀ i, i ∈ sortBy Item.csn (undurable s) ↔ i ∈ s.flash.items ∧ i.pseq ≠ 0 ∧ i.durable = false :=
    fun i => (sortBy_perm Item.csn (undurable s)).mem_iff.trans mem_undurable
  refine ⟨fun i hi => ?_, fun i hi j hj hp hd hlt => ?_, hs.sublist (List.takeWhile_sublist _), fun j hj hp hd hk => ?_⟩
  · obtain ⟨hi', hp, hd⟩ := (hm i).1 ((List.takeWhile_sublist _).subset hi)
    exact ⟨hi', hp, hd, (readyToLast_iff i).1 (List.mem_takeWhile_imp hi)⟩
  · exact mem_takeWhile_of_lt hs hi ((hm j).2 ⟨hj, hp, hd⟩) hlt
  · refine mem_takeWhile_of_forall hs ((hm j).2 ⟨hj, hp, hd⟩) fun c hc hle => (readyToLast_iff c).2 ?_
    obtain ⟨hc', hcp, hcd⟩ := (hm c).1 hc
    exact hk c hc' hcp hcd hle

end Sys2Proof.Machine
end

section
/-! PROOFS. The step with and without a command waiting, and the power states: the statements of the family of chapter 10, each
with the lemmas about the model's functions that it rests on. -/

namespace Sys2Proof.Machine

/-! ### The step (log entry 2) -/

/-- A step with a command waiting is that command, run with the queue's rest. -/
theorem step_of_pending_cons {s : State} {c : Instr} {cs : List Instr} (h : s.pending = c :: cs) :
    step s = exec c { s with pending := cs } := by
  unfold step; rw [h]

theorem step_of_pending_nil {s : State} (h : s.pending = []) : step s = .next (idleStep s) := by
  unfold step; rw [h]

/-! ### What a microsecond changes (R328, R329; log entry 172) -/

/-- The state with its clocks a microsecond on: session and powered time only while the controller is out of reset. -/
def clocksOn (s : State) : State :=
  { s with boardUs := s.boardUs + 1
           sessionUs := s.sessionUs + (if s.power.running = true then 1 else 0)
           poweredUs := s.poweredUs + (if s.power.running = true then 1 else 0) }

theorem tick_eq (s : State) : tick s = settle (timeDriven (clocksOn s)) := rfl

/-- While the pipelines work, the index dies stay as they are. -/
theorem pipesWork_index (s : State) : (pipesWork s).index = s.index := by
  have one : ∀ (u : State) (k : Nat), (workPipe u k).index = u.index := by
    intro u k
    unfold workPipe
    split
    · split
      · rfl
      · exact (bumpBy_frame _ _ _).index
    · rfl
  exact List.foldlRecOn (motive := fun t => t.index = s.index) _ _ rfl (fun t ht k _ => (one t k).trans ht)

/-- Programs of word lines that end change nothing but what the flash dies are doing (R236). -/
theorem endLines_onlyDies (s : State) : ∃ d, endLines s = { s with dies := d } :=
  List.foldlRecOn (motive := fun t => ∃ d, t = { s with dies := d }) _ _ ⟨_, rfl⟩
    (fun t ⟨_, ht⟩ _ _ => ⟨_, by rw [ht]; rfl⟩)

theorem endLines_index (s : State) : (endLines s).index = s.index := by
  obtain ⟨d, h⟩ := endLines_onlyDies s; rw [h]

theorem endLines_regGet (s : State) (k : Nat) : regGet (endLines s) k = regGet s k := by
  obtain ⟨d, h⟩ := endLines_onlyDies s; rw [h]; rfl

/-- Under reset, time drives nothing. -/
theorem timeDriven_of_not_running {s : State} (h : s.power.running = false) : timeDriven s = s :=
  if_neg (by simp [h])

/-- With no bank to be filled in place of a lost one, only the pipelines work and programs of word lines end. -/
theorem timeDriven_of_filled {s : State} (h : ∀ p ∈ s.index.pairs, p.unfilled = []) :
    timeDriven s = if s.power.running then endLines (pipesWork s) else s := by
  have hi : (endLines (pipesWork s)).index = s.index := (endLines_index _).trans (pipesWork_index s)
  unfold timeDriven
  rw [fillPairs_none _ (by rw [hi]; exact h)]

section
variable {s : State} (hf : ∀ p ∈ s.index.pairs, p.unfilled = [])
include hf

/-- With no bank to be filled, a microsecond leaves the index dies as they are. -/
theorem tick_index_of_filled : (tick s).index = s.index := by
  rw [tick_eq, settle_index, timeDriven_of_filled (s := clocksOn s) hf]
  split
  · exact (endLines_index _).trans (pipesWork_index _)
  · rfl

/-- So no read waits for a pair that has come to be filled, and the idle step is the microsecond alone (R221). -/
theorem idleStep_of_filled : idleStep s = tick s :=
  if_pos (congrArg Index.pairs (tick_index_of_filled hf))

/-- A register that counts no blocks and no events of the space state keeps its word over a microsecond. -/
theorem regGet_tick_of_filled {k : Nat} (h1 : k ≠ 0x8014) (h2 : k ≠ 0x801C) (h3 : k % 2 ^ 24 ≠ A.CP_PIPE_BLOCKS) :
    regGet (tick s) k = regGet s k := by
  rw [tick_eq, regGet_settle _ k h1 h2, timeDriven_of_filled (s := clocksOn s) hf]
  split
  · exact (endLines_regGet _ k).trans (pipesWork_regGet _ k h3)
  · rfl

end

/-- A microsecond changes what time drives, the clocks, and what follows every command. -/
theorem tick_frame (s : State) : ∃ u, OnlyTimed (clocksOn s) u ∧ tick s = settle u :=
  ⟨_, timeDriven_frame (clocksOn s), tick_eq s⟩

/-- Settles O1: a command waiting is run; else a microsecond passes, and its frame is that of what time drives. -/
theorem stepTakesTheFront : Obligations.StepTakesTheFront := by
  unfold Obligations.StepTakesTheFront
  refine ⟨fun c s => step_of_pending_cons rfl, fun c cs s => step_of_pending_cons, fun s => rfl, rfl,
    fun s => step_of_pending_nil, ?frame, ?filled, ?underReset⟩
  case frame =>
    intro s
    obtain ⟨u, ⟨ix, d, pp, r, rfl⟩, ht⟩ := tick_frame s
    simp only [ht, settle_pending, settle_boardUs, settle_sessionUs, settle_poweredUs, settle_flash, settle_log, settle_moorings,
      settle_berths, settle_cmds, settle_seqr, settle_mode, settle_harbour, settle_update, settle_out, settle_cipher]
    and_intros <;> rfl
  case filled =>
    exact fun s hf => ⟨idleStep_of_filled hf, tick_index_of_filled hf, fun k => regGet_tick_of_filled hf⟩
  case underReset =>
    intro s h
    rw [tick_eq, timeDriven_of_not_running (s := clocksOn s) h]
    exact ⟨settle_dies _, settle_cipher _, settle_index _⟩

/-! ### Power states (R322 to R326, R329) -/

/-- An idle drive enters the next state after its time, where R323 lets it. -/
theorem exec_pstateEntry_due {s : State} {t : Nat} (hl : live s = true) (ho : serviceOpen s = true)
    (hx : s.pstate.excursion = none) (hi : s.pstate.idleSince = some t) (hm : mayEnter s (s.pstate.cur + 1) = true)
    (hd : t + 1000 * (regGet s (A.HM_IDLE_T + 4 * s.pstate.cur)).toNat ≤ s.sessionUs) :
    exec .pstateEntry s = .next (settle (setPState s (s.pstate.cur + 1))) := by
  show execPstateEntry s = _
  unfold execPstateEntry
  rw [hi]
  exact if_pos (by simp [hl, ho, hx, hm, hd])

theorem exec_pstateEntry_busy {s : State} (hi : s.pstate.idleSince = none) : exec .pstateEntry s = .next (settle s) := by
  show execPstateEntry s = _
  unfold execPstateEntry
  rw [hi]; rfl

/-- Work that falls due takes the drive to P1, and the state it left is kept (R326). -/
theorem exec_maintenanceExcursion_begins {s : State} (hl : live s = true) (hx : s.pstate.excursion = none)
    (hp : 2 ≤ s.pstate.cur) (hw : workDue s = true) : exec .maintenanceExcursion s = .next (settle { setPState s 1 with
      pstate := { (setPState s 1).pstate with excursion := some s.pstate.cur } }) := by
  show execMaintenanceExcursion s = _
  unfold execMaintenanceExcursion
  rw [hx]
  exact if_pos (by simp [hl, hp, hw])

/-- With none due and none running the drive returns to the state it left. -/
theorem exec_maintenanceExcursion_ends {s : State} {k : Nat} (hl : live s = true) (ha : activating s = false)
    (hx : s.pstate.excursion = some k) (hw : workDue s = false) (hr : workRuns s = false) :
    exec .maintenanceExcursion s =
      .next (settle (setPState { s with pstate := { s.pstate with excursion := none } } k)) := by
  show execMaintenanceExcursion s = _
  unfold execMaintenanceExcursion
  rw [hx]
  exact if_pos (by simp [hl, ha, hw, hr])

/-- What R326 names as work. -/
theorem workDue_iff (s : State) : workDue s = true ↔ ckptDue s = true ∨ s.persistedAt + 60000000 ≤ s.poweredUs ∨
    hardDeadline s = true ∨ s.dies.any (fun d => d.2.calDue) = true ∨ testDue s = true ∨ flushDue s = true ∨
    patrolBehind s = true := by
  simp only [workDue, Bool.or_eq_true, decide_eq_true_eq, or_assoc]

/-- Powered time is persisted and recorded 60 s after it last was. -/
theorem exec_poweredTime_due {s : State} (hl : live s = true) (hd : s.persistedAt + 60000000 ≤ s.poweredUs) :
    exec .poweredTime s = .next (settle (persistPowered s)) :=
  if_pos (by simp [hl, hd])

/-- Settles O42: each branch of the three commands, and the list of the work that falls due. -/
theorem powerStates : Obligations.PowerStates := by
  unfold Obligations.PowerStates
  refine ⟨fun s t => exec_pstateEntry_due, fun s => exec_pstateEntry_busy, fun s => exec_maintenanceExcursion_begins,
    fun s k => exec_maintenanceExcursion_ends, fun s h => (workDue_iff s).2 ?_, fun s => exec_poweredTime_due⟩
  rcases h with h | h | h | h | h | h <;> simp [h]

end Sys2Proof.Machine
end

section
/-! PROOFS. The cipher engine: the statements of the family of chapter 11, each with the lemmas about the model's functions that
it rests on. -/

namespace Sys2Proof.Machine

/-! ### Slots and key records (R341, R353) -/

@[simp] theorem saveKey_cipher (s : State) (k : Nat) : (saveKey s k).cipher = s.cipher := by
  obtain ⟨t, h⟩ := saveKey_frame s k; rw [h]

@[simp] theorem slotOf_saveKey (s : State) (k j : Nat) : slotOf (saveKey s k) j = slotOf s j := by
  unfold slotOf; rw [saveKey_cipher]

theorem slotOf_putSlot_same (s : State) (k kind owner : Nat) (key : KeyMaterial) (indexKey : Nat) :
    slotOf (putSlot s k kind owner key indexKey) k = some
      { kind := kind, st := .live, epoch := 0, owner := owner, ctr := 0, chunk := 0, refs := 0, key := key, indexKey := indexKey,
        shadows := [] } := by
  simp [slotOf, putSlot]

theorem slotOf_freeSlot_same (s : State) (k : Nat) : slotOf (freeSlot s k) k = none := by
  simp [slotOf, freeSlot]

/-- `t` has the slots and the key records of `s`, but for those of `k`. -/
def OnlySlot (k : Nat) (s t : State) : Prop :=
  ∀ j, j ≠ k → slotOf t j = slotOf s j ∧ tabGet t.flash.keyRecords j = tabGet s.flash.keyRecords j

theorem OnlySlot.trans {k : Nat} {s t u : State} (h : OnlySlot k s t) (h' : OnlySlot k t u) : OnlySlot k s u :=
  fun j hj => ⟨(h' j hj).1.trans (h j hj).1, (h' j hj).2.trans (h j hj).2⟩

theorem putSlot_onlySlot (s : State) (k kind owner : Nat) (key : KeyMaterial) (indexKey : Nat) :
    OnlySlot k s (putSlot s k kind owner key indexKey) :=
  fun _ hj => ⟨(tabGet_tabPut ..).trans (if_neg hj.symm), rfl⟩

theorem updSlot_onlySlot (s : State) (k : Nat) (f : Slot → Slot) : OnlySlot k s (updSlot s k f) :=
  fun _ hj => ⟨(tabGet_tabUpd ..).trans (if_neg hj.symm), rfl⟩

theorem freeSlot_onlySlot (s : State) (k : Nat) : OnlySlot k s (freeSlot s k) :=
  fun _ hj => ⟨(tabGet_tabErase ..).trans (if_neg hj.symm), rfl⟩

theorem saveKey_onlySlot (s : State) (k : Nat) : OnlySlot k s (saveKey s k) := by
  refine fun j hj => ⟨slotOf_saveKey s k j, ?_⟩
  unfold saveKey
  split
  · exact (tabGet_tabPut ..).trans (if_neg hj.symm)
  · exact (tabGet_tabErase ..).trans (if_neg hj.symm)

/-! ### The key group's COMMIT (O8) -/

/-- A slot with new key material as its next epoch (R341). -/
def nextEpochOf (s : State) (k : Nat) (x : Slot) (key : KeyMaterial) : Slot :=
  { x with key := key, epoch := (x.epoch + 1) % 65536, ctr := 0, chunk := 0, shadows := shadowsAfter s k x }

/-- OP 1 on a free slot puts the words there as epoch 0. -/
theorem keyCommit_place {s : State} (ws : List Word) (ho : (keyGroup s).1 = 1) (hx : slotOf s (keyGroup s).2.1 = none) :
    keyCommit s ws = saveKey (putSlot s (keyGroup s).2.1 4 (keyGroup s).2.2 (.words ws) 0) (keyGroup s).2.1 := by
  simp only [keyCommit, ho, hx]

/-- OP 1 on a slot in use writes the words as its next epoch, for the owner that the group names. -/
theorem keyCommit_rewrite {s : State} (ws : List Word) {x : Slot} (ho : (keyGroup s).1 = 1)
    (hx : slotOf s (keyGroup s).2.1 = some x) : keyCommit s ws = saveKey (updSlot s (keyGroup s).2.1
      (fun _ => { nextEpochOf s (keyGroup s).2.1 x (.words ws) with owner := (keyGroup s).2.2 })) (keyGroup s).2.1 := by
  simp only [keyCommit, ho, hx]; rfl

theorem keyCommit_rekey {s : State} (ws : List Word) (ho : (keyGroup s).1 = 2) :
    keyCommit s ws = rekeySlot s (keyGroup s).2.1 := by
  simp only [keyCommit, ho]

theorem keyCommit_free {s : State} (ws : List Word) (ho : (keyGroup s).1 = 3) :
    keyCommit s ws = saveKey (freeSlot s (keyGroup s).2.1) (keyGroup s).2.1 := by
  simp only [keyCommit, ho]

theorem keyCommit_undefined {s : State} (ws : List Word) (h1 : (keyGroup s).1 ≠ 1) (h2 : (keyGroup s).1 ≠ 2)
    (h3 : (keyGroup s).1 ≠ 3) : keyCommit s ws = s := by
  unfold keyCommit
  dsimp only
  split <;> [contradiction; contradiction; contradiction; rfl]

/-- A quay's slot has a drawn key as its next epoch, and its sweep begins where none runs (R346). -/
theorem rekeySlot_eq {s : State} {k : Nat} {x : Slot} (hx : slotOf s k = some x) :
    let u := saveKey (updSlot { s with draws := s.draws + 1 } k (fun _ => nextEpochOf s k x (.drawn s.draws))) k
    rekeySlot s k = { u with cipher := { u.cipher with rekey := s.cipher.rekey.orElse (fun _ => some (x.owner, k)) } } := by
  simp only [rekeySlot, hx, saveKey_cipher]; rfl

theorem rekeySlot_onlySlot (s : State) (k : Nat) : OnlySlot k s (rekeySlot s k) := by
  cases hx : slotOf s k with
  | none => intro j _; simp only [rekeySlot, hx, and_self]
  | some x =>
    rw [rekeySlot_eq hx]
    exact (updSlot_onlySlot { s with draws := s.draws + 1 } k _).trans (saveKey_onlySlot _ k)

theorem slotOf_rekeySlot_same {s : State} {k : Nat} {x : Slot} (hx : slotOf s k = some x) :
    slotOf (rekeySlot s k) k = some (nextEpochOf s k x (.drawn s.draws)) := by
  rw [rekeySlot_eq hx]
  show slotOf (saveKey _ k) k = _
  rw [slotOf_saveKey, slotOf_updSlot_same]
  exact congrArg (Option.map _) hx

/-- A COMMIT of the key group concerns its slot alone. -/
theorem keyCommit_onlySlot (s : State) (ws : List Word) : OnlySlot (keyGroup s).2.1 s (keyCommit s ws) := by
  by_cases h1 : (keyGroup s).1 = 1
  · cases hx : slotOf s (keyGroup s).2.1 with
    | none => rw [keyCommit_place ws h1 hx]; exact (putSlot_onlySlot s _ 4 _ _ 0).trans (saveKey_onlySlot _ _)
    | some x => rw [keyCommit_rewrite ws h1 hx]; exact (updSlot_onlySlot s _ _).trans (saveKey_onlySlot _ _)
  by_cases h2 : (keyGroup s).1 = 2
  · rw [keyCommit_rekey ws h2]; exact rekeySlot_onlySlot s _
  by_cases h3 : (keyGroup s).1 = 3
  · rw [keyCommit_free ws h3]; exact (freeSlot_onlySlot s _).trans (saveKey_onlySlot _ _)
  · rw [keyCommit_undefined ws h1 h2 h3]; exact fun _ _ => ⟨rfl, rfl⟩

/-- An OP that names no operation is out of range, whatever else holds (R362). -/
theorem keyCommitStatus_undefined {s : State} (h : 3 < (keyGroup s).1) : keyCommitStatus s = some .range :=
  if_pos h

/-- A locked drive writes no key, whatever the slot (R354, R362). -/
theorem keyCommitStatus_locked {s : State} (ho : (keyGroup s).1 = 1 ∨ (keyGroup s).1 = 2) (hl : s.cipher.locked = true) :
    keyCommitStatus s = some .keyLost := by
  unfold keyCommitStatus
  dsimp only
  rw [if_neg (by omega), if_pos ⟨ho, hl⟩]

/-- OP 3 frees no slot in use of another kind than 4 (R362). -/
theorem keyCommitStatus_free_other {s : State} {x : Slot} (ho : (keyGroup s).1 = 3) (hx : slotOf s (keyGroup s).2.1 = some x)
    (hk : x.kind ≠ 4) : keyCommitStatus s = some .state := by
  simp [keyCommitStatus, ho, hx, hk]

/-- Settles O8: each OP's slot and record, the other slots, and the refusals, from the lemmas above. -/
theorem keyGroupCommit : Obligations.KeyGroupCommit := by
  unfold Obligations.KeyGroupCommit
  refine ⟨fun s ws ho => ⟨fun hx => ?place, fun x hx => ?rewrite⟩, fun s ws x ho hx => ?rekey, fun s ws ho => ?free,
    fun s ws => keyCommit_onlySlot s ws, fun s => keyCommitStatus_undefined, fun s => keyCommitStatus_locked,
    fun s x => keyCommitStatus_free_other⟩
  case place => rw [keyCommit_place ws ho hx, slotOf_saveKey, slotOf_putSlot_same]
  case rewrite => rw [keyCommit_rewrite ws ho hx, slotOf_saveKey, slotOf_updSlot_same, hx]; rfl
  case rekey =>
    rw [keyCommit_rekey ws ho]
    exact ⟨slotOf_rekeySlot_same hx, fun hr => by rw [rekeySlot_eq hx, hr]; rfl⟩
  case free =>
    rw [keyCommit_free ws ho, slotOf_saveKey, saveKey_freeSlot]
    exact ⟨slotOf_freeSlot_same .., (tabGet_tabErase ..).trans (if_pos rfl)⟩

/-! ### Alarms (O43) -/

theorem exec_alarm_trips {s : State} {c : AlarmCause} (ns : Nat) (hl : live s = true) (ha : s.cipher.armed = true)
    (hd : detectorTrips s c = true) : exec (.alarm c ns) s = .next (decided (alarmTrips s (causeCode c) ns)) :=
  if_pos (by simp only [hl, ha, hd, Bool.and_self])

theorem exec_alarm_unarmed {s : State} (c : AlarmCause) (ns : Nat) (ha : s.cipher.armed = false) :
    exec (.alarm c ns) s = .next (settle s) :=
  if_neg (by simp [ha])

/-- No on-die sensor whose newest sample lies from −25.0 °C to 125.0 °C trips the temperature detector (R355). -/
theorem onDieOutside_of_inside {s : State}
    (h : ∀ n < 16, ∀ t, (sensorOf s 4 n).samples.getLast? = some t → -250 ≤ t ∧ t ≤ 1250) : onDieOutside s = false := by
  refine List.any_eq_false.2 fun n hn => ?_
  cases ht : (sensorOf s 4 n).samples.getLast? with
  | none => simp
  | some t =>
    obtain ⟨hlow, hhigh⟩ := h n (List.mem_range.1 hn) t ht
    simp only [Bool.or_eq_true, decide_eq_true_eq]
    omega

theorem exec_alarm_inside {s : State} (ns : Nat) (h : onDieOutside s = false) :
    exec (.alarm .temperature ns) s = .next (settle s) :=
  if_neg (by simp [detectorTrips, h])

/-- A slot whose key material is gone: SEALED where it was LIVE (R342, R356). -/
def zeroised (x : Slot) : Slot :=
  { x with st := if x.st = .live then SlotState.sealed else x.st, key := noKey, indexKey := 0,
           shadows := x.shadows.map (fun h => { h with key := noKey }) }

theorem zeroised_not_live (x : Slot) : (zeroised x).st ≠ .live := by
  unfold zeroised
  dsimp only
  split <;> simp_all

theorem zeroised_shadows (x : Slot) : ∀ h ∈ (zeroised x).shadows, h.key = noKey := by
  intro h hh
  obtain ⟨_, _, rfl⟩ := List.mem_map.1 hh
  rfl

/-- What Zeroise leaves of the slots: those of kinds 1 and 4, whose keys are wrapped in flash, without their keys. -/
theorem mem_zeroiseKeys_slots {s : State} {mesh : Bool} {q : Nat × Slot} : q ∈ (zeroiseKeys s mesh).cipher.slots ↔
    ∃ p ∈ s.cipher.slots, (p.2.kind = 1 ∨ p.2.kind = 4) ∧ (p.1, zeroised p.2) = q := by
  show q ∈ (s.cipher.slots.filter (fun p => p.2.kind == 1 || p.2.kind == 4)).map (fun p => (p.1, zeroised p.2)) ↔ _
  simp only [List.mem_map, List.mem_filter, Bool.or_eq_true, beq_iff_eq, and_assoc]

/-- The record is written once no command's operation references a slot any more (R356). -/
theorem exec_alarmSettle_ended {s : State} (ha : s.cipher.alarm = .settle) (hc : ∀ c ∈ s.cmds, pastCipher s c = true) :
    exec .alarmSettle s = .next (settle (logRecord { s with cipher := { s.cipher with alarm := .none } } 0x60 (src 7 0) true
      (leBytes s.cipher.alarmCause 1 ++ [0] ++ leBytes s.cipher.zeroiseNs 2 ++ leBytes s.seqr.next 8))) :=
  if_pos ⟨ha, List.all_eq_true.2 hc⟩

theorem exec_alarmSettle_waits {s : State} (h : s.cipher.alarm ≠ .settle ∨ ∃ c ∈ s.cmds, pastCipher s c = false) :
    exec .alarmSettle s = .next (settle s) := by
  refine if_neg fun ⟨ha, hc⟩ => ?_
  rcases h with h | ⟨c, hm, hp⟩
  · exact h ha
  · exact absurd (List.all_eq_true.1 hc c hm) (by simp [hp])

/-- Settles O43: the trip and its guards, what Zeroise leaves, and the record, from the lemmas above. -/
theorem alarmsZeroise : Obligations.AlarmsZeroise := by
  unfold Obligations.AlarmsZeroise
  refine ⟨fun s c ns => exec_alarm_trips ns, fun s c ns => exec_alarm_unarmed c ns,
    fun s ns h => exec_alarm_inside ns (onDieOutside_of_inside h), ?zeroise, fun s => exec_alarmSettle_ended,
    fun s => exec_alarmSettle_waits⟩
  intro s mesh
  refine ⟨fun q hq => ?_, fun p hp hk => ⟨_, mem_zeroiseKeys_slots.2 ⟨p, hp, hk, rfl⟩, rfl, rfl, zeroised_shadows p.2⟩,
    rfl, rfl, ?_, ?_, rfl, rfl⟩
  · obtain ⟨p, _, hk, rfl⟩ := mem_zeroiseKeys_slots.1 hq
    exact ⟨zeroised_not_live p.2, hk⟩
  · rintro rfl; exact ⟨rfl, rfl, Bool.or_true _⟩
  · rintro rfl; exact ⟨rfl, rfl⟩

/-! ### Entropy (R338) -/

/-- The count of a fault whose window does not persist changes the logbook alone (R383). -/
theorem setFaultCount_logged (s : State) {row : Nat} (h : faultPersists row = false) (inst : Nat) (c : FaultCount) :
    OnlyLog s (setFaultCount s row inst c) := by
  unfold setFaultCount; rw [h]; exact ⟨_, _, rfl⟩

theorem bumpHalf_logged (s : State) (addr lo : Nat) : OnlyLog s (bumpHalf s addr lo) := by
  obtain ⟨_, h⟩ := bumpHalf_frame s addr lo; rw [h]; exact ⟨_, _, rfl⟩

/-- A failure of the entropy source is counted, in its register and as a fault, lasting or not. -/
def entropyCounted (s : State) (lasting : Bool) : State :=
  let u := bumpHalf { s with cipher := { s.cipher with entropyStreak := s.cipher.entropyStreak + 1 } } A.CP_ENTROPY 0
  let c := faultCount u 14 0
  setFaultCount u 14 0 { times := c.times ++ [s.sessionUs], total := sat (c.total + 1) 16, lasting := lasting }

/-- The lasting fault, with its record and event (R381). -/
def lastingRecorded (s : State) : State :=
  raise (logRecord (entropyCounted s true) 0x11 (faultSource 14 0) true
    (faultPayload 14 0 (s.cipher.entropyStreak + 1) 0 false)) 3 4

/-- The entropy source has failed until the next power-on: its event and its record. -/
def entropyLost (u : State) : State :=
  let v := raise { u with cipher := { u.cipher with entropyFailed := true } } 6 4
  logRecord v 0x64 (src 7 0) true (leBytes (fieldOf v A.CP_ENTROPY 15 0) 2)

theorem entropyCounted_logged (s : State) (lasting : Bool) :
    OnlyLog { s with cipher := { s.cipher with entropyStreak := s.cipher.entropyStreak + 1 } } (entropyCounted s lasting) :=
  (bumpHalf_logged _ _ _).trans (setFaultCount_logged _ rfl _ _)

theorem lastingRecorded_logged (s : State) :
    OnlyLog { s with cipher := { s.cipher with entropyStreak := s.cipher.entropyStreak + 1 } } (lastingRecorded s) :=
  (entropyCounted_logged s true).trans ((logRecord_frame _ _ _ _ _ _).trans (raise_logged _ _ _))

theorem entropyLost_logged (u : State) :
    OnlyLog { u with cipher := { u.cipher with entropyFailed := true } } (entropyLost u) :=
  (raise_logged _ _ _).trans (logRecord_frame _ _ _ _ _ _)

section
variable {s : State} (hl : live s = true) (hf : s.cipher.entropyFailed = false)
include hl hf

/-- A failure is counted and recorded; whether it is lasting is a matter of the failures in a row. -/
theorem exec_entropyHealthFail_counted : exec .entropyHealthFail s =
    let last := decide (3 ≤ s.cipher.entropyStreak + 1)
    let pay := faultPayload 14 0 (s.cipher.entropyStreak + 1) 0 false
    if last then conclude (entropyLost (raise (logRecord (entropyCounted s last) 0x11 (faultSource 14 0) true pay) 3 4))
    else conclude (logRecord (entropyCounted s last) 0x10 (faultSource 14 0) false pay) :=
  if_neg (by simp [hl, hf])

/-- The first two failures in a row are transient faults. -/
theorem exec_entropyHealthFail_transient (hn : s.cipher.entropyStreak < 2) :
    exec .entropyHealthFail s = .next (settle (logRecord (entropyCounted s false) 0x10 (faultSource 14 0) false
      (faultPayload 14 0 (s.cipher.entropyStreak + 1) 0 false))) := by
  rw [exec_entropyHealthFail_counted hl hf, decide_eq_false (by omega : ¬3 ≤ s.cipher.entropyStreak + 1)]
  rfl

/-- From the third on the fault is lasting, and the source has failed. -/
theorem exec_entropyHealthFail_lasting (hn : 2 ≤ s.cipher.entropyStreak) :
    exec .entropyHealthFail s = .next (settle (entropyLost (lastingRecorded s))) := by
  rw [exec_entropyHealthFail_counted hl hf, decide_eq_true (by omega : 3 ≤ s.cipher.entropyStreak + 1)]
  rfl

end

/-! ### Keys: rekeying, its sweep and counters (R344 to R346) -/

theorem exec_autoRekey_due {s : State} {k : Nat} {x : Slot} (hx : slotOf s k = some x) (hk : x.kind = 1) (hs : x.st = .live)
    (hc : 2 ^ 47 < x.ctr) (hr : rekeyFits s k x = true) (he : s.cipher.entropyFailed = false) :
    exec (.autoRekey k) s = .next (settle (rekeySlot s k)) := by
  show execAutoRekey k s = _
  simp only [execAutoRekey, hx]
  exact if_pos ⟨hk, hs, hc, hr, by rw [he]; rfl⟩

theorem exec_counterChunkReserve_due {s : State} {k : Nat} {x : Slot} (hx : slotOf s k = some x) (hk : x.kind = 1 ∨ x.kind = 4)
    (hc : x.chunk + 2 ^ 19 ≤ x.ctr) : exec (.counterChunkReserve k) s = .next (settle
      (saveKey (updSlot s k (fun y => { y with chunk := y.chunk + 2 ^ 20 })) k)) := by
  show execCounterChunkReserve k s = _
  simp only [execCounterChunkReserve, hx]
  exact if_pos ⟨hk, hc⟩

/-- Step 4 of R346: the sweep has left no old record, and the checkpoint it waited for is complete. -/
theorem exec_rekeySweepEnd_due {s : State} {q k : Nat} {x : Slot} (hr : s.cipher.rekey = some (q, k))
    (hx : slotOf s k = some x) (ho : oldEpochItems s q x.epoch = []) (hc : s.cipher.rekeyCkpt ≤ s.space.ckptSeq) :
    let u := saveKey (updSlot s k (fun y => { y with shadows := x.shadows.filter (fun h => epochRefs s k h.epoch != 0) })) k
    exec .rekeySweepEnd s =
      .next (settle (raise { u with cipher := { u.cipher with rekey := nextSweep u, rekeyCkpt := 0 } } 6 2)) := by
  show execRekeySweepEnd s = _
  simp only [execRekeySweepEnd, hr, hx]
  exact if_pos ⟨by rw [ho]; rfl, hc⟩

/-! ### Messages of the pipelines (R335, R336) -/

theorem suspender_eq_some_iff {p : Pipe} {r w : Msg} : suspender p = some (r, w) ↔ p.running = some r ∧
    bestMsg p.waiting = some w ∧ w.prio < r.prio ∧ 256 < r.left ∧ p.saved.length < 64 := by
  unfold suspender
  cases p.running with
  | none => simp
  | some a =>
    cases bestMsg p.waiting with
    | none => simp
    | some b =>
      simp only [Option.ite_none_right_eq_some, Option.some.injEq, Prod.mk.injEq]
      constructor
      · rintro ⟨h, rfl, rfl⟩; exact ⟨rfl, rfl, h⟩
      · rintro ⟨rfl, rfl, h⟩; exact ⟨h, rfl, rfl⟩

section
variable {s : State} {k : Nat} {p : Pipe} (hk : pipeServes s k = true) (hp : s.cipher.pipes[k]? = some p)
include hk hp

theorem exec_cipherSuspend_due {r w : Msg} (h : suspender p = some (r, w)) :
    exec (.cipherSuspend k) s = .next (settle (bump (updPipe s k (fun p => { p with
      running := some w
      waiting := p.waiting.filter (fun x => x != w)
      saved := p.saved ++ [{ r with suspendedAt := s.sessionUs }] })) (regKey A.CP_PIPE_SUSPENDS k))) := by
  show execCipherSuspend k s = _
  simp only [execCipherSuspend, hk, hp, Option.bind_some, h]
  rfl

theorem exec_cipherResume_due {m : Msg} (h : resumer s.sessionUs p = some m) :
    exec (.cipherResume k) s = .next (settle (updPipe
      (bumpBy s (regKey A.CP_PIPE_BLOCKS k) (p.running.elim 0 Msg.left)) k
      (fun p => { p with running := some m, saved := p.saved.filter (fun x => x != m) }))) := by
  show execCipherResume k s = _
  simp only [execCipherResume, hk, hp, h]
  cases p.running <;> rfl

end

/-! ### The pipeline a message goes to (R335) -/

/-- Blocks queued at the pipeline of a number. -/
def pipeLoad (s : State) (k : Nat) : Nat := match s.cipher.pipes[k]? with
  | some p => queuedBlocks p
  | none => 0

theorem pipeLoad_of_pipe {s : State} {k : Nat} {p : Pipe} (h : s.cipher.pipes[k]? = some p) : pipeLoad s k = queuedBlocks p := by
  unfold pipeLoad; rw [h]

theorem pipe_of_serves {s : State} {k : Nat} (h : pipeServes s k = true) : ∃ p, s.cipher.pipes[k]? = some p := by
  cases hp : s.cipher.pipes[k]? with
  | none => simp [pipeServes, hp] at h
  | some p => exact ⟨p, rfl⟩

/-- The choice is the first of the least load among those that serve. -/
theorem freestPipe_eq_argmin (s : State) : freestPipe s = ((List.range 8).filter (pipeServes s)).argmin (pipeLoad s) := by
  unfold freestPipe List.argmin
  dsimp only
  congr 1
  funext best k
  cases best <;> rfl

/-- In a list of rising numbers, what comes first is the lower. -/
theorem le_of_idxOf_le {l : List Nat} (hs : l.Pairwise (· < ·)) {j k : Nat} (hj : j ∈ l) (hk : k ∈ l)
    (h : l.idxOf j ≤ l.idxOf k) : j ≤ k := by
  rcases Nat.lt_or_eq_of_le h with h | h
  · have := List.pairwise_iff_getElem.1 hs _ _ (List.idxOf_lt_length_iff.2 hj) (List.idxOf_lt_length_iff.2 hk) h
    simp only [List.getElem_idxOf] at this
    exact this.le
  · exact ((List.idxOf_inj hj).1 h).le

/-- The pipeline chosen serves; none that serves has fewer blocks queued, and none of as many has a lower number. -/
theorem freestPipe_least {s : State} {j : Nat} (h : freestPipe s = some j) : j < 8 ∧ pipeServes s j = true ∧
    ∀ k < 8, pipeServes s k = true → pipeLoad s j < pipeLoad s k ∨ (pipeLoad s j = pipeLoad s k ∧ j ≤ k) := by
  have mem : ∀ k, k ∈ (List.range 8).filter (pipeServes s) ↔ k < 8 ∧ pipeServes s k = true := by simp
  rw [freestPipe_eq_argmin] at h
  have hj := List.argmin_mem h
  refine ⟨((mem j).1 hj).1, ((mem j).1 hj).2, fun k hk hs => ?_⟩
  have hm := (mem k).2 ⟨hk, hs⟩
  rcases (List.le_of_mem_argmin hm h).lt_or_eq with hlt | heq
  · exact .inl hlt
  · exact .inr ⟨heq, le_of_idxOf_le (List.pairwise_lt_range.filter _) hj hm (List.index_of_argmin h hm heq.ge)⟩

/-! ### Shares and masks (R337, R338) -/

theorem roundShares_xor (mask : BitVec 256) (x : BitVec 128) : (roundShares mask x).1 ^^^ (roundShares mask x).2 = x := by
  show mask.extractLsb' 0 128 ^^^ (x ^^^ mask.extractLsb' 0 128) = x
  rw [BitVec.xor_comm x, ← BitVec.xor_assoc, BitVec.xor_self, BitVec.zero_xor]

theorem keyShares_xor (mask key : BitVec 256) : (keyShares mask key).1 ^^^ (keyShares mask key).2 = key := by
  show mask ^^^ (key ^^^ mask) = key
  rw [BitVec.xor_comm key, ← BitVec.xor_assoc, BitVec.xor_self, BitVec.zero_xor]

theorem blockShares_xor (k domain : Nat) {p : Pipe} {m : Msg} (h : p.running = some m) :
    ∃ x, blockShares k domain p = some x ∧ x.1 ^^^ x.2 = counterBlock domain m :=
  ⟨_, by unfold blockShares; rw [h]; rfl, roundShares_xor _ _⟩

theorem takeMasks_within {n : Nat} {g : MaskGen} (f : Bool) (h : g.requests + n < 2 ^ 32) :
    takeMasks f n g = { g with requests := g.requests + n } :=
  if_neg fun ⟨hge, _⟩ => absurd h (Nat.not_lt.2 hge)

theorem takeMasks_reseeds {n : Nat} {g : MaskGen} (h : 2 ^ 32 ≤ g.requests + n) :
    takeMasks false n g = { seeds := g.seeds + 1, requests := g.requests + n - 2 ^ 32 } :=
  if_pos ⟨h, rfl⟩

theorem takeMasks_failed (n : Nat) (g : MaskGen) : takeMasks true n g = { g with requests := g.requests + n } :=
  if_neg fun ⟨_, hf⟩ => absurd hf Bool.false_ne_true

/-! ### Faults of a pipeline (R358, R359) -/

@[simp] theorem reissue_flash (s : State) (k : Nat) : (reissue s k).flash = s.flash := by
  unfold reissue; split <;> rfl

section
variable {s : State} {k : Nat} (hl : live s = true) (hk : pipeServes s k = true)
include hl hk

theorem exec_pipeUncorrectable_native (ho : s.flash.otp.lineage = false) :
    exec (.pipeUncorrectable k) s = .next (settle (countPipe (reissue s k) k)) := by
  show execPipeUncorrectable k s = _
  simp only [execPipeUncorrectable, hl, hk, reissue_flash, ho]
  rfl

/-- In lineage mode the command of the message that ran ends as a parity fault has it. -/
theorem exec_pipeUncorrectable_running (ho : s.flash.otp.lineage = true) {m : Msg}
    (hm : (s.cipher.pipes[k]?).bind Pipe.running = some m) : exec (.pipeUncorrectable k) s =
      .next (decided (parityOutcome (raise (countPipe (reissue s k) k) 6 3) m.id)) := by
  show execPipeUncorrectable k s = _
  simp only [execPipeUncorrectable, hl, hk, reissue_flash, ho, hm]
  rfl

theorem exec_pipeUncorrectable_idle (ho : s.flash.otp.lineage = true) (hm : (s.cipher.pipes[k]?).bind Pipe.running = none) :
    exec (.pipeUncorrectable k) s = .next (decided (raise (countPipe (reissue s k) k) 6 3)) := by
  show execPipeUncorrectable k s = _
  simp only [execPipeUncorrectable, hl, hk, reissue_flash, ho, hm]
  rfl

theorem exec_parityFault_lineage (csn : Nat) (ho : s.flash.otp.lineage = true) : exec (.parityFault k csn) s =
    .next (decided (parityOutcome (raise (countPipe (reissue s k) k) 6 3) csn)) :=
  if_neg (by simp [hl, hk, ho])

end

theorem exec_parityFault_native {s : State} (k csn : Nat) (ho : s.flash.otp.lineage = false) :
    exec (.parityFault k csn) s = .next (settle s) :=
  if_pos (by simp [ho])

/-- Settles O44: entropy, keys, messages, masks and faults, clause by clause from the lemmas above. -/
theorem cipherCommands : Obligations.CipherCommands := by
  unfold Obligations.CipherCommands
  refine ⟨fun s => exec_entropyHealthFail_transient, fun s hl hf hn => ?lasting,
    fun s k x hx => ⟨exec_autoRekey_due hx, exec_counterChunkReserve_due hx⟩, fun s q k x => exec_rekeySweepEnd_due,
    fun s k p r w hk hp => exec_cipherSuspend_due hk hp, fun p r w => suspender_eq_some_iff,
    fun s k p m hk hp => exec_cipherResume_due hk hp,
    fun s j h => ?freest, roundShares_xor, keyShares_xor, fun k domain p m => blockShares_xor k domain,
    fun n g f => ⟨takeMasks_within f, fun h => ⟨takeMasks_reseeds h, takeMasks_failed n g⟩⟩,
    fun s k hl hk => ⟨exec_pipeUncorrectable_native hl hk, fun m ho => exec_pipeUncorrectable_running hl hk ho,
      exec_pipeUncorrectable_idle hl hk, fun csn => exec_parityFault_lineage hl hk csn,
      fun csn => exec_parityFault_native k csn⟩⟩
  case lasting =>
    have hu := lastingRecorded_logged s
    have hv := entropyLost_logged (lastingRecorded s)
    refine ⟨_, exec_entropyHealthFail_lasting hl hf hn, ?_⟩
    simp only [settle_cipher, settle_flash, settle_cmds, settle_berths, settle_moorings, hv.cipher, hv.flash, hv.cmds, hv.berths,
      hv.moorings, hu.cipher, hu.flash, hu.cmds, hu.berths, hu.moorings, and_self]
  case freest =>
    obtain ⟨hj, hs, hleast⟩ := freestPipe_least h
    obtain ⟨p, hp⟩ := pipe_of_serves hs
    refine ⟨hj, hs, p, hp, fun k hk q hsk hq => ?_⟩
    rw [← pipeLoad_of_pipe hp, ← pipeLoad_of_pipe hq]
    exact hleast k hk hsk

end Sys2Proof.Machine
end

section
/-! PROOFS. That every command answers, and the logbook: the statements of the family of chapter 12, each with the lemmas about
the model's functions that it rests on. -/

namespace Sys2Proof.Machine

/-! ### Every command answers -/

/-- Settles O4: every command ends with what follows every command, and that gives a next state. -/
theorem everyCommandAnswers : Obligations.EveryCommandAnswers := by
  unfold Obligations.EveryCommandAnswers
  intro c s
  obtain ⟨u, h⟩ := exec_concludes c s
  exact ⟨_, h⟩

/-! ### Word lines (R364) -/

/-- What becomes of the record at the front: of the other stream it stays staged, of the line's own it is taken, or the line
is full and takes nothing more. -/
theorem packLine_cons (ledger : Bool) (r : LogRec) (l : List LogRec) (page used : Nat) :
    (r.ledger ≠ ledger ∧ packLine ledger (r :: l) page used =
      ((packLine ledger l page used).1, r :: (packLine ledger l page used).2)) ∨
    (r.ledger = ledger ∧ ∃ page' used', packLine ledger (r :: l) page used =
      (r :: (packLine ledger l page' used').1, (packLine ledger l page' used').2)) ∨
    packLine ledger (r :: l) page used = ([], r :: l) := by
  by_cases hr : r.ledger = ledger
  · by_cases hf : used + (recLength r.payload + 7) / 8 * 8 ≤ 16384
    · exact .inr (.inl ⟨hr, page, used + (recLength r.payload + 7) / 8 * 8, by simp [packLine, hr, hf]⟩)
    · by_cases hp : page < 2
      · exact .inr (.inl ⟨hr, page + 1, (recLength r.payload + 7) / 8 * 8, by simp [packLine, hr, hf, hp]⟩)
      · exact .inr (.inr (by simp [packLine, hr, hf, hp]))
  · exact .inl ⟨hr, by simp [packLine, hr]⟩

section
variable (ledger : Bool) (l : List LogRec) (page used : Nat)

/-- A word line takes records of one stream only. -/
theorem packLine_stream : ∀ r ∈ (packLine ledger l page used).1, r.ledger = ledger := by
  induction l generalizing page used with
  | nil => simp [packLine]
  | cons r l ih =>
    obtain ⟨-, h⟩ | ⟨hr, p, u, h⟩ | h := packLine_cons ledger r l page used
    · rw [h]; exact ih page used
    · rw [h]; exact List.forall_mem_cons.2 ⟨hr, ih p u⟩
    · rw [h]; exact fun _ hn => absurd hn List.not_mem_nil

/-- No record is lost, and none comes twice. -/
theorem packLine_perm : ((packLine ledger l page used).1 ++ (packLine ledger l page used).2).Perm l := by
  induction l generalizing page used with
  | nil => simp [packLine]
  | cons r l ih =>
    obtain ⟨-, h⟩ | ⟨-, p, u, h⟩ | h := packLine_cons ledger r l page used
    · rw [h]; exact List.perm_middle.trans ((ih page used).cons r)
    · rw [h]; exact (ih p u).cons r
    · rw [h]; exact List.Perm.refl _

/-- The records of its stream that it takes are the first of them, in their order. -/
theorem packLine_own : l.filter (fun r => r.ledger == ledger) = (packLine ledger l page used).1 ++
    (packLine ledger l page used).2.filter (fun r => r.ledger == ledger) := by
  induction l generalizing page used with
  | nil => simp [packLine]
  | cons r l ih =>
    obtain ⟨hr, h⟩ | ⟨hr, p, u, h⟩ | h := packLine_cons ledger r l page used
    · rw [h]; simpa [hr] using ih page used
    · rw [h]; simpa [hr] using ih p u
    · rw [h]; rfl

/-- The records of the other stream stay staged as they were. -/
theorem packLine_other : l.filter (fun r => r.ledger != ledger) =
    (packLine ledger l page used).2.filter (fun r => r.ledger != ledger) := by
  induction l generalizing page used with
  | nil => simp [packLine]
  | cons r l ih =>
    obtain ⟨hr, h⟩ | ⟨hr, p, u, h⟩ | h := packLine_cons ledger r l page used
    · rw [h]; simpa [hr] using ih page used
    · rw [h]; simpa [hr] using ih p u
    · rw [h]

end

/-- Settles O47: what the line takes and what it leaves, by induction on the ring. -/
theorem wordLinesKeepOrder : Obligations.WordLinesKeepOrder := by
  unfold Obligations.WordLinesKeepOrder
  intro ledger l line rest h
  have hs := packLine_stream ledger l 0 0
  have hp := packLine_perm ledger l 0 0
  have ho := packLine_own ledger l 0 0
  have hn := packLine_other ledger l 0 0
  rw [h] at hs hp ho hn
  exact ⟨hs, hp, ho, hn⟩

/-! ### The creation of a record (R365, R366, R371, R374) -/

section
variable {s : State} {typ source : Nat} {crit ledger : Bool} {pay : List Byte}

theorem logRecord_staged (hf : s.log.frozen = none) (hm : s.log.media ≠ 3)
    (hr : stagingRoom s.log (recLength pay) crit = true) : logRecord s typ source crit pay ledger = { s with log := { s.log with
      nextSeq := s.log.nextSeq + 1
      staging := s.log.staging ++ [{ seq := s.log.nextSeq, typ := typ, source := source, flags := flag crit, payload := pay,
                                     ledger := ledger, createdAt := s.sessionUs, block := 0 }]
      highWater := max s.log.highWater (s.log.staging.length + 1) } } := by
  simp [logRecord, stagePut, hf, hm, hr]

theorem logRecord_held (hf : s.log.frozen ≠ none) (hr : holdingRoom s.log crit = true) :
    logRecord s typ source crit pay ledger = { s with log := { s.log with
      nextSeq := s.log.nextSeq + 1
      holding := s.log.holding ++ [{ seq := s.log.nextSeq, typ := typ, source := source, flags := flag crit ||| 2, payload := pay,
                                     ledger := ledger, createdAt := s.sessionUs, block := 0 }] } } := by
  obtain ⟨f, hf⟩ := Option.ne_none_iff_exists'.1 hf
  simp [logRecord, hf, hr]

theorem logRecord_lost (hf : s.log.frozen ≠ none) (hr : holdingRoom s.log crit = false) :
    logRecord s typ source crit pay ledger = { s with log := { s.log with
      lostHeld := s.log.lostHeld + 1
      lostCritical := s.log.lostCritical + flag crit
      lostTotal := sat (s.log.lostTotal + 1) 16 } } := by
  obtain ⟨f, hf⟩ := Option.ne_none_iff_exists'.1 hf
  simp [logRecord, hf, hr]

/-- With no room in the staging ring a record takes no number. -/
theorem logRecord_unplaced (hf : s.log.frozen = none) (hm : s.log.media ≠ 3)
    (hr : stagingRoom s.log (recLength pay) crit = false) :
    logRecord s typ source crit pay ledger = coalesceOrDrop s typ source crit := by
  simp [logRecord, hf, hm, hr]

theorem coalesceOrDrop_known (h : ∃ c ∈ s.log.coalesce, c.typ = typ ∧ c.source = source) :
    coalesceOrDrop s typ source crit = bump { s with log := { s.log with
      coalesce := s.log.coalesce.map (fun c => if c.typ == typ && c.source == source then { c with count := c.count + 1 } else c) } }
      A.LB_COALESCED :=
  if_pos (by simpa using h)

theorem coalesceOrDrop_new (h : ∀ c ∈ s.log.coalesce, c.typ = typ → c.source ≠ source) (hr : s.log.coalesce.length < 256) :
    coalesceOrDrop s typ source crit = bump { s with log := { s.log with
      coalesce := s.log.coalesce ++ [⟨typ, source, 1⟩] } } A.LB_COALESCED :=
  (if_neg (by simpa using h)).trans (if_pos hr)

theorem coalesceOrDrop_full (h : ∀ c ∈ s.log.coalesce, c.typ = typ → c.source ≠ source) (hr : 256 ≤ s.log.coalesce.length) :
    coalesceOrDrop s typ source crit = bump { s with log := { s.log with
      dropped := s.log.dropped + 1
      droppedCritical := s.log.droppedCritical + flag crit } } A.LB_DROPPED :=
  (if_neg (by simpa using h)).trans (if_neg (Nat.not_lt.2 hr))

end

/-- Settles O46: where a record goes, by the freeze and the room there is, and what counts one without room. -/
theorem recordsAreNumbered : Obligations.RecordsAreNumbered := by
  unfold Obligations.RecordsAreNumbered
  intro s typ source crit ledger pay r
  refine ⟨logRecord_staged, fun hf hr => ?held, logRecord_lost, fun hf hm hr => ⟨fun hk => ?_, fun hn hl => ?_, fun hn hl => ?_⟩⟩
  case held =>
    have hflags : flag crit ||| 2 = if crit then 3 else 2 := by cases crit <;> rfl
    rw [logRecord_held hf hr, hflags]
  · exact (logRecord_unplaced hf hm hr).trans (coalesceOrDrop_known hk)
  · exact (logRecord_unplaced hf hm hr).trans (coalesceOrDrop_new hn hl)
  · exact (logRecord_unplaced hf hm hr).trans (coalesceOrDrop_full hn hl)

end Sys2Proof.Machine
end

section
/-! PROOFS. The logbook at work: the statements of the family of chapter 12 on word lines, wraps, media failures and freezes. -/

namespace Sys2Proof.Machine

/-! ### Word lines that are due (R364, R464) -/

theorem exec_logFlush_due {s : State} {r : LogRec} {rest : List LogRec} (hs : s.log.staging = r :: rest)
    (hd : flushDue s = true) (hu : s.power.holdUpReady = true) (hw : needsWrap s r.ledger = false)
    (hl : lineLost s r.ledger = false) :
    exec .logFlush s = .next (settle (afterFlush (countLine (flushLine s r.ledger) r.ledger))) := by
  show execLogFlush s = _
  simp [execLogFlush, hs, hd, hu, hw, hl, conclude_eq]

theorem exec_logFlush_unready {s : State} (hu : s.power.holdUpReady = false) : exec .logFlush s = .next (settle s) :=
  if_pos (by simp [hu])

theorem countLine_onlyRegs (s : State) (ledger : Bool) : OnlyRegs s (countLine s ledger) := by
  unfold countLine; split
  · exact foldl_onlyRegs _ (fun u g => bump_frame u _) _ s
  · exact OnlyRegs.refl s

/-- A stream lies in flash, and nothing else of the state is read for it. -/
theorem streamOf_congr {s t : State} (hg : t.flash.general = s.flash.general) (hl : t.flash.ledger = s.flash.ledger)
    (ledger : Bool) : streamOf t ledger = streamOf s ledger := by
  unfold streamOf; rw [hg, hl]

@[simp] theorem streamOf_setStream_same (s : State) (ledger : Bool) (x : LogStream) :
    streamOf (setStream s ledger x) ledger = x := by
  cases ledger <;> rfl

@[simp] theorem streamOf_setStream_other (s : State) (ledger : Bool) (x : LogStream) :
    streamOf (setStream s ledger x) (!ledger) = streamOf s (!ledger) := by
  cases ledger <;> rfl

@[simp] theorem setStream_log (s : State) (ledger : Bool) (x : LogStream) : (setStream s ledger x).log = s.log := by
  cases ledger <;> rfl

/-- Programming a word line puts pages of the logbook, and changes nothing else. -/
theorem putLogLine_frame (s : State) (ledger : Bool) (line : List LogRec) : ∃ p,
    putLogLine s ledger line = { s with flash := { s.flash with logPages := p } } := by
  unfold putLogLine; split <;> exact ⟨_, rfl⟩

@[simp] theorem putLogLine_log (s : State) (ledger : Bool) (line : List LogRec) : (putLogLine s ledger line).log = s.log := by
  obtain ⟨p, h⟩ := putLogLine_frame s ledger line; rw [h]

@[simp] theorem streamOf_putLogLine (s : State) (b ledger : Bool) (line : List LogRec) :
    streamOf (putLogLine s b line) ledger = streamOf s ledger := by
  obtain ⟨p, h⟩ := putLogLine_frame s b line; rw [h]; rfl

/-- A word line leaves in staging what it does not take, and the other stream as it was. -/
theorem flushLine_leaves (s : State) (ledger : Bool) :
    (flushLine s ledger).log = { s.log with staging := (packLine ledger s.log.staging 0 0).2 } ∧
    streamOf (flushLine s ledger) (!ledger) = streamOf s (!ledger) := by
  unfold flushLine; dsimp only
  simp only [putLogLine_log, setStream_log, streamOf_putLogLine, streamOf_setStream_other, true_and]
  rfl

/-! ### Counters recorded (R371), and wraps (R375) -/

theorem exec_coalesced_room {s : State} (hl : s.log.staging.length < 3584) (hb : stagedBytes s.log.staging < 1835008) :
    let u := s.log.coalesce.foldl
      (fun v c => logRecord v 3 (src 4 0) false (leBytes c.typ 2 ++ leBytes c.source 2 ++ leBytes c.count 4))
      { s with log := { s.log with coalesce := [], dropped := 0, droppedCritical := 0 } }
    exec .coalesced s = .next (settle (if s.log.dropped = 0 then u
      else logRecord u 4 (src 4 0) true (leBytes s.log.dropped 4 ++ leBytes s.log.droppedCritical 4))) :=
  if_neg (by omega)

theorem exec_wrapped_needed {s : State} {ledger : Bool} (hm : s.log.media ≠ 3) (hu : s.power.holdUpReady = true)
    (hf : s.log.frozen = none ∨ s.log.freezeWait ≠ none) (hw : needsWrap s ledger = true)
    (hs : ∃ r ∈ s.log.staging, r.ledger = ledger) : exec (.wrapped ledger) s = .next (settle (wrapStream s ledger)) := by
  have hopen : ¬(s.log.media = 3 ∨ (!s.power.holdUpReady) = true ∨ (s.log.frozen.isSome ∧ s.log.freezeWait.isNone)) := by
    rintro (h | h | ⟨h1, h2⟩)
    · exact hm h
    · simp [hu] at h
    · rcases hf with h | h
      · simp [h] at h1
      · exact h (Option.isNone_iff_eq_none.1 h2)
  have hstaged : s.log.staging.any (fun r => r.ledger == ledger) = true := by simpa using hs
  show execWrapped ledger s = _
  unfold execWrapped
  rw [if_neg hopen, hw, hstaged]; rfl

theorem eraseCopies_frame (s : State) (b : LogBlock) : ∃ r bl p,
    eraseCopies s b = { s with regs := r, flash := { s.flash with blocks := bl, logPages := p } } := by
  obtain ⟨r, bl, h⟩ := foldl_worn eraseMirrored eraseMirrored_worn (logCopies s b) { s with flash := { s.flash with
    logPages := s.flash.logPages.filter (fun p => !(logCopies s b).contains (p.1 / 4096)) } }
  exact ⟨r, bl, _, h⟩

@[simp] theorem streamOf_eraseCopies (s : State) (b : LogBlock) (ledger : Bool) :
    streamOf (eraseCopies s b) ledger = streamOf s ledger := by
  obtain ⟨r, bl, p, h⟩ := eraseCopies_frame s b; rw [h]; rfl

/-- The wrapped stream loses the records of its oldest block, and counts the wrap. -/
theorem wrapStream_stream {s : State} {ledger : Bool} {old : LogBlock} (h : oldestBlock s ledger = some old) :
    (streamOf (wrapStream s ledger) ledger).recs = (streamOf s ledger).recs.filter (fun r => r.block != old.use) ∧
    (streamOf (wrapStream s ledger) ledger).wraps = (streamOf s ledger).wraps + 1 := by
  have hraise : ∀ u : State, streamOf (if ledger then raise u 3 5 else u) ledger = streamOf u ledger := fun u => by
    split
    · exact streamOf_congr (by rw [raise_flash]) (by rw [raise_flash]) ledger
    · rfl
  unfold wrapStream
  rw [h]; dsimp only
  rw [hraise, streamOf_eraseCopies, streamOf_setStream_same]
  exact ⟨rfl, rfl⟩

/-! ### Media failures (R379, R380) -/

theorem logDieIndex_getD {k : Nat} (h : k < 6) : logDieIndex (logDies.getD k 0) = k := by
  revert k; decide

section
variable {s : State} {r : LogRec} {rest : List LogRec} (hs : s.log.staging = r :: rest) (hd : flushDue s = true)
  (hu : s.power.holdUpReady = true) {block : Nat} (hb : lineBlock s r.ledger = some block)
include hs hd hu hb

theorem exec_logMediaFailed_oneCopy (hm : s.log.media ≤ 1) {copy : Nat} (hc : copy < 2)
    (hk : copyRetired s (block % 2 + 2 * copy) block = false) :
    exec (.logMediaFailed (.oneCopy (logDies.getD (block % 2 + 2 * copy) 0) block)) s =
      .next (settle (oneCopyFailed s (block % 2 + 2 * copy) block r.ledger)) := by
  have hplace : block % 2 + 2 * copy = block % 2 ∨ block % 2 + 2 * copy = block % 2 + 2 := by omega
  show execLogMediaFailed (.oneCopy (logDies.getD (block % 2 + 2 * copy) 0) block) s = _
  simp only [execLogMediaFailed, hs, hd, hu, Bool.not_true, Bool.or_self, Bool.false_eq_true, if_false]
  rw [logDieIndex_getD (by omega), if_pos ⟨hm, hb, hplace, by rw [hk]; rfl⟩]; rfl

theorem exec_logMediaFailed_bothCopies (hm : s.log.media ≤ 1) :
    exec (.logMediaFailed (.bothCopies block)) s = .next (settle (toFallback s block r.ledger)) := by
  show execLogMediaFailed (.bothCopies block) s = _
  simp [execLogMediaFailed, hs, hd, hu, hm, hb, conclude_eq]

theorem exec_logMediaFailed_fallback (hm : s.log.media = 2) :
    exec (.logMediaFailed (.fallback block)) s = .next (settle (toVolatile s block r.ledger)) := by
  show execLogMediaFailed (.fallback block) s = _
  simp [execLogMediaFailed, hs, hd, hu, hm, hb, conclude_eq]

end

/-- A copy of which the other is still written: the block is written single from then on. -/
theorem oneCopyFailed_single {s : State} {block copy : Nat} (ledger : Bool) (hc : copy < 2)
    (hk : copyRetired s (block % 2 + 2 * copy) block = false)
    (ho : copyRetired s (block % 2 + 2 * (1 - copy)) block = false) :
    oneCopyFailed s (block % 2 + 2 * copy) block ledger =
      (
        let u := mediaRecord { s with flash := { s.flash with
            logRetired := s.flash.logRetired ++ [(block % 2 + 2 * copy, block)] } } 1 copy block ledger
        { u with log := { u.log with media := if u.log.media = 0 then 1 else u.log.media } }) := by
  have hother : (if block % 2 + 2 * copy < 2 then block % 2 + 2 * copy + 2 else block % 2 + 2 * copy - 2) =
      block % 2 + 2 * (1 - copy) := by split <;> omega
  have hcopy : (block % 2 + 2 * copy) / 2 = copy := by omega
  have hretire : retireCopy s (block % 2 + 2 * copy) block = { s with flash := { s.flash with
      logRetired := s.flash.logRetired ++ [(block % 2 + 2 * copy, block)] } } :=
    if_neg (by rw [hk]; exact Bool.false_ne_true)
  unfold oneCopyFailed; dsimp only
  rw [hother, ho, hretire, hcopy, if_neg Bool.false_ne_true]

/-! ### Freezes (R374) -/

theorem exec_freezeTimeout_late {s : State} {f : Freeze} (hf : s.log.frozen = some f)
    (ht : f.since + 1000000 * fieldOf s A.LB_FREEZE 15 0 ≤ s.sessionUs) :
    exec .freezeTimeout s = .next (settle (endFreeze s f.owner 2)) := by
  show execFreezeTimeout s = _
  simp [execFreezeTimeout, hf, ht, conclude_eq]

/-- No freeze holds, and nothing is held back. -/
def Thawed (s : State) : Prop := s.log.frozen = none ∧ s.log.holding = []

theorem Thawed.of_log {s t : State} (hf : t.log.frozen = s.log.frozen) (hh : t.log.holding = s.log.holding) (h : Thawed s) :
    Thawed t := ⟨hf.trans h.1, hh.trans h.2⟩

theorem raise_thawed {s : State} (h : Thawed s) (page b : Nat) : Thawed (raise s page b) :=
  h.of_log (by rw [raise_log]) (by rw [raise_log])

theorem volatileAppend_thawed {s : State} (h : Thawed s) (r : LogRec) : Thawed (volatileAppend s r) := by
  unfold volatileAppend; dsimp only
  split
  · exact h
  · split
    · split
      · exact Thawed.of_log (by rw [bump_log]) (by rw [bump_log]) h
      · exact Thawed.of_log (by rw [bumpBy_log]) (by rw [bumpBy_log]) h
    · exact h

theorem stagePut_thawed {s : State} (h : Thawed s) (r : LogRec) : Thawed (stagePut s r) := by
  unfold stagePut; split
  · exact volatileAppend_thawed h r
  · exact h

theorem coalesceOrDrop_thawed {s : State} (h : Thawed s) (typ source : Nat) (crit : Bool) :
    Thawed (coalesceOrDrop s typ source crit) := by
  unfold coalesceOrDrop; dsimp only
  split
  · exact Thawed.of_log (by rw [bump_log]) (by rw [bump_log]) h
  · split <;> exact Thawed.of_log (by rw [bump_log]) (by rw [bump_log]) h

/-- A record created while no freeze holds goes to the staging ring. -/
theorem logRecord_thawed {s : State} (h : Thawed s) (typ source : Nat) (crit : Bool) (pay : List Byte) (ledger : Bool) :
    Thawed (logRecord s typ source crit pay ledger) := by
  unfold logRecord; dsimp only
  rw [h.1]; dsimp only
  split
  · apply stagePut_thawed
    exact ⟨rfl, h.2⟩
  · exact coalesceOrDrop_thawed h _ _ _

theorem endFreeze_thawed (s : State) (m cause : Nat) : Thawed (endFreeze s m cause) := by
  have hstaged : Thawed (s.log.holding.foldl stagePut
      { s with log := { s.log with frozen := none, holding := [], lostHeld := 0, lostCritical := 0 } }) :=
    List.foldlRecOn _ _ ⟨rfl, rfl⟩ (fun _ h r _ => stagePut_thawed h r)
  have hended := logRecord_thawed hstaged 0x000A (src 4 0) false (leBytes m 2 ++ leBytes cause 1 ++ [0]) false
  have hlost : ∀ (p : Prop) [Decidable p] (u : State) (pay : List Byte), Thawed u →
      Thawed (if p then u else raise (logRecord u 0x0005 (src 4 0) true pay) 3 2) := fun p _ u pay h => by
    split
    · exact h
    · exact raise_thawed (logRecord_thawed h _ _ _ _ _) _ _
  unfold endFreeze; dsimp only
  split
  · exact raise_thawed (hlost _ _ _ hended) _ _
  · exact hlost _ _ _ hended

/-- Settles O48: the logbook's commands, clause by clause from the lemmas above. -/
theorem logbookCommands : Obligations.LogbookCommands := by
  unfold Obligations.LogbookCommands
  refine ⟨fun s r rest => exec_logFlush_due, fun s => exec_logFlush_unready, countLine_onlyRegs, flushLine_leaves,
    fun s => exec_coalesced_room, fun s b => exec_wrapped_needed, fun s b old => wrapStream_stream, fun s r rest hs hd hu => ?media,
    fun s f => exec_freezeTimeout_late, endFreeze_thawed⟩
  case media =>
    refine ⟨fun block copy hm hb hc hk ho => ?_, fun block hm hb => exec_logMediaFailed_bothCopies hs hd hu hb hm,
      fun block hm hb => exec_logMediaFailed_fallback hs hd hu hb hm⟩
    rw [exec_logMediaFailed_oneCopy hs hd hu hb hm hc hk, oneCopyFailed_single r.ledger hc hk ho]

end Sys2Proof.Machine
end

section
/-! PROOFS. The log read and cleared, the quote, the unlock and requests for the OTP: the statement of chapters 12 and 13 on
them, with the lemmas about the model's functions that it rests on. -/

namespace Sys2Proof.Machine

/-! ### What the taking of a capsule leaves for these commands -/

theorem opcode_of_dueCapsule {s : State} {n op : Nat} {c : Capsule} (h : dueCapsule s n op = some c) : c.opcode = op := by
  unfold dueCapsule at h
  split at h
  · cases h
  · dsimp only at h
    split at h
    next hc => exact Option.some.inj h ▸ hc.2
    next => cases h

/-- A capsule for which no rules are searched is taken with the sequencer and the rings alone. -/
theorem admittedState_plain {s : State} {n op : Nat} {c : Capsule} (h : dueCapsule s n op = some c)
    (hs : searchesRules c = false) (k : Bool) : ∃ q b, admittedState s n c k =
      { s with seqr := q, berths := b, boot := { s.boot with lastAdmitted := some s.sessionUs } } := by
  obtain ⟨r, hr, rfl⟩ := nextRequest_of_dueCapsule h
  obtain ⟨q, b, hp⟩ := popRequest_frame s
  unfold admittedState
  rw [takeRequest_plain s r hr hs, hp]
  exact ⟨_, _, rfl⟩

/-- The enabled roots are read of the OTP, of the roots that the copies disagree on, and of a register (R95). -/
theorem enabledRoots_congr {s t : State} (hr : t.regs = s.regs) (ho : t.flash.otp = s.flash.otp)
    (hb : t.boot.rootsOut = s.boot.rootsOut) : enabledRoots t = enabledRoots s := by
  simp only [enabledRoots, rootSlots, ho, hb, regGet_congr t s hr]

@[simp] theorem keysPresent_admittedState (s : State) (n : Nat) (c : Capsule) (k : Bool) :
    keysPresent (admittedState s n c k) = keysPresent s := by
  obtain ⟨_, _, _, _, _, _, h⟩ := admittedState_frame s n c k; rw [h]; rfl

@[simp] theorem otpStatus_admittedState (s : State) (n : Nat) (c d : Capsule) (k : Bool) :
    otpStatus (admittedState s n c k) d = otpStatus s d := by
  obtain ⟨_, _, _, _, _, _, h⟩ := admittedState_frame s n c k; rw [h]; rfl

/-! ### LB_READ and QUOTE (R372, R398) -/

/-- An admitted capsule whose work is its answer completes with it, where it is served before service opens too. -/
theorem capsule_served {s : State} {n op : Nat} {b : Berth} {m : Mooring} {c : Capsule}
    (run : Capsule → State → Nat → State × Completion) (h : Admitted s n op b m c) :
    capsule s n op (fun s _ _ c => serveAt s n c (run c)) =
      .next (decided (complete (run c (admittedState s n c true) s.seqr.next).1 n
        (run c (admittedState s n c true) s.seqr.next).2)) := by
  rw [capsule_admissible s n op _ b m c h.1, serveAt_open s n c _ h.2]

/-- The answer to a QUOTE (R398, R399). -/
def quoteAnswer (c : Capsule) (s : State) (csn : Nat) : State × Completion :=
  if keysPresent s then (s, { statusOnly c csn .ok with valueLen := 592, value := quoteOf s c.value ++ mrBytes s })
  else (s, statusOnly c csn .keyLost)

theorem exec_quote_admitted {s : State} {n : Nat} {b : Berth} {m : Mooring} {c : Capsule} (h : Admitted s n 0x55 b m c) :
    exec (.quote n) s = .next (decided (complete (quoteAnswer c (admittedState s n c true) s.seqr.next).1 n
      (quoteAnswer c (admittedState s n c true) s.seqr.next).2)) :=
  capsule_served quoteAnswer h

/-! ### LB_CLEAR (R377, R378) -/

/-- A nonce has been issued less than 60 s before. -/
def nonceFresh (s : State) : Bool := match s.log.nonce with
  | some x => decide (s.sessionUs < x.issuedAt + 60000000)
  | none => false

theorem nonceFresh_iff (s : State) :
    nonceFresh s = true ↔ ∃ x, s.log.nonce = some x ∧ s.sessionUs < x.issuedAt + 60000000 := by
  unfold nonceFresh
  cases s.log.nonce <;> simp

/-- The nonce is used up. -/
def nonceUsed (s : State) : State := { s with log := { s.log with nonce := none } }

/-- What an LB_CLEAR with a fresh nonce comes to, its nonce used up. -/
def clearChecked (n k : Nat) (ok : Bool) (c : Capsule) (csn : Nat) (u : State) : State :=
  match (enabledRoots u).find? (fun r => r.2 == k) with
  | none => complete u n (statusOnly c csn .auth)
  | some (slot, _) =>
    if !ok then complete u n (statusOnly c csn .auth)
    else
      let r := clearLog u slot k
      let w := (n, c.tag, csn, r.2.1, r.2.2)
      if r.1.log.media = 3 then clearDone r.1 w else { r.1 with log := { r.1.log with clearWait := r.1.log.clearWait ++ [w] } }

theorem clearChecked_refused {k : Nat} {ok : Bool} {u : State} (hr : (∀ r ∈ enabledRoots u, r.2 ≠ k) ∨ ok = false) (n : Nat)
    (c : Capsule) (csn : Nat) : clearChecked n k ok c csn u = complete u n (statusOnly c csn .auth) := by
  unfold clearChecked
  cases hf : (enabledRoots u).find? (fun r => r.2 == k) with
  | none => rfl
  | some r =>
    have hk : r.2 = k := by simpa using List.find?_some hf
    have hok : ok = false := hr.resolve_left fun ha => ha r (List.mem_of_find?_eq_some hf) hk
    simp [hok]

theorem clearChecked_passed {k : Nat} {u : State} {r : Nat × Nat}
    (hr : (enabledRoots u).find? (fun r => r.2 == k) = some r) (n : Nat) (c : Capsule) (csn : Nat) :
    clearChecked n k true c csn u = (let r := clearLog u r.1 k
      if r.1.log.media = 3 then clearDone r.1 (n, c.tag, csn, r.2.1, r.2.2)
      else { r.1 with log := { r.1.log with clearWait := r.1.log.clearWait ++ [(n, c.tag, csn, r.2.1, r.2.2)] } }) := by
  unfold clearChecked
  rw [hr]; rfl

section
variable {s : State} {n : Nat} {b : Berth} {m : Mooring} {c : Capsule} (k : Nat) (ok : Bool) (h : Admitted s n 0x54 b m c)
include h

theorem admittedState_lbClear : nonceFresh (admittedState s n c true) = nonceFresh s ∧
    enabledRoots (nonceUsed (admittedState s n c true)) = enabledRoots s := by
  obtain ⟨⟨⟨hd, -⟩, -⟩, -⟩ := h
  have hs : searchesRules c = false := by simp [searchesRules, opcode_of_dueCapsule hd]
  obtain ⟨q, x, he⟩ := admittedState_plain hd hs true
  rw [he]
  exact ⟨rfl, enabledRoots_congr rfl rfl rfl⟩

theorem exec_lbClear_admitted : let u := nonceUsed (admittedState s n c true)
    exec (.lbClear n k ok) s = .next (decided (
      if !nonceFresh s then complete u n (statusOnly c s.seqr.next .state) else clearChecked n k ok c s.seqr.next u)) := by
  refine (capsule_admissible s n 0x54 _ b m c h.1).trans ?_
  rw [admitTag_takeRequest, ← (admittedState_lbClear h).1]; rfl

theorem exec_lbClear_stale (hx : ∀ x, s.log.nonce = some x → x.issuedAt + 60000000 ≤ s.sessionUs) :
    exec (.lbClear n k ok) s = .next (decided (complete (nonceUsed (admittedState s n c true)) n
      (statusOnly c s.seqr.next .state))) := by
  have hf : nonceFresh s = false := by
    rw [Bool.eq_false_iff, Ne, nonceFresh_iff]
    rintro ⟨x, hn, ht⟩
    exact absurd (hx x hn) (Nat.not_le.2 ht)
  rw [exec_lbClear_admitted k ok h, hf]; rfl

theorem exec_lbClear_fresh {x : ClearNonce} (hn : s.log.nonce = some x) (ht : s.sessionUs < x.issuedAt + 60000000) :
    exec (.lbClear n k ok) s =
      .next (decided (clearChecked n k ok c s.seqr.next (nonceUsed (admittedState s n c true)))) := by
  rw [exec_lbClear_admitted k ok h, (nonceFresh_iff s).2 ⟨x, hn, ht⟩]; rfl

end

/-! ### UNLOCK (R354, R402) -/

/-- What an UNLOCK comes to. -/
def unlockAnswer (ok : Bool) (ks : List Nat) (b : Berth) (c : Capsule) (s : State) (csn : Nat) : State × Completion :=
  if s.cipher.meshTripped ∨ ¬s.cipher.locked then (s, statusOnly c csn .state)
  else if s.flash.verifier.isSome ∧ ¬ok then (unlockFailed s, statusOnly c csn .auth)
  else if s.cipher.alarm = .settle then (s, statusOnly c csn .keyLost)
  else
    let r := unlockSlots s b.mooring c.value ks
    (r.1, { statusOnly c csn .ok with result := fit (beBytes r.2.1 4 ++ beBytes r.2.2 2) 16 })

theorem exec_unlock_admitted {s : State} {n : Nat} {b : Berth} {m : Mooring} {c : Capsule} (ok : Bool) (ks : List Nat)
    (h : Admitted s n 0x56 b m c) :
    exec (.unlock n ok ks) s = .next (decided (complete (unlockAnswer ok ks b c (admittedState s n c true) s.seqr.next).1 n
      (unlockAnswer ok ks b c (admittedState s n c true) s.seqr.next).2)) :=
  capsule_answered (unlockAnswer ok ks) h

section
variable {s : State} {ok : Bool} (ks : List Nat) (b : Berth) (c : Capsule) (csn : Nat)

theorem unlockAnswer_open (h : s.cipher.meshTripped = true ∨ s.cipher.locked = false) :
    unlockAnswer ok ks b c s csn = (s, statusOnly c csn .state) :=
  if_pos (h.imp_right fun hl => by simp [hl])

theorem unlockAnswer_wrong (hm : s.cipher.meshTripped = false) (hl : s.cipher.locked = true)
    (hv : s.flash.verifier.isSome = true) (hok : ok = false) :
    unlockAnswer ok ks b c s csn = (unlockFailed s, statusOnly c csn .auth) := by
  simp [unlockAnswer, hm, hl, hv, hok]

theorem unlockAnswer_right (hm : s.cipher.meshTripped = false) (hl : s.cipher.locked = true)
    (hv : s.flash.verifier.isSome = true → ok = true) (ha : s.cipher.alarm ≠ .settle) :
    unlockAnswer ok ks b c s csn = (let r := unlockSlots s b.mooring c.value ks
      (r.1, { statusOnly c csn .ok with result := fit (beBytes r.2.1 4 ++ beBytes r.2.2 2) 16 })) := by
  have hpass : ¬(s.flash.verifier.isSome = true ∧ ¬ok = true) := fun hn => hn.2 (hv hn.1)
  have hshut : ¬(s.cipher.meshTripped = true ∨ ¬s.cipher.locked = true) := by simp [hm, hl]
  unfold unlockAnswer
  rw [if_neg hshut, if_neg hpass, if_neg ha]

end

/-- Records that unwrap change slots, and those that do not are logged; nothing else changes. -/
theorem unwrapped_frame (good bad : List KeyRecord) (s : State) : ∃ sl lg r,
    bad.foldl unwrapFailed (good.foldl unwrapSlot s) =
      { s with cipher := { s.cipher with slots := sl }, log := lg, regs := r } := by
  have hgood : ∀ u : State, ∃ sl, good.foldl unwrapSlot u = { u with cipher := { u.cipher with slots := sl } } := by
    induction good with
    | nil => exact fun u => ⟨_, rfl⟩
    | cons r good ih =>
      intro u
      obtain ⟨sl, h⟩ := ih (unwrapSlot u r)
      exact ⟨sl, h⟩
  have hbad : ∀ u : State, OnlyLog u (bad.foldl unwrapFailed u) := fun u =>
    List.foldlRecOn bad unwrapFailed (OnlyLog.refl u) (fun _ ht r _ => ht.trans (logRecord_frame _ _ _ _ _ _))
  obtain ⟨sl, h⟩ := hgood s
  obtain ⟨lg, r, h'⟩ := hbad (good.foldl unwrapSlot s)
  rw [h', h]
  exact ⟨_, _, _, rfl⟩

/-- An unlock that passed derives the KEK, keeps the first verifier, and ends the back-off; what is stored stays (R354, R402). -/
theorem unlockSlots_fields (s : State) (m : Nat) (v : List Byte) (ks : List Nat) :
    let t := (unlockSlots s m v ks).1
    let kek := kekOf (s.cipher.wrapBase.getD []) v
    t.cipher.locked = false ∧ t.cipher.kek = some kek ∧
    t.flash.verifier = s.flash.verifier.orElse (fun _ => some (verifierBytes kek)) ∧ t.boot.unlockFails = 0 ∧
    t.flash.keyRecords = s.flash.keyRecords ∧ t.flash.items = s.flash.items ∧ t.flash.quays = s.flash.quays := by
  obtain ⟨sl, lg, r, h⟩ := unwrapped_frame ((s.flash.keyRecords.map Prod.snd).filter (fun r => !ks.contains r.slot))
    ((s.flash.keyRecords.map Prod.snd).filter (fun r => ks.contains r.slot)) s
  unfold unlockSlots; dsimp only
  rw [h]
  simp only [raise_cipher, raise_flash, raise_boot, logRecord_cipher, logRecord_flash, logRecord_boot, and_self]

/-! ### OTP_REQUEST (R403) -/

/-- What an OTP_REQUEST comes to. -/
def otpAnswer (c : Capsule) (s : State) (csn : Nat) : State × Completion := match otpStatus s c with
  | some st => (s, statusOnly c csn st)
  | none => (otpStore s c, statusOnly c csn .ok)

theorem exec_otpRequest_admitted {s : State} {n : Nat} {b : Berth} {m : Mooring} {c : Capsule} (h : Admitted s n 0x57 b m c) :
    exec (.otpRequest n) s = .next (decided (complete (otpAnswer c (admittedState s n c true) s.seqr.next).1 n
      (otpAnswer c (admittedState s n c true) s.seqr.next).2)) :=
  capsule_answered (fun _ c => otpAnswer c) h

/-- A legal request is kept: the enrolment of a root beside the others, or fuses joined to those asked for. -/
theorem otpStore_eq (s : State) (c : Capsule) : otpStore s c = { s with flash := { s.flash with
    otpRoots := if c.param % 4 = 1 then
        s.flash.otpRoots.filter (fun r => r.1 != beAt c.value 0 1) ++ [(beAt c.value 0 1, beAt c.value 4 48)]
      else s.flash.otpRoots
    otpDebug := if c.param % 4 = 1 then s.flash.otpDebug else s.flash.otpDebug ||| beAt c.value 0 1 } } := by
  by_cases hc : c.param % 4 = 1 <;> simp only [otpStore, hc, if_true, if_false]

/-- Settles O29: the log, the quote, the unlock and the OTP, clause by clause from the lemmas above. -/
theorem logAndIdentityCommands : Obligations.LogAndIdentityCommands := by
  unfold Obligations.LogAndIdentityCommands
  refine ⟨fun s n b m c h => capsule_served (fun c s csn => (s, logAnswer s c csn)) h, fun s n k ok b m c h => ?clear,
    fun s n b m c h => ?quote, fun s n ok ks b m c h => ?unlock, unlockSlots_fields, fun s n b m c h => ?otp⟩
  case clear =>
    obtain ⟨-, hroots⟩ := admittedState_lbClear h
    refine ⟨exec_lbClear_stale k ok h, fun x hn ht hr => ?_, fun x slot r hn ht hm hf hok => ?_⟩
    · rw [exec_lbClear_fresh k ok h hn ht, clearChecked_refused (by rwa [hroots])]; rfl
    · subst hok
      rw [exec_lbClear_fresh k true h hn ht, clearChecked_passed (by rwa [hroots])]; rfl
  case quote =>
    intro u
    refine ⟨fun hk => ?_, fun hk => ?_⟩ <;> rw [exec_quote_admitted h, quoteAnswer, keysPresent_admittedState, hk] <;> rfl
  case unlock =>
    intro u
    rw [exec_unlock_admitted ok ks h]
    refine ⟨fun ho => ?_, fun hm hl hv hok => ?_, fun hm hl hv ha => ?_⟩
    · rw [unlockAnswer_open ks b c _ (by rwa [admittedState_cipher])]
    · rw [unlockAnswer_wrong ks b c _ (by rwa [admittedState_cipher]) (by rwa [admittedState_cipher])
        (by rwa [admittedState_flash_verifier]) hok]; rfl
    · rw [unlockAnswer_right ks b c _ (by rwa [admittedState_cipher]) (by rwa [admittedState_cipher])
        (by rwa [admittedState_flash_verifier]) (by rwa [admittedState_cipher])]
  case otp =>
    intro u
    rw [exec_otpRequest_admitted h]
    refine ⟨fun st hs => ?_, fun hs => ?_⟩ <;> rw [otpAnswer, otpStatus_admittedState, hs]
    rw [otpStore_eq]

end Sys2Proof.Machine
end

section
/-! PROOFS. Stage two, and the codes of the sideband: the statements of chapters 13 and 16 on them, each with the lemmas about
the model's functions that it rests on. -/

namespace Sys2Proof.Machine

/-! ### What stage two does once per power-on (R246, R366, R376) -/

theorem startLog_logged (s : State) : OnlyLog s (startLog s) := by
  unfold startLog
  split
  · exact OnlyLog.refl s
  · exact OnlyLog.trans ⟨_, _, rfl⟩ (raise_logged _ _ _)
  · exact OnlyLog.trans ⟨_, _, rfl⟩ (raise_logged _ _ _)

/-- Where nothing in the region has failed, writing begins in the main region as it is. -/
theorem startLog_main {s : State} (h : startMedia s = 0) : startLog s = s := by
  unfold startLog; rw [h]; rfl

/-- The records that stage two makes of what the ROM and the power loss left change no set that is staged. -/
theorem firstBoot_flash_update (s : State) : (firstBoot s).flash.update = s.flash.update := by
  have hroots : ∀ (ks : List Nat) (u : State), (ks.foldl
      (fun s k => logRecord s 0x25 (src 1 0) true (leBytes (0x40 + 52 * k) 2 ++ leBytes k 1)) u).flash = u.flash := fun ks u =>
    (List.foldlRecOn ks _ (OnlyLog.refl u) (fun _ ht k _ => ht.trans (logRecord_frame _ _ _ _ _ _))).flash
  have hstart : ∀ u : State, (startLog u).flash = u.flash := fun u => (startLog_logged u).flash
  unfold firstBoot; dsimp only
  (repeat' split) <;> simp only [raise_flash, logRecord_flash, hroots, burnRows, hstart]

/-- With nothing left over, stage two sets the counters of the log and of powered time, the sideband's cursor, and the bits of the
OTP rows. -/
theorem firstBoot_plain {s : State} (hr : s.boot.rootsOut = []) (he : s.cipher.entropyFailed = false)
    (hp : s.flash.partialSet = none) (ha : s.flash.armedCohort = none) (hm : startMedia s = 0) :
    firstBoot s = { s with
      log := { s.log with nextSeq := highestSeq s + 16384, firstSeq := highestSeq s + 16384 }
      poweredUs := s.poweredUs + 1000000 * s.flash.poweredS
      persistedAt := s.poweredUs + 1000000 * s.flash.poweredS
      sideband := { s.sideband with cursor := s.flash.ledger.recs.getLast?.map LogRec.seq }
      flash := { s.flash with row0 := burn s.flash.otp s.flash.row0, row512 := burn s.flash.otp s.flash.row512
                              deltas := if s.flash.update.isNone then [] else s.flash.deltas } } := by
  have hstart : ∀ u : State, u.flash = s.flash → startLog u = u := fun u hu => startLog_main (by
    simp only [startMedia, blockRemains, copyRetired, hu] at hm ⊢; exact hm)
  unfold firstBoot; dsimp only
  simp only [hstart, burnRows, hr, List.foldl_nil, he, hp, ha, if_true, Bool.false_eq_true, if_false]

/-! ### The boot number (R392) -/

theorem findBootNumber_empty {s : State} (h : s.flash.ledger.blocks = []) : findBootNumber s = 1 := by
  simp [findBootNumber, h]

theorem findBootNumber_next {s : State} (h : s.flash.ledger.blocks ≠ []) (hn : ledgerBoots s ≠ []) :
    findBootNumber s = listMax (ledgerBoots s) + 1 := by
  simp [findBootNumber, h, hn]

/-- The power-on takes the boot number that the ledger gives. -/
def bootNumbered (s : State) : State := { s with boot := { s.boot with bootNumber := findBootNumber s } }

/-! ### STAGE_TWO (R390) -/

/-- With no set staged, none is applied. -/
theorem applyStaged_none {s : State} (h : s.flash.update = none) (r : BootReport) :
    stagedSet s = s ∧ applyStaged s r = (s, false) := by
  unfold stagedSet applyStaged
  rw [h]; exact ⟨rfl, rfl⟩

/-- With hold-up ready and no set staged, stage two takes its number and goes on with its own steps; `v` is the state after what it
does once per power-on. -/
theorem exec_stageTwo_unstaged {s v : State} (r : BootReport) (hl : live s = true) (hb : s.boot.stage = .stageTwo)
    (hq : s.boot.bootSeq = 0) (hu : s.power.holdUpReady = true) (hv : (if s.log.nextSeq = 0 then firstBoot s else s) = v)
    (hf : v.flash.update = none) : exec (.stageTwo r) s =
      .next (settle (stageTwoParts (bootNumbered v) r (prevDigest (bootNumbered v) r.chainBroken))) := by
  obtain ⟨hs, ha⟩ := applyStaged_none (s := bootNumbered v) hf r
  show execStageTwo r s = _
  unfold execStageTwo
  rw [if_neg (by simp [hl, hb, hq, hu]), hv]
  show conclude (if (applyStaged (stagedSet (bootNumbered v)) r).2 then restartRom (applyStaged (stagedSet (bootNumbered v)) r).1
    else stageTwoParts (applyStaged (stagedSet (bootNumbered v)) r).1 r (prevDigest (stagedSet (bootNumbered v)) r.chainBroken)) = _
  rw [hs, ha]; rfl

theorem exec_stageTwo_unready {s : State} (r : BootReport) (hu : s.power.holdUpReady = false) :
    exec (.stageTwo r) s = .next (settle s) :=
  if_pos (by simp [hu])

/-- Settles O12: stage two with no set staged, by whether it runs first in this power-on, and the boot number it finds. -/
theorem stageTwoRuns : Obligations.StageTwoRuns := by
  unfold Obligations.StageTwoRuns
  refine ⟨fun s r hl hb hq hu hn hf => ?again, fun s r hl hb hq hu hn hf => ?first, fun s r => exec_stageTwo_unready r,
    fun s => ⟨findBootNumber_empty, fun h hn => ?number⟩, fun s => firstBoot_plain⟩
  case again => exact exec_stageTwo_unstaged r hl hb hq hu (if_neg hn) hf
  case first => exact exec_stageTwo_unstaged r hl hb hq hu (if_pos hn) ((firstBoot_flash_update s).trans hf)
  case number =>
    rw [findBootNumber_next h hn]
    exact ⟨fun n hm => Nat.lt_succ_of_le (le_listMax hm), listMax_mem hn⟩

/-! ### The common command codes (R472 to R474) -/

theorem exec_addressCodes_up {s : State} (h : sidebandUp s = true) :
    exec .enec s = .next (settle { s with out := s.out ++ [.i3cAck true] }) ∧
    exec .disec s = .next (settle { s with out := s.out ++ [.i3cAck true] }) ∧
    exec .rstdaa s = .next (settle { s with sideband := { s.sideband with dynamicAddr := none } }) :=
  ⟨if_pos h, if_pos h, if_pos h⟩

/-- A drive without an address takes part in ENTDAA once its straps are read or failed (R473). -/
theorem exec_entdaa_joins {s : State} (a : Nat) (h : sidebandUp s = true) (hn : s.sideband.dynamicAddr = none)
    (hs : s.power.strapValid = true ∨ s.power.strapFailed = true) :
    exec (.entdaa a) s = .next (settle { s with
      sideband := { s.sideband with dynamicAddr := some a }
      out := s.out ++ [.i3cBytes (pidBytes s ++ [0, 0])] }) :=
  if_pos (by simpa [h, hn] using hs)

theorem answerCode_addressed {s : State} (h : addressed s = true) (bs : List Byte) :
    answerCode s bs = { s with out := s.out ++ [.i3cBytes bs] } := if_pos h

theorem exec_getstatus_addressed {s : State} (h : addressed s = true) : exec .getstatus s = .next (settle { s with
    out := s.out ++ [.i3cBytes (beBytes (statusBits s) 2)]
    sideband := { s.sideband with protocolError := false } }) := by
  show execGetstatus s = _
  unfold execGetstatus
  rw [if_pos h, answerCode_addressed h]; rfl

/-! ### The sideband's quote (R400, R475) -/

section
variable {s : State} {x : List Byte} (h : addressed s = true)
include h

theorem exec_quoteReq_idle (hx : x.length = 32) (hb : s.boot.quoteBusy = false) : exec (.quoteReq x) s =
    .next (settle { s with boot := { s.boot with
      quoteBusy := true, quoteReady := false, quoteFailed := false, quoteNonce := x } }) := by
  show execQuoteReq x s = _
  simp [execQuoteReq, h, hx, hb, conclude_eq]

theorem exec_quoteReq_busy (hx : x.length = 32) (hb : s.boot.quoteBusy = true) : exec (.quoteReq x) s =
    .next (settle { s with boot := { s.boot with quoteIgnored := sat (s.boot.quoteIgnored + 1) 16 } }) := by
  show execQuoteReq x s = _
  simp [execQuoteReq, h, hx, hb, conclude_eq]

theorem exec_quoteReq_badLength (hx : x.length ≠ 32) : exec (.quoteReq x) s = .next (settle (rejectTransfer s)) := by
  show execQuoteReq x s = _
  simp [execQuoteReq, h, hx, conclude_eq]

end

theorem exec_sidebandQuoteReady_busy {s : State} (hb : s.boot.quoteBusy = true) : exec .sidebandQuoteReady s =
    .next (settle { s with boot := { s.boot with
      quoteBusy := false
      quoteReady := keysPresent s
      quoteFailed := !keysPresent s
      quoteBytes := if keysPresent s then quoteOf s s.boot.quoteNonce else [] } }) := by
  show execSidebandQuoteReady s = _
  unfold execSidebandQuoteReady
  rw [if_neg (by simp [hb])]
  cases keysPresent s <;> rfl

/-- Settles O50: the common command codes and the sideband's quote, clause by clause from the lemmas above. -/
theorem sidebandCodes : Obligations.SidebandCodes := by
  unfold Obligations.SidebandCodes
  refine ⟨fun s => exec_addressCodes_up, fun s a => exec_entdaa_joins a, fun s a h => ⟨if_pos h, ?_, ?_, ?_, ?_, ?_,
    exec_getstatus_addressed h⟩, fun s x h => ⟨exec_quoteReq_idle h, exec_quoteReq_busy h, exec_quoteReq_badLength h⟩,
    fun s hb => ⟨fun hk => ?_, fun hk => ?_⟩⟩
  iterate 5 exact congrArg conclude (answerCode_addressed h _)
  · rw [exec_sidebandQuoteReady_busy hb, hk]; rfl
  · rw [exec_sidebandQuoteReady_busy hb, hk]; rfl

end Sys2Proof.Machine
end

section
/-! PROOFS. Updates: the statements of the family of chapter 14, each with the lemmas about the model's functions that it rests
on. -/

namespace Sys2Proof.Machine

/-! ### What the checks of the update capsules read of the state that the capsule is presented in -/

section
variable (s : State) (n : Nat) (c : Capsule) (k : Bool) (m : Nat)

theorem upOpenStatus_admittedState (d : Capsule) : upOpenStatus (admittedState s n c k) m d = upOpenStatus s m d := by
  obtain ⟨_, _, _, _, _, _, h⟩ := admittedState_frame s n c k; rw [h]; rfl

theorem upWriteStatus_admittedState (d : Capsule) : upWriteStatus (admittedState s n c k) m d = upWriteStatus s m d := by
  obtain ⟨_, _, _, _, _, _, h⟩ := admittedState_frame s n c k; rw [h]; rfl

theorem upCommitStatus_admittedState : upCommitStatus (admittedState s n c k) m = upCommitStatus s m := by
  obtain ⟨_, _, _, _, _, _, h⟩ := admittedState_frame s n c k; rw [h]; rfl

theorem upAbandonStatus_admittedState : upAbandonStatus (admittedState s n c k) m = upAbandonStatus s m := by
  obtain ⟨_, _, _, _, _, _, h⟩ := admittedState_frame s n c k; rw [h]; rfl

theorem upArmStatus_admittedState : upArmStatus (admittedState s n c k) = upArmStatus s := by
  obtain ⟨_, _, _, _, _, _, h⟩ := admittedState_frame s n c k; rw [h]; rfl

end

/-! ### The update capsules (R411 to R413, R417 to R419) -/

/-- A capsule that a check refuses is answered with that check's status and changes nothing; one that passes does its work. -/
def checkedAnswer (check : Option Status) (s : State) (c : Capsule) (csn : Nat) (work : State × Completion) :
    State × Completion := match check with
  | some st => (s, statusOnly c csn st)
  | none => work

/-- The two outcomes of an admitted capsule with a check of its own, which reads nothing that the taking of the capsule changes. -/
theorem capsule_checked {s : State} {n op : Nat} {b : Berth} {m : Mooring} {c : Capsule}
    (check : Berth → Capsule → State → Option Status) (work : Berth → Capsule → State → Nat → State × Completion)
    (h : Admitted s n op b m c) (hk : check b c (admittedState s n c true) = check b c s) :
    let u := admittedState s n c true
    let o := capsule s n op (fun s b _ c => answerAt s n c (fun s csn => checkedAnswer (check b c s) s c csn (work b c s csn)))
    (∀ st, check b c s = some st → o = .next (decided (complete u n (statusOnly c s.seqr.next st)))) ∧
    (check b c s = none → o = .next (decided (complete (work b c u s.seqr.next).1 n (work b c u s.seqr.next).2))) := by
  intro u o
  have he : o = _ := capsule_answered (fun b c s csn => checkedAnswer (check b c s) s c csn (work b c s csn)) h
  refine ⟨fun st hs => he.trans ?_, fun hs => he.trans ?_⟩ <;> rw [hk, hs] <;> rfl

section
variable {s : State} {n : Nat} {b : Berth} {m : Mooring} {c : Capsule}

theorem exec_upCommit_passed (h : Admitted s n 0x5A b m c) {x : Manifest} (hs : upCommitStatus s b.mooring = none)
    (hx : s.update.manifest = some x) : exec (.upCommit n) s =
      .next (decided (complete (commitStaging (admittedState s n c true) x b.mooring) n
        { statusOnly c s.seqr.next .ok with result := (beBytes x.digest 48).take 16 })) := by
  refine (capsule_answered _ h).trans ?_
  rw [upCommitStatus_admittedState, hs, admittedState_update, hx]

theorem exec_upCommit_refused (h : Admitted s n 0x5A b m c) {st : Status} (hs : upCommitStatus s b.mooring = some st) :
    exec (.upCommit n) s = .next (decided (complete (admittedState s n c true) n (statusOnly c s.seqr.next st))) := by
  refine (capsule_answered _ h).trans ?_
  rw [upCommitStatus_admittedState, hs]

theorem exec_upDisarm_armed (h : Admitted s n 0x5D b m c) (ha : s.update.st = .armed) : exec (.upDisarm n) s =
    .next (decided (complete (disarm (admittedState s n c true) 2) n (statusOnly c s.seqr.next .ok))) := by
  refine (capsule_answered _ h).trans ?_
  rw [if_pos (by rwa [admittedState_update])]

theorem exec_upDisarm_unarmed (h : Admitted s n 0x5D b m c) (ha : s.update.st ≠ .armed) : exec (.upDisarm n) s =
    .next (decided (complete (admittedState s n c true) n (statusOnly c s.seqr.next .state))) := by
  refine (capsule_answered _ h).trans ?_
  rw [if_neg (by rwa [admittedState_update])]

end

/-! ### What staging, committing and arming leave (R412, R413, R418) -/

theorem discardCommitted_flash (s : State) (m cause : Nat) :
    (discardCommitted s m cause).flash = { s.flash with update := none, deltas := [] } := by
  unfold discardCommitted; rw [logRecord_flash]

theorem discardCommitted_sessionUs (s : State) (m cause : Nat) : (discardCommitted s m cause).sessionUs = s.sessionUs := by
  unfold discardCommitted; rw [logRecord_sessionUs]

theorem openStaging_fields (s : State) (m : Nat) (v : List Byte) : let t := openStaging s m v
    t.update.st = .staging ∧ t.update.owner = m ∧ t.update.manifest = some (manifestOf v) ∧ t.update.staged = 0 ∧
    t.update.lastAccepted = s.sessionUs ∧ t.flash.deltas = [] ∧ t.flash.banks = s.flash.banks ∧
    t.flash.items = s.flash.items := by
  unfold openStaging; dsimp only
  split
  · simp only [discardCommitted_flash, discardCommitted_sessionUs, and_self]
  · simp only [and_self]

theorem commitStaging_fields (s : State) (x : Manifest) (m : Nat) :
    (commitStaging s x m).update = { s.update with st := .staged, owner := 0 } ∧
    (commitStaging s x m).flash = { s.flash with update := some x } := by
  simp only [commitStaging, raise_update, raise_flash, logRecord_update, logRecord_flash, and_self]

theorem armUpdate_update (s : State) (m cohort ms sec : Nat) : (armUpdate s m cohort ms sec).update = { s.update with
    st := .armed
    cohort := cohort
    switchMs := ms
    deadline := s.sessionUs + 1000000 * sec } := by
  simp only [armUpdate, raise_update, logRecord_update]

/-! ### Firing (R419) -/

theorem fireCohort_fires {s : State} {k : Nat} (ha : s.update.st = .armed) (hk : s.update.cohort = k)
    (hd : s.sessionUs < s.update.deadline) (hp : s.pstate.cur < 2) :
    fireCohort s k = ({ s with update := { s.update with
      st := .preparing
      switchAt := s.sessionUs + 1000 * s.update.switchMs } }, true) := by
  unfold fireCohort; dsimp only
  rw [if_pos ⟨ha, hk, hd⟩, if_neg (Nat.not_le.2 hp)]

theorem fireCohort_fired {s : State} {k : Nat} (hn : s.update.st ≠ .armed) (ha : activating s = true)
    (hk : s.update.cohort = k) : fireCohort s k = (s, true) := by
  unfold fireCohort
  rw [if_neg (fun h => hn h.1), if_pos ⟨ha, hk⟩]

theorem fireCohort_ignored {s : State} {k : Nat} (hn : s.update.st ≠ .armed) (ha : activating s = false) :
    fireCohort s k = ({ s with update := { s.update with trigIgnored := sat (s.update.trigIgnored + 1) 32 } }, false) := by
  unfold fireCohort
  rw [if_neg (fun h => hn h.1), if_neg (by simp [ha])]

/-- Settles O30: each update capsule by its check, and what staging, committing, arming and firing do. -/
theorem updateCommands : Obligations.UpdateCommands := by
  unfold Obligations.UpdateCommands
  refine ⟨fun s n b m c h => ?upOpen, openStaging_fields, fun s n b m c h => ?write,
    fun s n b m c h => ⟨fun st => exec_upCommit_refused h, fun x => exec_upCommit_passed h⟩, commitStaging_fields,
    fun s n b m c h => ?abandon, fun s n b m c h => ?arm, armUpdate_update,
    fun s n b m c h => ⟨exec_upDisarm_armed h, exec_upDisarm_unarmed h⟩, fun s n b m c h => ?trig,
    fun s k => ⟨fireCohort_fires, fireCohort_fired, fireCohort_ignored⟩⟩
  case upOpen =>
    exact capsule_checked (fun b c s => upOpenStatus s b.mooring c)
      (fun b c s csn => (openStaging s b.mooring c.value, statusOnly c csn .ok)) h (upOpenStatus_admittedState ..)
  case write =>
    exact capsule_checked (fun b c s => upWriteStatus s b.mooring c)
      (fun b c s csn => ({ s with
          update := { s.update with staged := s.update.staged + c.valueLen, lastAccepted := s.sessionUs }
          flash := { s.flash with deltas := s.flash.deltas ++ c.value } },
        { statusOnly c csn .ok with result := fit (beBytes (s.update.staged + c.valueLen) 4) 16 }))
      h (upWriteStatus_admittedState ..)
  case abandon =>
    obtain ⟨hrefused, hpassed⟩ := capsule_checked (fun b _ s => upAbandonStatus s b.mooring) (fun b c s csn =>
      (if s.update.st = .staging then abandonStaging s 1 else discardCommitted s b.mooring 1, statusOnly c csn .ok)) h
      (upAbandonStatus_admittedState ..)
    refine ⟨hrefused, fun hs => ?_⟩
    rw [← admittedState_update s n c true]
    exact hpassed hs
  case arm =>
    exact capsule_checked (fun _ _ s => upArmStatus s)
      (fun b c s csn => (armUpdate s b.mooring (c.param % 2 ^ 32) (natBits c.param 47 32) c.segOff, statusOnly c csn .ok))
      h (upArmStatus_admittedState ..)
  case trig =>
    exact capsule_answered (fun _ c s csn =>
      ((fireCohort s (c.param % 2 ^ 32)).1, statusOnly c csn (if (fireCohort s (c.param % 2 ^ 32)).2 then .ok else .state))) h

end Sys2Proof.Machine
end

section
/-! PROOFS. Updates by time and by stage: the statement of chapter 14 on them, with the lemmas about the model's functions that it
rests on. -/

namespace Sys2Proof.Machine

/-! ### What lapses (R413, R418) -/

theorem exec_stagingLockTimeout_late {s : State} (hs : s.update.st = .staging)
    (ht : s.update.lastAccepted + 600000000 ≤ s.sessionUs) :
    exec .stagingLockTimeout s = .next (settle (abandonStaging s 2)) :=
  if_pos ⟨hs, ht⟩

theorem exec_armingDeadline_late {s : State} (hs : s.update.st = .armed) (ht : s.update.deadline ≤ s.sessionUs) :
    exec .armingDeadline s = .next (settle (disarm s 1)) :=
  if_pos ⟨hs, ht⟩

theorem disarm_update {s : State} (hs : s.update.st = .armed) (cause : Nat) : (disarm s cause).update = { s.update with
    st := .staged
    cohort := 0
    switchMs := 0
    deadline := 0 } := by
  unfold disarm
  rw [if_pos hs]
  simp only [raise_update, logRecord_update]

/-! ### Preparation (R415, R420) -/

section
variable {s : State} {r : ApplyReport} {x : Manifest} (hs : s.update.st = .preparing) (hx : s.update.manifest = some x)
  (ht : s.sessionUs < s.update.switchAt)
include hs hx ht

theorem exec_prepare_passed (hv : applyStatus s x r true = none) : exec (.prepare r) s = .next (settle (
    let u := overwriteBank s x r true
    { u with update := { u.update with st := .prepared } })) := by
  show execPrepare r s = _
  unfold execPrepare
  rw [hs, hx]; dsimp only
  rw [if_neg (Nat.not_le.2 ht), hv]; rfl

theorem exec_prepare_failed {st : Status} {part : Nat} (hv : applyStatus s x r true = some (st, part)) :
    exec (.prepare r) s = .next (settle (failUpdate (overwriteBank s x r true) x (statusCode st) 2 part false)) := by
  show execPrepare r s = _
  unfold execPrepare
  rw [hs, hx]; dsimp only
  rw [if_neg (Nat.not_le.2 ht), hv]; rfl

end

/-- The bank overwritten holds the images of the new set (R415). -/
theorem overwriteBank_image {s : State} {x : Manifest} {r : ApplyReport} {prep : Bool}
    (h : applyStatus s x { r with programOk := true } prep = none) {k : Nat} (h1 : 1 ≤ k) (h5 : k ≤ 5) :
    imageOf (overwriteBank s x r prep) (1 - s.flash.banks.active) k = newImage s x k := by
  have himages : (overwriteBank s x r prep).flash.images = [1, 2, 3, 4, 5].foldl
      (fun t p => tabPut t (8 * (1 - s.flash.banks.active) + p) (newImage s x p)) s.flash.images := by
    unfold overwriteBank; rw [h]; rfl
  have hput : tabGet (overwriteBank s x r prep).flash.images (8 * (1 - s.flash.banks.active) + k) = some (newImage s x k) := by
    rw [himages]
    refine ((foldl_put (fun p => 8 * (1 - s.flash.banks.active) + p) (newImage s x) [1, 2, 3, 4, 5] s.flash.images _).1 k
      (by simp; omega) rfl).resolve_right ?_
    rintro ⟨p, -, hne, he⟩
    omega
  unfold imageOf tabGetD
  rw [hput]; rfl

/-! ### The switch time (R420, R421) -/

section
variable {s : State} {x : Manifest} (hx : s.update.manifest = some x) (ht : s.update.switchAt ≤ s.sessionUs)
include hx ht

theorem exec_switchTime_unprepared (hs : s.update.st = .preparing) :
    exec .switchTime s = .next (settle (failUpdate s x (statusCode .retry) 2 0 true)) := by
  show execSwitchTime s = _
  unfold execSwitchTime
  rw [if_neg (Nat.not_lt.2 ht), hs, hx]; rfl

theorem exec_switchTime_prepared (hs : s.update.st = .prepared) :
    exec .switchTime s = .next (settle (beginSeal { s with
        update := { s.update with st := .switching, phase := .draining, sealed := false, barrierAt := s.sessionUs }
        seqr := { s.seqr with barrier := true } }
      { csn := s.seqr.next, scope := 2, quay := 0, berth := 16384, purpose := .activation })) := by
  show execSwitchTime s = _
  unfold execSwitchTime
  rw [if_neg (Nat.not_lt.2 ht), hs, hx]; rfl

end

/-! ### The commit (R407, R416) -/

/-- The banks that a marker for a new bank gives, before it takes its page. -/
def switchedBanks (b : Banks) (switchBoot release setDigest : Nat) : Banks :=
  { b with active := 1 - b.active, generation := b.generation + 1, switchBoot := switchBoot, release := release,
           setDigest := setDigest }

/-- The set raises the rollback floor. -/
def raisesFloor (s : State) (x : Manifest) : Bool := x.raiseFloor && decide (s.flash.otp.secVersion < x.secVersion)

/-- The OTP image once the set is committed. -/
def committedOtp (s : State) (x : Manifest) : Otp :=
  if raisesFloor s x then { s.flash.otp with secVersion := x.secVersion } else s.flash.otp

theorem committedOtp_secVersion (s : State) (x : Manifest) : (committedOtp s x).secVersion =
    if x.raiseFloor = true ∧ s.flash.otp.secVersion < x.secVersion then x.secVersion else s.flash.otp.secVersion := by
  unfold committedOtp raisesFloor
  by_cases h : x.raiseFloor = true ∧ s.flash.otp.secVersion < x.secVersion <;> simp [h]

/-- Committing a set writes its marker and, where it raises the floor, the OTP rows; of the rest it changes the record of the update,
the previous copy of the base, counters and the use of blocks (R416). -/
theorem commitSet_all (s : State) (x : Manifest) (boot : Nat) (ok : Bool) :
    let b := switchedBanks s.flash.banks boot x.release x.digest
    ∃ r u bl mk r0 r5 p, commitSet s x boot ok = { s with
      regs := r
      update := u
      flash := { s.flash with
        blocks := bl
        banks := markedBanks s b
        markers := mk
        otp := committedOtp s x
        row0 := r0
        row512 := r5
        config := { s.flash.config with previous := p } } } ∧
    (∀ g ∈ markerBlocks (markedBanks s b).block, ∃ m,
      tabGet mk (4096 * g + (markedBanks s b).page - 1) = some (Page.of m (markerBytes b))) ∧
    (raisesFloor s x = true → r0 = burn (committedOtp s x) s.flash.row0 ∧
      r5 = if ok then burn (committedOtp s x) s.flash.row512 else s.flash.row512) := by
  intro b
  obtain ⟨r0, r5, hrows, hburn⟩ : ∃ r0 r5, (if raisesFloor s x then burnRows s (committedOtp s x) ok else s) =
      { s with flash := { s.flash with row0 := r0, row512 := r5 } } ∧ (raisesFloor s x = true →
        r0 = burn (committedOtp s x) s.flash.row0 ∧
        r5 = if ok then burn (committedOtp s x) s.flash.row512 else s.flash.row512) := by
    split
    next => exact ⟨_, _, rfl, fun _ => ⟨rfl, rfl⟩⟩
    next h => exact ⟨_, _, rfl, fun hr => absurd hr h⟩
  obtain ⟨r, bl, mk, hmarked, hpages⟩ := writeMarker_all { s with flash := { s.flash with row0 := r0, row512 := r5 } } b
  have hcommit : commitSet s x boot ok =
      (let v := writeMarker (if raisesFloor s x then burnRows s (committedOtp s x) ok else s) b
      { v with
        flash := { v.flash with
          otp := committedOtp s x
          config := { s.flash.config with previous := s.flash.config.installed } }
        update := { v.update with
          prevRelease := s.flash.banks.release
          prevDigest := s.flash.banks.setDigest
          otpFailed := raisesFloor s x && !ok } }) := rfl
  rw [hcommit, hrows, hmarked]
  exact ⟨r, _, bl, mk, r0, r5, _, rfl, hpages, hburn⟩

/-! ### The drain (R420, R421) -/

section
variable {s : State} {x : Manifest} (hp : s.update.phase = .draining) (hx : s.update.manifest = some x)
include hp hx

theorem exec_drain_ended (ok : Bool) (hs : s.update.sealed = true) (ha : allComplete s = true)
    (ht : s.sessionUs ≤ s.update.barrierAt + 1000 * fieldOf s A.UP_BUDGET 9 0) :
    exec (.drain ok) s = .next (settle (let u := commitSet s x 0 ok
      { u with update := { u.update with phase := .committed } })) := by
  show execDrain ok s = _
  unfold execDrain
  rw [hp, hx]; dsimp only
  rw [if_pos ⟨hs, ha, ht⟩]; rfl

theorem exec_drainBudget_late (ht : s.update.barrierAt + 1000 * fieldOf s A.UP_BUDGET 9 0 ≤ s.sessionUs) :
    exec .drainBudget s = .next (settle (failUpdate { s with
        seqr := { s.seqr with barrier := false }
        seals := s.seals.filter (fun q => q.purpose != .activation)
        update := { s.update with pauseUs := s.sessionUs - s.update.barrierAt } } x (statusCode .retry) 3 0 true)) := by
  show execDrainBudget s = _
  unfold execDrainBudget
  rw [hp, hx]; dsimp only
  rw [if_pos ht]; rfl

end

/-! ### The end of an activation (R421, R422, R424, R425) -/

theorem failUpdate_fields (s : State) (x : Manifest) (status phase part : Nat) (keep : Bool) :
    let t := failUpdate s x status phase part keep
    t.update.st = (if keep then .staged else .empty) ∧ t.update.phase = .none ∧ t.update.cohort = 0 ∧
    t.update.failures = sat (s.update.failures + 1) 16 ∧ t.update.last = lastWord status phase part ∧
    t.flash.update = (if keep then s.flash.update else none) ∧ t.flash.banks = s.flash.banks ∧ t.seqr = s.seqr := by
  cases keep <;> simp [failUpdate]

theorem failUpdate_items (s : State) (x : Manifest) (status phase part : Nat) (keep : Bool) :
    (failUpdate s x status phase part keep).flash.items = s.flash.items := by
  simp only [failUpdate, raise_flash, logRecord_flash]

/-- Units that are listed may reload unless they are the channel sequencers, with a die at work. -/
theorem mayReload_eq_false_iff (s : State) (x : Manifest) : mayReload s x = false ↔
    (∃ e ∈ x.parts, e.partId = 3) ∧ ∃ d ∈ s.dies, d.2.op ≠ 0 := by
  simp [mayReload]

section
variable {s : State} {x : Manifest} (hp : s.update.phase = .committed) (hx : s.update.manifest = some x)
include hp hx

theorem exec_restart_waits (h : mayReload s x = false) (p : Option Nat) : exec (.restart p) s = .next (settle s) := by
  show execRestart p s = _
  unfold execRestart
  rw [hp, hx]; dsimp only
  rw [h]; rfl

theorem exec_restart_runs (h : mayReload s x = true) : exec (.restart none) s = .next (settle (finishActivation s x)) := by
  show execRestart none s = _
  unfold execRestart
  rw [hp, hx]; dsimp only
  rw [h]; rfl

theorem exec_restart_fails (h : mayReload s x = true) {p : Nat} (he : ∃ e ∈ x.parts, e.partId = p) :
    exec (.restart (some p)) s = .next (settle { s with update := { s.update with phase := .reverting, failedPart := p } }) := by
  have hlisted : x.parts.any (fun e => e.partId == p) = true := by simpa using he
  show execRestart (some p) s = _
  unfold execRestart
  rw [hp, hx]; dsimp only
  rw [h, hlisted]; rfl

end

theorem reloadIndex_searched (s : State) (x : Manifest) : OnlySearched s (reloadIndex s x) := by
  unfold reloadIndex; split
  · exact (index_searched _ _).trans (rebuildRules_searched _)
  · exact OnlySearched.refl s

/-- The revert of a set names the old bank again, lowers the barrier and ends the update as failed (R424). -/
theorem exec_revert_reverts {s : State} {x : Manifest} (hp : s.update.phase = .reverting) (hx : s.update.manifest = some x) :
    let b := switchedBanks s.flash.banks 0 s.update.prevRelease s.update.prevDigest
    ∃ u w, u.flash.banks = markedBanks s b ∧ u.flash.items = s.flash.items ∧ u.seqr.barrier = false ∧
      exec .revert s = .next (settle (failUpdate u x w 5 s.update.failedPart false)) := by
  intro b
  obtain ⟨r, bl, mk, hmarked, -⟩ := writeMarker_all s b
  obtain ⟨r', ix, lg, f, hreload⟩ := reloadIndex_searched (writeMarker s b) x
  refine ⟨(takeFree (lowerBarrier (reloadIndex (writeMarker s b) x))).2,
    bits (takeFree (lowerBarrier (reloadIndex (writeMarker s b) x))).1 15 0, ?_, ?_, rfl, ?_⟩
  · rw [hreload, hmarked]; rfl
  · rw [hreload, hmarked]; rfl
  · have hpart : (reloadIndex (writeMarker s b) x).update.failedPart = s.update.failedPart := by rw [hreload, hmarked]
    show execRevert s = _
    unfold execRevert
    rw [hp, hx, ← hpart]; rfl

/-- Settles O31: an update by time and by stage, clause by clause from the lemmas above. -/
theorem updateStages : Obligations.UpdateStages := by
  unfold Obligations.UpdateStages
  refine ⟨fun s => exec_stagingLockTimeout_late, fun s => exec_armingDeadline_late, fun s hs k => disarm_update hs k,
    fun s r x hs hx ht => ⟨exec_prepare_passed hs hx ht, fun st part => exec_prepare_failed hs hx ht⟩, fun s x r p => ?overwrite,
    fun s x hx ht => ⟨exec_switchTime_unprepared hx ht, exec_switchTime_prepared hx ht⟩, fun s x ok hp hx hs ha ht => ?drain,
    fun s x => exec_drainBudget_late, failUpdate_fields, fun s x hp hx => ⟨fun h => ?waits, fun h => ?runs⟩,
    fun s x hp hx => ?revert⟩
  case overwrite =>
    obtain ⟨g, bl, im, q, h, hother⟩ := overwriteBank_all s x r p
    refine ⟨?_, ?_, ?_, ?_, ?_, ?_, ?_, ?_, fun hv k h1 h5 => overwriteBank_image hv h1 h5⟩
    all_goals rw [h]
    exact hother
  case drain =>
    obtain ⟨r, u, bl, mk, r0, r5, q, hc, hm, hb⟩ := commitSet_all s x 0 ok
    refine ⟨_, exec_drain_ended hp hx ok hs ha ht, ?_⟩
    rw [hc]
    simp only [settle_update, settle_flash, settle_seqr, settle_log, settle_berths, true_and, and_true]
    refine ⟨rfl, fun g hg => ?_, committedOtp_secVersion s x, fun hr hv => hb (by simp [raisesFloor, hr, hv])⟩
    obtain ⟨m, hpage⟩ := hm g hg
    exact ⟨m, _, hpage, rfl⟩
  case waits => exact exec_restart_waits hp hx ((mayReload_eq_false_iff s x).2 h)
  case runs =>
    have hmay : mayReload s x = true := by rwa [← mayReload_eq_false_iff, Bool.not_eq_false] at h
    exact ⟨exec_restart_runs hp hx hmay, fun p => exec_restart_fails hp hx hmay⟩
  case revert =>
    obtain ⟨u, w, hbanks, hitems, hbarrier, he⟩ := exec_revert_reverts hp hx
    obtain ⟨hst, hphase, -, -, -, hnone, hb, hq⟩ := failUpdate_fields u x w 5 s.update.failedPart false
    refine ⟨_, he, ?_⟩
    simp only [settle_update, settle_flash, settle_seqr]
    refine ⟨hst, hphase, by rw [hq, hbarrier], ?_, hnone, ?_⟩
    · rw [hb, hbanks]; rfl
    · rw [failUpdate_items, hitems]

end Sys2Proof.Machine
end

section
/-! PROOFS. The harbour: the statements of the family of chapter 15 on beacons, membership and cohort triggers, each with the lemmas
about the model's functions that it rests on. -/

namespace Sys2Proof.Machine

/-! ### The drive's ID in the harbour (R430) -/

theorem harbourId_congr {s t : State} (hs : t.harbour.idSet = s.harbour.idSet) (hp : t.power = s.power)
    (hi : regGet t A.HB_ID = regGet s A.HB_ID) (he : regGet t A.HB_ENCL = regGet s A.HB_ENCL) : harbourId t = harbourId s := by
  unfold harbourId fieldOf; rw [hs, hp, hi, he]

/-- Counting in another register leaves the ID. -/
theorem harbourId_bump (s : State) {k : Nat} (hi : k ≠ A.HB_ID) (he : k ≠ A.HB_ENCL) : harbourId (bump s k) = harbourId s :=
  harbourId_congr (by rw [bump_harbour]) (by rw [bump_power]) (regGet_bump_ne s _ _ hi) (regGet_bump_ne s _ _ he)

/-- No event's bit or count is a register of the ID. -/
theorem harbourId_raise (s : State) (page b : Nat) : harbourId (raise s page b) = harbourId s := by
  have hi : ∀ off < 0x40, page * 0x1000 + off ≠ A.HB_ID := fun off ho => by unfold A.HB_ID; omega
  have he : ∀ off < 0x40, page * 0x1000 + off ≠ A.HB_ENCL := fun off ho => by unfold A.HB_ENCL; omega
  exact harbourId_congr (by rw [raise_harbour]) (by rw [raise_power])
    (regGet_raise_ne s _ _ _ (hi _ (by decide)) (hi _ (by decide)))
    (regGet_raise_ne s _ _ _ (he _ (by decide)) (he _ (by decide)))

theorem harbourId_countAccepted (s : State) (p : Port) : harbourId (countAccepted s p) = harbourId s := by
  cases p <;> exact harbourId_bump s (by decide) (by decide)

/-! ### Beacons that are sent (R433, R434) -/

theorem exec_beaconSend_due {s : State} (hc : bit (regGet s A.HB_CTRL) 0 = true) (hi : (harbourId s).1 = true)
    (hr : s.power.running = true) (hd : s.harbour.beaconAt + 100000 + s.harbour.beaconDelay ≤ s.sessionUs) :
    let u := { (takeFree s).2 with harbour := { s.harbour with
      beaconSeq := seqAdd s.harbour.beaconSeq 1
      beaconAt := s.sessionUs
      beaconDelay := (takeFree s).1.toNat % 10001 } }
    let env := fun p => harbourEnvelope u p harbourGroupEth harbourGroup (fieldOf u A.HB_PORTS 15 0) false (beaconBytes (beaconBody u))
    exec .beaconSend s = .next (settle (emitOn (emitOn u .a (env .a) (.beacon .a (beaconBody u))) .b (env .b)
      (.beacon .b (beaconBody u)))) :=
  if_pos ⟨hc, hi, hr, decide_eq_true hd⟩

theorem exec_beaconSend_undue {s : State} (h : bit (regGet s A.HB_CTRL) 0 = false ∨ (harbourId s).1 = false ∨
    s.sessionUs < s.harbour.beaconAt + 100000 + s.harbour.beaconDelay) : exec .beaconSend s = .next (settle s) := by
  refine if_neg ?_
  rintro ⟨hc, hi, -, hd⟩
  rcases h with h | h | h
  · exact Bool.false_ne_true (h.symm.trans hc)
  · exact Bool.false_ne_true (h.symm.trans hi)
  · exact Nat.not_le.2 h (of_decide_eq_true hd)

/-- The fields of a beacon one after the other (R434). -/
theorem beaconBytes_eq (b : BeaconBody) : beaconBytes b = beBytes 0x48424E39 4 ++ (beBytes 1 1 ++ (beBytes b.bflags 1 ++
    (beBytes b.harbourId 2 ++ (beBytes b.serial 8 ++ (beBytes b.seq 4 ++ (beBytes b.bootNumber 4 ++ (beBytes b.fw 4 ++
    (beBytes b.mode 1 ++ (beBytes b.space 1 ++ (beBytes b.life 1 ++ (beBytes b.towFree 1 ++ (beBytes b.members 2 ++
    (beBytes b.pstate 1 ++ (beBytes 0 1 ++ (beBytes b.towPort 2 ++ (beBytes 0 26 ++ [])))))))))))))))) := by
  unfold beaconBytes fit
  rw [List.take_of_length_le (by simp [beBytes_len])]
  simp only [List.append_assoc, List.length_append, List.length_singleton, beBytes_len, List.append_nil]
  rfl

/-- A beacon's bytes give back its fields. -/
theorem beacon_roundTrip (b : BeaconBody) (hf : b.bflags < 8) (hid : b.harbourId < 4096) (hser : b.serial < 2 ^ 64)
    (hseq : b.seq < 2 ^ 32) (hboot : b.bootNumber < 2 ^ 32) (hfw : b.fw < 2 ^ 32) (hm : b.mode < 256) (hsp : b.space < 256)
    (hl : b.life < 256) (ht : b.towFree < 256) (hmem : b.members < 2 ^ 16) (hps : b.pstate < 256) (hport : b.towPort < 2 ^ 16) :
    beaconForm (beaconBytes b) = true ∧ beaconOf (beaconBytes b) = b := by
  have d0 : (beaconBytes b).drop 0 = _ := beaconBytes_eq b
  have d4 := drop_field d0 (beBytes_len _ _)
  have d5 := drop_field d4 (beBytes_len _ _)
  have d6 := drop_field d5 (beBytes_len _ _)
  have d8 := drop_field d6 (beBytes_len _ _)
  have d16 := drop_field d8 (beBytes_len _ _)
  have d20 := drop_field d16 (beBytes_len _ _)
  have d24 := drop_field d20 (beBytes_len _ _)
  have d28 := drop_field d24 (beBytes_len _ _)
  have d29 := drop_field d28 (beBytes_len _ _)
  have d30 := drop_field d29 (beBytes_len _ _)
  have d31 := drop_field d30 (beBytes_len _ _)
  have d32 := drop_field d31 (beBytes_len _ _)
  have d34 := drop_field d32 (beBytes_len _ _)
  have d35 := drop_field d34 (beBytes_len _ _)
  have d36 := drop_field d35 (beBytes_len _ _)
  have d38 := drop_field d36 (beBytes_len _ _)
  have hflags : beAt (beaconBytes b) 5 1 = b.bflags := beAt_of_drop (w := 8) d5 rfl (by omega)
  have hident : beAt (beaconBytes b) 6 2 = b.harbourId := beAt_of_drop (w := 16) d6 rfl (by omega)
  constructor
  · have hlen : (beaconBytes b).length = 64 := fit_len _ _
    unfold beaconForm
    rw [hlen, hflags, hident, beAt_of_drop (w := 32) d0 rfl (by norm_num), beAt_of_drop (w := 8) d4 rfl (by norm_num),
      beAt_of_drop (w := 8) d35 rfl (by norm_num), beAt_of_drop (w := 208) d38 rfl (by norm_num)]
    simp [hf, hid]
  · unfold beaconOf
    rw [hflags, hident, beAt_of_drop (w := 64) d8 rfl hser, beAt_of_drop (w := 32) d16 rfl hseq,
      beAt_of_drop (w := 32) d20 rfl hboot, beAt_of_drop (w := 32) d24 rfl hfw, beAt_of_drop (w := 8) d28 rfl hm,
      beAt_of_drop (w := 8) d29 rfl hsp, beAt_of_drop (w := 8) d30 rfl hl, beAt_of_drop (w := 8) d31 rfl ht,
      beAt_of_drop (w := 16) d32 rfl hmem, beAt_of_drop (w := 8) d34 rfl hps, beAt_of_drop (w := 16) d36 rfl hport]

/-! ### Beacons that arrive (R435) -/

/-- The entry of a beacon's HARBOUR_ID once the beacon has been heard, by what it was before (R435). -/
def entryAfter (s : State) (rx : Rx) (b : BeaconBody) : Option Member → Member
  | none => memberOf s rx b
  | some m => match m.st with
    | .lost => memberOf s rx b
    | .present =>
      if b.serial ≠ m.serial then { m with st := .conflict, secondAt := s.sessionUs, at_ := s.sessionUs }
      else if seqLt m.seq b.seq then { memberOf s rx b with secondAt := m.secondAt } else m
    | .conflict => { m with at_ := s.sessionUs, secondAt := if b.serial = m.serial then m.secondAt else s.sessionUs }

section
variable (s : State) (rx : Rx) {b : BeaconBody} {m : Member}

theorem entryAfter_newer (hp : m.st = .present) (hb : b.serial = m.serial) (hl : seqLt m.seq b.seq = true) :
    entryAfter s rx b (some m) = { memberOf s rx b with secondAt := m.secondAt } := by
  simp [entryAfter, hp, hb, hl]

theorem entryAfter_older (hp : m.st = .present) (hb : b.serial = m.serial) (hl : seqLt m.seq b.seq = false) :
    entryAfter s rx b (some m) = m := by
  simp [entryAfter, hp, hb, hl]

theorem entryAfter_otherSerial (hp : m.st = .present) (hb : b.serial ≠ m.serial) :
    entryAfter s rx b (some m) = { m with st := .conflict, secondAt := s.sessionUs, at_ := s.sessionUs } := by
  simp [entryAfter, hp, hb]

theorem entryAfter_conflict (hp : m.st = .conflict) : entryAfter s rx b (some m) =
    { m with at_ := s.sessionUs, secondAt := if b.serial = m.serial then m.secondAt else s.sessionUs } := by
  simp [entryAfter, hp]

theorem entryAfter_lost (hp : m.st = .lost) : entryAfter s rx b (some m) = memberOf s rx b := by
  simp [entryAfter, hp]

end

/-- In `t` the entry of an ID is `m`; the other entries, the drive's own ID and its conflict are those of `s`. -/
structure EntrySet (s t : State) (id : Nat) (m : Member) : Prop where
  harbourId : harbourId t = harbourId s
  sessionUs : t.sessionUs = s.sessionUs
  selfConflictAt : t.harbour.selfConflictAt = s.harbour.selfConflictAt
  members : ∀ j, tabGet t.harbour.members j = if id = j then some m else tabGet s.harbour.members j

theorem putMember_entrySet (s : State) (id : Nat) (m : Member) : EntrySet s (putMember s id m) id m :=
  ⟨rfl, rfl, rfl, fun _ => tabGet_tabPut _ _ _ _⟩

theorem EntrySet.of_entry {s : State} {id : Nat} {m : Member} (h : tabGet s.harbour.members id = some m) : EntrySet s s id m :=
  ⟨rfl, rfl, rfl, fun j => by
    split
    next e => rw [← e, h]
    next => rfl⟩

theorem EntrySet.bump {s t : State} {id : Nat} {m : Member} (h : EntrySet s t id m) {k : Nat} (hi : k ≠ A.HB_ID)
    (he : k ≠ A.HB_ENCL) : EntrySet s (bump t k) id m :=
  ⟨(harbourId_bump t hi he).trans h.harbourId, by rw [bump_sessionUs, h.sessionUs], by rw [bump_harbour, h.selfConflictAt],
    by rw [bump_harbour]; exact h.members⟩

theorem EntrySet.raise {s t : State} {id : Nat} {m : Member} (h : EntrySet s t id m) (page b : Nat) :
    EntrySet s (raise t page b) id m :=
  ⟨(harbourId_raise t page b).trans h.harbourId, by rw [raise_sessionUs, h.sessionUs], by rw [raise_harbour, h.selfConflictAt],
    by rw [raise_harbour]; exact h.members⟩

/-- A beacon changes the entry of its HARBOUR_ID, as that stands, and counters. -/
theorem updateMember_entrySet (s : State) (rx : Rx) (b : BeaconBody) :
    EntrySet s (updateMember s rx b) b.harbourId (entryAfter s rx b (tabGet s.harbour.members b.harbourId)) := by
  have hput : ∀ m, EntrySet s (bump (putMember s b.harbourId m) A.HB_BEACON_RX) b.harbourId m := fun m =>
    (putMember_entrySet s b.harbourId m).bump (by decide) (by decide)
  unfold updateMember entryAfter; dsimp only
  cases hm : tabGet s.harbour.members b.harbourId with
  | none => exact (hput _).raise _ _
  | some m =>
    dsimp only
    cases m.st with
    | lost => exact (hput _).raise _ _
    | conflict => exact hput _
    | present =>
      dsimp only
      split
      · exact (hput _).raise _ _
      · split
        · exact hput _
        · exact (EntrySet.of_entry hm).bump (by decide) (by decide)

/-- The drive's own ID under another serial begins its conflict, and leaves the entries (R435). -/
theorem selfConflict_harbour (s : State) (b : BeaconBody) : (selfConflict s b).harbour = { s.harbour with
    selfConflictAt := if (harbourId s).1 = true ∧ (harbourId s).2.2 = b.harbourId then some s.sessionUs
      else s.harbour.selfConflictAt } := by
  unfold selfConflict
  split
  next => rw [raise_harbour]
  next => rfl

section
variable {r : State} {rx : Rx} {y : List Byte}

theorem exec_beacon_failed {k : Nat} (h : beaconCheck (arrive r rx) rx = some k) :
    exec (.beacon rx y) r = .next (settle (discard (arrive r rx) rx.port k)) := by
  show execBeacon rx y r = _
  unfold execBeacon; dsimp only
  rw [h]; rfl

variable (h : beaconCheck (arrive r rx) rx = none)
include h

theorem exec_beacon_badForm (hf : beaconForm y = false) :
    exec (.beacon rx y) r = .next (settle (bump (countAccepted (arrive r rx) rx.port) A.HB_BEACON_BAD)) := by
  show execBeacon rx y r = _
  unfold execBeacon; dsimp only
  rw [h, hf]; rfl

theorem exec_beacon_own (hf : beaconForm y = true) (hs : (beaconOf y).serial = (arrive r rx).flash.otp.serial) :
    exec (.beacon rx y) r = .next (settle (countAccepted (arrive r rx) rx.port)) := by
  show execBeacon rx y r = _
  unfold execBeacon; dsimp only
  rw [h, hf]; dsimp only
  rw [if_neg (by decide), if_pos (hs.trans (by rw [(countAccepted_frame _ _).flash]))]; rfl

theorem exec_beacon_other (hf : beaconForm y = true) (hs : (beaconOf y).serial ≠ (arrive r rx).flash.otp.serial) :
    exec (.beacon rx y) r = .next (settle (selfConflict
      (updateMember (countAccepted (arrive r rx) rx.port) rx (beaconOf y)) (beaconOf y))) := by
  show execBeacon rx y r = _
  unfold execBeacon; dsimp only
  rw [h, hf]; dsimp only
  rw [if_neg (by decide), if_neg (by rwa [(countAccepted_frame _ _).flash])]; rfl

end

/-- What a beacon of another drive leaves of the membership: the entries, and the conflict of the drive's own ID. -/
theorem heardBeacon_harbour (s : State) (rx : Rx) (b : BeaconBody) :
    let t := selfConflict (updateMember (countAccepted s rx.port) rx b) b
    t.harbour.selfConflictAt = (if (harbourId s).1 = true ∧ (harbourId s).2.2 = b.harbourId then some s.sessionUs
      else s.harbour.selfConflictAt) ∧
    ∀ id, tabGet t.harbour.members id = if b.harbourId = id then
      some (entryAfter s rx b (tabGet s.harbour.members b.harbourId)) else tabGet s.harbour.members id := by
  have hu := updateMember_entrySet (countAccepted s rx.port) rx b
  obtain ⟨regs, hc⟩ := countAccepted_frame s rx.port
  have hid : harbourId (updateMember (countAccepted s rx.port) rx b) = harbourId s :=
    hu.harbourId.trans (harbourId_countAccepted s rx.port)
  have ht : (updateMember (countAccepted s rx.port) rx b).sessionUs = s.sessionUs := hu.sessionUs.trans (by rw [hc])
  have hq := hu.selfConflictAt
  have hm := hu.members
  intro t
  unfold t
  rw [selfConflict_harbour, hid, ht, hq]
  refine ⟨by rw [hc], fun id => (hm id).trans (by rw [hc]; rfl)⟩

/-! ### Entries that age (R435) -/

section
variable {s : State} {id : Nat} {m : Member} (hm : tabGet s.harbour.members id = some m)
include hm

theorem ageMember_dropped (hl : m.st = .lost) (ht : m.lostAt + 60000000 ≤ s.sessionUs) :
    ageMember s id = { s with harbour := { s.harbour with members := tabErase s.harbour.members id } } := by
  unfold ageMember; rw [hm]; dsimp only; rw [hl]; dsimp only; rw [if_pos ht]

theorem ageMember_stillLost (hl : m.st = .lost) (ht : s.sessionUs < m.lostAt + 60000000) : ageMember s id = s := by
  unfold ageMember; rw [hm]; dsimp only; rw [hl]; dsimp only; rw [if_neg (Nat.not_le.2 ht)]

theorem ageMember_lost (hl : m.st ≠ .lost) (ht : m.at_ + 1000000 ≤ s.sessionUs) :
    ageMember s id = raise (putMember s id { m with st := .lost, lostAt := s.sessionUs }) 0x0D 1 := by
  unfold ageMember; rw [hm]; dsimp only
  cases hst : m.st with
  | lost => exact absurd hst hl
  | present => simp [ht]
  | conflict => simp [ht]

theorem ageMember_present (hl : m.st = .present) (ht : s.sessionUs < m.at_ + 1000000) : ageMember s id = s := by
  unfold ageMember; rw [hm]; dsimp only; rw [hl]; simp [Nat.not_le.2 ht]

theorem ageMember_settled (hl : m.st = .conflict) (ht : s.sessionUs < m.at_ + 1000000)
    (h2 : m.secondAt + 1000000 ≤ s.sessionUs) : ageMember s id = putMember s id { m with st := .present } := by
  unfold ageMember; rw [hm]; dsimp only; rw [hl]; simp [Nat.not_le.2 ht, h2]

end

/-- Ageing an entry leaves the other entries, the drive's own ID and its conflict. -/
theorem ageMember_leaves (s : State) (id : Nat) : harbourId (ageMember s id) = harbourId s ∧
    (ageMember s id).sessionUs = s.sessionUs ∧ (ageMember s id).harbour.selfConflictAt = s.harbour.selfConflictAt ∧
    ∀ j, j ≠ id → tabGet (ageMember s id).harbour.members j = tabGet s.harbour.members j := by
  have hput : ∀ {t m}, EntrySet s t id m → harbourId t = harbourId s ∧ t.sessionUs = s.sessionUs ∧
      t.harbour.selfConflictAt = s.harbour.selfConflictAt ∧
      ∀ j, j ≠ id → tabGet t.harbour.members j = tabGet s.harbour.members j := fun h =>
    ⟨h.harbourId, h.sessionUs, h.selfConflictAt, fun j hj => (h.members j).trans (if_neg (Ne.symm hj))⟩
  have hkept : harbourId s = harbourId s ∧ s.sessionUs = s.sessionUs ∧ s.harbour.selfConflictAt = s.harbour.selfConflictAt ∧
      ∀ j, j ≠ id → tabGet s.harbour.members j = tabGet s.harbour.members j := ⟨rfl, rfl, rfl, fun _ _ => rfl⟩
  unfold ageMember
  split
  · exact hkept
  · dsimp only
    split
    · split
      · exact ⟨rfl, rfl, rfl, fun j hj => (tabGet_tabErase _ _ _).trans (if_neg (Ne.symm hj))⟩
      · exact hkept
    · split
      · exact hput ((putMember_entrySet _ _ _).raise _ _)
      · exact hkept
    · split
      · exact hput ((putMember_entrySet _ _ _).raise _ _)
      · split
        · exact hput (putMember_entrySet _ _ _)
        · exact hkept

theorem exec_memberAge_noConflict {s : State} (id : Nat) (h : s.harbour.selfConflictAt = none) :
    exec (.memberAge id) s = .next (settle (ageMember s id)) := by
  obtain ⟨-, -, hq, -⟩ := ageMember_leaves s id
  show execMemberAge id s = _
  unfold execMemberAge; dsimp only
  rw [hq, h]; rfl

/-- A second without the other serial ends the conflict of the drive's own ID. -/
theorem exec_memberAge_ownConflict {s : State} {id q : Nat} (h : s.harbour.selfConflictAt = some q)
    (hi : (harbourId s).2.2 = id) (ht : q + 1000000 ≤ s.sessionUs) : exec (.memberAge id) s = .next (settle (
      let t := ageMember s id
      { t with harbour := { t.harbour with selfConflictAt := none } })) := by
  obtain ⟨hid, hus, hq, -⟩ := ageMember_leaves s id
  show execMemberAge id s = _
  unfold execMemberAge; dsimp only
  rw [hq, h]; dsimp only
  rw [hid, hus, if_pos ⟨hi, ht⟩]; rfl

/-- Settles O57: beacons sent and heard, and the ageing of entries, clause by clause from the lemmas above. -/
theorem beaconsAndMembers : Obligations.BeaconsAndMembers := by
  unfold Obligations.BeaconsAndMembers
  refine ⟨fun s hc hi hr hd => ?send, fun s => exec_beaconSend_undue, beacon_roundTrip, fun r rx y => ?heard,
    fun s id hq => ?age, fun s id q hq hi ht => ⟨_, exec_memberAge_ownConflict hq hi ht, rfl⟩⟩
  case send =>
    exact ⟨_, (takeFree s).1.toNat % 10001, Nat.le_of_lt_succ (Nat.mod_lt _ (by decide)), rfl,
      exec_beaconSend_due hc hi hr hd⟩
  case heard =>
    intro s b
    refine ⟨fun k => exec_beacon_failed, exec_beacon_badForm, exec_beacon_own, fun h hf hs => ?_⟩
    obtain ⟨hq, hm⟩ := heardBeacon_harbour s rx b
    have hown : ∀ {e m}, tabGet s.harbour.members b.harbourId = e → entryAfter s rx b e = m → tabGet (selfConflict
        (updateMember (countAccepted s rx.port) rx b) b).harbour.members b.harbourId = some m := fun he hm' => by
      rw [hm, if_pos rfl, he, hm']
    exact ⟨_, exec_beacon_other h hf hs, fun id hid => (hm id).trans (if_neg (Ne.symm hid)), hq, fun m he =>
      ⟨fun hp hb hl => hown he (entryAfter_newer s rx hp hb hl), fun hp hb hl => hown he (entryAfter_older s rx hp hb hl),
      fun hp hb => hown he (entryAfter_otherSerial s rx hp hb), fun hp => hown he (entryAfter_conflict s rx hp),
      fun hp => hown he (entryAfter_lost s rx hp)⟩, fun he => hown he rfl⟩
  case age =>
    obtain ⟨-, -, hk, ho⟩ := ageMember_leaves s id
    refine ⟨_, exec_memberAge_noConflict id hq, hk.trans hq, ho, fun m hm => ⟨fun hl ht => ?_, fun hl ht => ?_,
      ageMember_lost hm, ageMember_present hm, ageMember_settled hm⟩⟩
    · rw [ageMember_dropped hm hl ht]
      exact (tabGet_tabErase _ _ _).trans (if_pos rfl)
    · rw [ageMember_stillLost hm hl ht, hm]

/-! ### Cohort triggers (R419, R447) -/

theorem exec_cohortTrigger_failed {r : State} {rx : Rx} {t : List Byte} {k : Nat}
    (h : beaconCheck (arrive r rx) rx = some k) :
    exec (.cohortTrigger rx t) r = .next (settle (discard (arrive r rx) rx.port k)) := by
  show execCohortTrigger rx t r = _
  unfold execCohortTrigger; dsimp only
  rw [h]; rfl

/-- What a trigger accepted by the frame's checks does, in the order of R447: HB_CTRL.TRIGGERS, the form, the names. -/
theorem exec_cohortTrigger_heard {r : State} {rx : Rx} (t : List Byte) (h : beaconCheck (arrive r rx) rx = none) :
    let u := countAccepted (arrive r rx) rx.port
    exec (.cohortTrigger rx t) r = .next (settle (
      if bit (regGet u A.HB_CTRL) 1 = false then u else if triggerForm t = false then bump u A.HB_TRIG_BAD
      else if triggerMatches u t = true then verifyTrigger u t else ignoreTrigger u t)) := by
  show execCohortTrigger rx t r = _
  unfold execCohortTrigger; dsimp only
  rw [h]
  simp only [Bool.not_eq_true', conclude_eq, apply_ite settle, apply_ite Host.Outcome.next]

theorem ignoreTrigger_fired {s : State} {t : List Byte} (ha : activating s = true) (hc : s.update.cohort = triggerCohort t) :
    ignoreTrigger s t = s := if_pos ⟨ha, hc⟩

theorem ignoreTrigger_counted {s : State} {t : List Byte} (h : activating s = false ∨ s.update.cohort ≠ triggerCohort t) :
    ignoreTrigger s t =
      { s with update := { s.update with trigIgnored := min (s.update.trigIgnored + 1) (2 ^ 32 - 1) } } :=
  if_neg fun ⟨ha, hc⟩ => h.elim (fun hf => Bool.false_ne_true (hf.symm.trans ha)) (fun hne => hne hc)

theorem triggerSigned_iff (s : State) (t : List Byte) : triggerSigned s t = true ↔
    (∃ k, (k, Config.sha384 (triggerKey t)) ∈ enabledRoots s) ∧
      Config.sigVerifies (triggerKey t) (t.take 140) (t.drop 140) = true := by
  unfold triggerSigned
  rw [Bool.and_eq_true, List.any_eq_true]
  refine and_congr_left fun _ => ⟨fun ⟨⟨k, h⟩, hm, he⟩ => ⟨k, ?_⟩, fun ⟨k, hm⟩ => ⟨_, hm, beq_self_eq_true _⟩⟩
  rwa [← eq_of_beq he]

/-- The triggers checked in the running second (R447). -/
def checkedNow (s : State) : Nat := if s.update.trigSecond = s.sessionUs / 1000000 then s.update.trigChecked else 0

/-- One more trigger is checked in the running second. -/
def checkCounted (s : State) : State :=
  { s with update := { s.update with trigSecond := s.sessionUs / 1000000, trigChecked := checkedNow s + 1 } }

theorem verifyTrigger_limited {s : State} (t : List Byte) (h : 100 ≤ checkedNow s) : verifyTrigger s t =
    { s with update := { s.update with trigIgnored := min (s.update.trigIgnored + 1) (2 ^ 32 - 1) } } := if_pos h

theorem verifyTrigger_checked {s : State} (t : List Byte) (h : checkedNow s < 100) : verifyTrigger s t =
    if triggerSigned (checkCounted s) t = true then (fireCohort (checkCounted s) (triggerCohort t)).1
    else raise (bump (checkCounted s) A.HB_TRIG_BAD) 0x0D 5 := if_neg (Nat.not_le.2 h)

/-- Settles O58: the checks of a trigger in the order of R447, each clause from the lemma of its outcome. -/
theorem cohortTriggers : Obligations.CohortTriggers := by
  unfold Obligations.CohortTriggers
  intro r rx t s
  refine ⟨fun k => exec_cohortTrigger_failed, fun h => ?_⟩
  have heard := exec_cohortTrigger_heard t h
  refine ⟨fun hb => ?off, fun hb => ⟨fun hf => ?badForm, fun hf hm => ?ignored, fun hf hm => ?checked⟩⟩
  case off => rw [heard, if_pos hb]
  all_goals dsimp only at heard; rw [if_neg (ne_false_of_eq_true hb)] at heard
  case badForm => rw [heard, if_pos hf]
  all_goals rw [if_neg (ne_false_of_eq_true hf)] at heard
  case ignored =>
    rw [if_neg (ne_true_of_eq_false hm)] at heard
    exact ⟨fun ha hc => by rw [heard, ignoreTrigger_fired ha hc], fun hi => by rw [heard, ignoreTrigger_counted hi]⟩
  case checked =>
    rw [if_pos hm] at heard
    refine ⟨fun hn => by rw [heard, verifyTrigger_limited t hn], fun hn => ?_⟩
    rw [verifyTrigger_checked t hn] at heard
    have signed := triggerSigned_iff (checkCounted (countAccepted (arrive r rx) rx.port)) t
    refine ⟨fun hk hs => heard.trans ?_, fun hno => heard.trans ?_⟩
    · rw [if_pos (signed.2 ⟨hk, hs⟩)]; rfl
    · rw [if_neg fun hs => hno.elim (fun hn => (signed.1 hs).1.elim hn)
        (fun hf => Bool.false_ne_true (hf.symm.trans (signed.1 hs).2))]; rfl

end Sys2Proof.Machine
end
